-- ==== Sys2Proof/Word.lean ====
section
/-! DEFINITION. The word types of the AT-6: what the manual treats as bits (a byte on the serial line, a 32-bit line
time, a 16-bit accelerometer sample), and the containers for what the part holds once per station. Everything the
manual gives as a ranged integer (R1) is a `Nat` or an `Int`. -/

namespace Sys2Proof

/-- A byte of the serial line (R202). -/
abbrev Byte := BitVec 8

/-- A 16-bit field or sample: an accelerometer value in mg (R105), a fingerprint (R36). -/
abbrev Word16 := BitVec 16

/-- A 32-bit field: a test tag (R3), a uint32 or an int32 of a payload (R202). -/
abbrev Word32 := BitVec 32

/-- Line time (R2): milliseconds since power-on reset, modulo 2^32. -/
abbrev LineTime := BitVec 32

/-- A station. The manual numbers the stations 1 to 6 (R1); `st : Station` is station `st + 1`. -/
abbrev Station := Fin 6

/-- One value for each of the six stations. -/
abbrev PerStation (α : Type) := Vector α 6

/-- Change station `st`'s value by `f`, leaving the other five as they are. -/
def PerStation.upd {α : Type} (v : PerStation α) (st : Station) (f : α → α) : PerStation α :=
  v.set st.val (f v[st])

/-- The six stations in number order. -/
def allStations : List Station := [0, 1, 2, 3, 4, 5]

end Sys2Proof
end

