-- ==== Sys2Proof/Syntax.lean ====
section
/-! DEFINITION. The commands of the AT-6: one constructor of `Instr` for each row of spec/opcode_table.json. A row
carries what its rule reads from outside the part: the station it happens at, the sensor's reading, the byte on the line,
or the fields of the request's payload in the order of R204 and R206 (with the frame's tag first). -/

namespace Sys2Proof

/-! ### The names a command's operands use -/

/-- The six station quantities of R76, in its order. -/
inductive StQuantity
  | oilTemp | speed | torque | vib | leakPress | airTemp
deriving DecidableEq, Repr

/-- The seven quantities of R76: a station quantity, or the global SUPPLY. -/
inductive Quantity
  | station (q : StQuantity)
  | supply
deriving DecidableEq, Repr

/-- The two noise engines (R97). -/
inductive EngineId
  | a | b
deriving DecidableEq, Repr

/-- What an analogue sensor gives at a sample (R79): a value in the quantity's unit, or one of its three faults. -/
inductive Reading
  | value (v : Int)
  | openCircuit
  | shortCircuit
  | noData
deriving DecidableEq, Repr

/-- What the accelerometer gives at an instant: a signed 16-bit value in mg (R105), or one of its three faults (R147). -/
inductive AccelReading
  | value (v : Word16)
  | openCircuit
  | shortCircuit
  | noData
deriving DecidableEq, Repr

/-- One monitor sample (R79, R80): whose quantity is sampled, and what its source gives. SPEED has no reading of its own
(R77): only whether the encoder's signals are reported open or shorted. A VIB sample brings the accelerometer's reading
at the sample and its further readings since the previous VIB sample (R78). -/
inductive SensorInput
  | oilTemp (st : Station) (r : Reading)
  | speed (st : Station) (encoderFault : Bool)
  | torque (st : Station) (r : Reading)
  | vib (st : Station) (now : AccelReading) (since : List AccelReading)
  | leakPress (st : Station) (r : Reading)
  | airTemp (st : Station) (r : Reading)
  | supply (r : Reading)
deriving DecidableEq, Repr

/-- The link speed the strap selects (R187). -/
inductive LinkSpeed
  | baud115200 | baud460800
deriving DecidableEq, Repr

/-- The levels the part reads from its input pins at power-on reset: the emergency-stop input (R27), the baud strap
(R187) and the six drive-fault inputs (R68). -/
structure PowerOnPins where
  estop : Bool
  strap : LinkSpeed
  driveFault : PerStation Bool
deriving DecidableEq, Repr

/-- One entry of LIM (R204): a quantity code and four int32 thresholds. -/
structure LimEntry where
  quantity : Byte
  lowAlarm : Word32
  lowWarn : Word32
  highWarn : Word32
  highAlarm : Word32
deriving DecidableEq, Repr

/-- One setting of MSK (R204): a quantity code, a flag-kind code and a mask value. -/
structure MskSetting where
  quantity : Byte
  kind : Byte
  mask : Byte
deriving DecidableEq, Repr

/-- One pair of CLF (R204): a quantity code and a flag-kind code. -/
structure FlagPair where
  quantity : Byte
  kind : Byte
deriving DecidableEq, Repr

/-- The fields of STT (R206) after its tag. `body` is what follows the text: the recipe body of an INLINE start. -/
structure SttFields where
  station : Byte
  testTag : Word32
  source : Byte
  variant : Word16
  checkByte : Byte
  text : List Byte
  body : List Byte
deriving DecidableEq, Repr

/-- The fields of CFG (R206) after its tag. -/
structure CfgFields where
  mode : Byte
  patm : Word32
  stopRate : Word16
  standstill : Word16
  waitLimit : Word32
  autoInterval : Word16
deriving DecidableEq, Repr

/-- The fields of CHN (R204) after its tag. -/
structure ChnFields where
  station : Byte
  channel : Byte
  mode : Byte
  invert : Byte
  constant : Word32
  toneOrder : Byte
  toneAmplitude : Word16
  tonePhase : Byte
  decayRate : Word16
deriving DecidableEq, Repr

/-! ### The commands -/

/-- The commands, in the order of spec/opcode_table.json. An event of the part names itself; a request is the arrival of
the last byte of a good frame that carries it (R2, R190), with the frame's tag and its payload's fields. -/
inductive Instr
  /-- POWER_ON_RESET (R27): power comes up with these levels on the input pins. -/
  | powerOnReset (pins : PowerOnPins)
  /-- RESTART (R26): the last byte of the RST reply has been sent. -/
  | restart
  /-- EMERGENCY_STOP (R15): the input becomes active. `order` is the order in which the one event meets the stations,
  which the manual leaves open (R143, R166); stations it does not name follow in number order (log entry 12). -/
  | emergencyStop (order : List Station)
  /-- EMERGENCY_STOP_RELEASE (R16): the input returns to inactive. -/
  | emergencyStopRelease
  /-- DRIVE_FAULT (R73): a station's drive-fault input changes to this level (log entry 13). -/
  | driveFault (st : Station) (active : Bool)
  /-- MONITOR_SAMPLE (R80). -/
  | monitorSample (x : SensorInput)
  /-- QUANTITY_LOST (R81): the sample at which a quantity's consecutive-invalid count reaches 10. -/
  | quantityLost (x : SensorInput)
  /-- CHECK_AVERAGED (R65): the n-th sample of a CHECK. -/
  | checkAveraged (x : SensorInput)
  /-- STANDSTILL_CONFIRMED (R11): the SPEED sample at which a STOPPING station's standstill count reaches 20. -/
  | standstillConfirmed (st : Station) (encoderFault : Bool)
  /-- MEASURE_END (R133): the N-th sample of the second leak quantity. -/
  | measureEnd (x : SensorInput)
  /-- DRIVE_UPDATE (R69). -/
  | driveUpdate (st : Station)
  /-- ENCODER_INDEX (R104): the index mark, `us` microseconds into the current millisecond, with the accelerometer's
  reading at that instant. -/
  | encoderIndex (st : Station) (us : Fin 1000) (accel : AccelReading)
  /-- K_REACHED (R107): the index event at which the engine's accepted count reaches K. -/
  | kReached (st : Station) (us : Fin 1000) (accel : AccelReading)
  /-- GROUP_UNSTEADY (R108): the index event at which the discarded count reaches the discard limit. -/
  | groupUnsteady (st : Station) (us : Fin 1000) (accel : AccelReading)
  /-- ENGINE_COMPLETION (R117). -/
  | engineCompletion (e : EngineId)
  /-- ENGINE_GRANT (R100). -/
  | engineGrant (e : EngineId)
  /-- DEFERRED_CLAIM (R101). -/
  | deferredClaim (st : Station)
  /-- ENGINE_WAIT_EXPIRY (R102). -/
  | engineWaitExpiry (st : Station)
  /-- RAMP_TIMEOUT (R58). -/
  | rampTimeout (st : Station)
  /-- DWELL_DURATION_EXPIRY (R59). -/
  | dwellDurationExpiry (st : Station)
  /-- EXTEND_TIMEOUT (R61). -/
  | extendTimeout (st : Station)
  /-- GATE_TIMEOUT (R63). -/
  | gateTimeout (st : Station)
  /-- STOP_TIMEOUT (R72). -/
  | stopTimeout (st : Station)
  /-- STANDSTILL_TIMER_EXPIRY (R126). -/
  | standstillTimerExpiry (st : Station)
  /-- FILL_TIMER_EXPIRY (R130). -/
  | fillTimerExpiry (st : Station)
  /-- SETTLE_TIMER_EXPIRY (R132). -/
  | settleTimerExpiry (st : Station)
  /-- VENT_TIMER_EXPIRY (R140). -/
  | ventTimerExpiry (st : Station)
  /-- SUPPLY_GRANT (R128). -/
  | supplyGrant
  /-- DEPOSIT (R13). -/
  | deposit
  /-- AUTO_SNAPSHOT_EXPIRY (R180). -/
  | autoSnapshotExpiry
  /-- GAP_TIMER_EXPIRY (R189). -/
  | gapTimerExpiry
  /-- LENGTH_OUT_OF_RANGE (R188): `b` is the second length byte. -/
  | lengthOutOfRange (b : Byte)
  /-- CRC_MISMATCH (R190): `b` is the last byte of the frame. -/
  | crcMismatch (b : Byte)
  /-- FRAME_DISCARDED_BUSY (R191): `b` is the last byte of the frame. -/
  | frameDiscardedBusy (b : Byte)
  /-- UNKNOWN_KIND (R192): `b` is the last byte of the frame. -/
  | unknownKind (b : Byte)
  /-- TRANSMIT_END (R193). -/
  | transmitEnd
  /-- TRANSMIT_START (R193). -/
  | transmitStart
  /-- IDN (R196). -/
  | idn (tag : Byte)
  /-- CFG (R198). -/
  | cfg (tag : Byte) (f : CfgFields)
  /-- STT (R19). -/
  | stt (tag : Byte) (f : SttFields)
  /-- ABT (R21). -/
  | abt (tag : Byte) (station : Byte)
  /-- REL (R22). -/
  | rel (tag : Byte) (station : Byte)
  /-- ENA (R23). -/
  | ena (tag : Byte) (station : Byte) (enable : Byte)
  /-- RDS (R24). -/
  | rds (tag : Byte) (station : Byte)
  /-- RST (R25). -/
  | rst (tag : Byte)
  /-- SKG (R64). -/
  | skg (tag : Byte) (station : Byte)
  /-- LDR (R44). -/
  | ldr (tag : Byte) (body : List Byte)
  /-- DRP (R45). -/
  | drp (tag : Byte) (variant : Word16)
  /-- PIN (R46). -/
  | pin (tag : Byte) (variant : Word16) (pinned : Byte)
  /-- TBL (R47). -/
  | tbl (tag : Byte)
  /-- RRS (R48). -/
  | rrs (tag : Byte) (variant : Word16)
  /-- LIM (R83). -/
  | lim (tag : Byte) (entries : List LimEntry)
  /-- MSK (R92). -/
  | msk (tag : Byte) (settings : List MskSetting)
  /-- RDM (R93). -/
  | rdm (tag : Byte) (scope : Byte)
  /-- CLF (R94). -/
  | clf (tag : Byte) (scope : Byte) (pairs : List FlagPair)
  /-- CHN (R154). -/
  | chn (tag : Byte) (f : ChnFields)
  /-- RDR (R169). -/
  | rdr (tag : Byte) (selector : Byte) (number : Word32)
  /-- RLR (R170). -/
  | rlr (tag : Byte) (number : Word32)
  /-- SNP (R179). -/
  | snp (tag : Byte)
  /-- RDN (R182). -/
  | rdn (tag : Byte)
  /-- POL (R184). -/
  | pol (tag : Byte)
  /-- BYTE_ARRIVAL (R188). -/
  | byteArrival (b : Byte)
  /-- ENCODER_LINE (R105): the encoder moves one line, forward or in reverse, with the accelerometer's reading at that
  instant. -/
  | encoderLine (st : Station) (forward : Bool) (accel : AccelReading)
deriving DecidableEq, Repr

end Sys2Proof
end

