-- ==== Sys2Proof/Decode.lean ====
section
/-! DEFINITION. Reading a command from the opcode table's bits. No row of spec/opcode_table.json gives bits (every row's
`fields` is empty): the table's rows are events and messages, and the only bits the AT-6 reads are the bytes of a frame,
which BYTE_ARRIVAL takes one by one (Machine/Link.lean). So no word spells a command here. -/

namespace Sys2Proof

/-- The command the table's bits of a word spell: none for every word (log entry 30). -/
def decodeTableWord (_nbits _w : Nat) : Option Instr := none

end Sys2Proof
end

