-- ==== Sys2Proof/Config.lean ====
section
/-! DEFINITION. The free values: what the manual leaves without a value while the part goes on. -/

namespace Sys2Proof.Config

/-- FREE VALUE (log entry 7). R77 and R106 divide 60,000,000 by the period between two index events in µs and state no
result for a period of 0 µs. The revolution speed in rpm is then this constant of the net line count: nothing in the
model constrains it, and no proof can see what it is. -/
opaque zeroPeriodSpeed : (net : Int) → Int

end Sys2Proof.Config
end

