-- ==== Sys2Proof/WellFormed.lean ====
section
/-! DEFINITION. The checks of a command's operands that the types do not make: a request must fit a frame (R187: a payload
of at most 1,016 bytes; R202: a count is one byte). A command that fails them can arrive on no line; `exec` is total on
it all the same. -/

namespace Sys2Proof

/-- The longest payload of a frame (R187, R202). -/
def maxPayload : Nat := 1016

/-- STT's operands fit a frame: the text's length is one byte, and the payload is within the limit (R206). A frame can carry
bytes after the text with any source; with a source other than INLINE they are refused BAD_LENGTH (R204). -/
def SttFields.wf (f : SttFields) : Bool := f.text.length ≤ 255 && (10 + f.text.length + f.body.length ≤ maxPayload)

/-- The command's operands are such as a frame can carry. -/
def Instr.wf : Instr → Bool
  | .stt _ f => f.wf
  | .ldr _ body => body.length ≤ maxPayload
  | .lim _ entries => 1 + 17 * entries.length ≤ maxPayload
  | .msk _ settings => settings.length ≤ 255
  | .clf _ _ pairs => pairs.length ≤ 255
  | .powerOnReset _ | .restart | .emergencyStop _ | .emergencyStopRelease | .driveFault _ _ | .monitorSample _
  | .quantityLost _ | .checkAveraged _ | .standstillConfirmed _ _ | .measureEnd _ | .driveUpdate _
  | .encoderIndex _ _ _ | .kReached _ _ _ | .groupUnsteady _ _ _ | .engineCompletion _ | .engineGrant _
  | .deferredClaim _ | .engineWaitExpiry _ | .rampTimeout _ | .dwellDurationExpiry _ | .extendTimeout _
  | .gateTimeout _ | .stopTimeout _ | .standstillTimerExpiry _ | .fillTimerExpiry _ | .settleTimerExpiry _
  | .ventTimerExpiry _ | .supplyGrant | .deposit | .autoSnapshotExpiry | .gapTimerExpiry | .lengthOutOfRange _
  | .crcMismatch _ | .frameDiscardedBusy _ | .unknownKind _ | .transmitEnd | .transmitStart | .idn _ | .cfg _ _
  | .abt _ _ | .rel _ _ | .ena _ _ _ | .rds _ _ | .rst _ | .skg _ _ | .drp _ _ | .pin _ _ _ | .tbl _ | .rrs _ _
  | .rdm _ _ | .chn _ _ | .rdr _ _ _ | .rlr _ _ | .snp _ | .rdn _ | .pol _ | .byteArrival _
  | .encoderLine _ _ _ => true

end Sys2Proof
end

