-- ==== Sys2Proof/Machine/State.lean ====
section
/-! DEFINITION. The state of the AT-6, block by block as the introduction's table of ten blocks names them, and
`State.reset`. Every block owns its own field of `State`; what a block holds per station is a `PerStation`. -/

namespace Sys2Proof.Machine

open Sys2Proof

/-! ### Recipes (R28 to R37) -/

/-- Recipe class (R28). -/
inductive RecipeClass
  | production | master
deriving DecidableEq, Repr

/-- Flank of a noise group (R30). -/
inductive Flank
  | drive | coast
deriving DecidableEq, Repr

/-- GATE relation (R29). -/
inductive GateRelation
  | atLeast | atMost
deriving DecidableEq, Repr

/-- GATE on-timeout action (R29). -/
inductive OnTimeout
  | fail | proceed
deriving DecidableEq, Repr

/-- CHECK mode (R29). -/
inductive CheckMode
  | within | atLeast | atMost
deriving DecidableEq, Repr

/-- A step record by its kind (R29): speeds in rpm, rates in rpm/s, torque in 0.1 N·m, times in ms. -/
inductive StepSpec
  | ramp (target : Int) (rate torqueLimit tolerance inBand timeout : Nat)
  | dwell (duration : Nat) (window : Option Nat) (extend : Bool) (extensionTimeout : Nat)
  | gate (q : StQuantity) (rel : GateRelation) (value : Int) (hold timeout : Nat) (onTimeout : OnTimeout)
  | check (q : StQuantity) (averaging : Nat) (mode : CheckMode) (reference : Int) (tolerance : Nat)
  | leak
deriving DecidableEq, Repr

/-- An order with its level limit in 0.01 mg (R30). -/
structure OrderLimit where
  order : Nat
  limit : Nat
deriving DecidableEq, Repr

/-- A noise group specification (R30). -/
structure GroupSpec where
  group : Nat
  k : Nat
  flank : Flank
  flankMin : Nat
  tolerance : Nat
  discardLimit : Nat
  orders : List OrderLimit
  peakLimit : Option Nat
deriving DecidableEq, Repr

/-- The leak specification (R31): pressures in Pa, times in ms, volume in mL, limits in 0.01 mL/min. -/
structure LeakSpec where
  testPressure : Nat
  fillTolerance : Nat
  fillTime : Nat
  settleTime : Nat
  grossDrop : Nat
  measureTime : Nat
  volume : Nat
  leakLimit : Nat
  riseLimit : Nat
  ventTime : Nat
deriving DecidableEq, Repr

/-- A threshold override (R32): any of the four thresholds of one station quantity. -/
structure Override where
  quantity : StQuantity
  lowAlarm : Option Int
  lowWarn : Option Int
  highWarn : Option Int
  highAlarm : Option Int
deriving DecidableEq, Repr

/-- The facts derived for a group at validation (R35): the step indices of its first and last window. -/
structure GroupWindows where
  first : Nat
  last : Nat
deriving DecidableEq, Repr

/-- A recipe that has passed validation (R28, R35, R36): the body as carried, its fields, the windows of each group
specification in carried order, and the fingerprint. -/
structure Recipe where
  body : List Byte
  variant : Nat
  revision : Nat
  cls : RecipeClass
  stopOnFail : Bool
  steps : List StepSpec
  groups : List GroupSpec
  leak : Option LeakSpec
  overrides : List Override
  windows : List GroupWindows
  fingerprint : Word16
deriving DecidableEq, Repr

/-- A valid entry of the Recipe Table (R37). Its variant tag, revision, class, body, windows and fingerprint are the
recipe's. An invalid entry is `none` in the table. -/
structure Entry where
  recipe : Recipe
  pinned : Bool
  lock : Nat
  rank : Nat
  tests : Nat
  fails : Nat
deriving DecidableEq, Repr

/-- A set of the Recipe Table: four ways (R37). -/
abbrev RecipeSet := Vector (Option Entry) 4

/-- The Recipe Table: eight sets (R37). -/
abbrev RecipeTable := Vector RecipeSet 8

/-! ### Monitor (R76 to R91) -/

/-- The five flag kinds (R85). -/
inductive FlagKind
  | highAlarm | highWarn | lowWarn | lowAlarm | lost
deriving DecidableEq, Repr

/-- A yes or no for each flag kind: current conditions, latched flags, or masks (R85, R86, R91). -/
structure FlagSet where
  highAlarm : Bool
  highWarn : Bool
  lowWarn : Bool
  lowAlarm : Bool
  lost : Bool
deriving DecidableEq, Repr

/-- The four thresholds of a quantity (R82). -/
structure Thresholds where
  lowAlarm : Int
  lowWarn : Int
  highWarn : Int
  highAlarm : Int
deriving DecidableEq, Repr

/-- What the Monitor holds of one quantity (R80, R85, R86): held value, the last-sample-valid mark (R93),
consecutive-invalid count, current conditions and latched flags. -/
structure QuantityMon where
  held : Int
  lastValid : Bool
  invalid : Nat
  current : FlagSet
  latched : FlagSet
deriving DecidableEq, Repr

/-- What the Monitor gathers between two VIB samples of a station (R78, R79): the greatest magnitude of the conditioned
accelerometer values, and whether the accelerometer reported a fault. -/
structure VibGather where
  peak : Nat
  fault : Bool
deriving DecidableEq, Repr

/-- The global threshold table (R82): the six station quantities in R76's order, then SUPPLY. -/
abbrev ThresholdTable := Vector Thresholds 7

/-- The notice mask table (R91), `true` for masked, quantities in R76's order. -/
abbrev MaskTable := Vector FlagSet 7

/-- The Monitor block. -/
structure Monitor where
  stations : PerStation (Vector QuantityMon 6)
  supply : QuantityMon
  vib : PerStation VibGather
  globals : ThresholdTable
  masks : MaskTable
deriving DecidableEq, Repr

/-! ### Encoders (R77, R104, R149) -/

/-- A moment to the microsecond: a line time and the microseconds within that millisecond (R77). -/
structure Stamp where
  ms : LineTime
  us : Nat
deriving DecidableEq, Repr

/-- A station's encoder (R77, R105, R149): its two most recent index events, the net line count of the revolution they
bound, the net line count since the last index, and the line position since the last index modulo 512. -/
structure Encoder where
  last : Option Stamp
  prev : Option Stamp
  latestNet : Int
  net : Int
  pos : Fin 512
deriving DecidableEq, Repr

/-! ### Records (R158 to R161) -/

/-- Abort causes (R8, R15). -/
inductive AbortCause
  | hostAbort
  | monitorAlarm (q : StQuantity) (k : FlagKind)
  | driveFault
  | estop
deriving DecidableEq, Repr

/-- Verdicts (R164). -/
inductive Verdict
  | pass | fail | incomplete | aborted
deriving DecidableEq, Repr

/-- Step kinds (R29). -/
inductive StepKind
  | ramp | dwell | gate | check | leak
deriving DecidableEq, Repr

/-- Step outcomes (R53). -/
inductive StepOutcome
  | done | failed | timedOut | skipped
deriving DecidableEq, Repr

/-- Causes of a FAILED step (R53). -/
inductive StepCause
  | rampTimeout | gateTimeout | extendTimeout | cutShort
deriving DecidableEq, Repr

/-- An entry of the step outcome list (R53). -/
structure StepEntry where
  index : Nat
  kind : StepKind
  outcome : StepOutcome
  cause : Option StepCause
deriving DecidableEq, Repr

/-- Noise group outcomes (R98). -/
inductive GroupOutcome
  | pass | fail | incomplete | notMeasured | notCompleted
deriving DecidableEq, Repr

/-- Causes of an INCOMPLETE noise group (R98). -/
inductive GroupCause
  | unsteady | short
deriving DecidableEq, Repr

/-- The level of one order (R115). -/
structure Level where
  order : Nat
  level : Nat
  clamped : Bool
deriving DecidableEq, Repr

/-- The levels and the peak-to-peak of a computed group, present together (R118). -/
structure GroupFigures where
  levels : List Level
  peakToPeak : Nat
deriving DecidableEq, Repr

/-- A noise group result (R118). -/
structure GroupResult where
  group : Nat
  outcome : GroupOutcome
  cause : Option GroupCause
  n : Nat
  discarded : Nat
  figures : Option GroupFigures
deriving DecidableEq, Repr

/-- Leak outcomes (R139). -/
inductive LeakOutcome
  | pass | failLeak | rise | failFill | failGross | incomplete
deriving DecidableEq, Repr

/-- Fault causes of an INCOMPLETE leak result (R139). -/
inductive LeakCause
  | notStandstill | supply | overpressure | sensor | notCompleted
deriving DecidableEq, Repr

/-- The figures of a completed measurement (R135 to R139). -/
structure LeakFigures where
  p1 : Int
  p2 : Int
  t1 : Int
  t2 : Int
  pa2c : Int
  dp : Int
  dt : Nat
  q : Int
  clamped : Bool
deriving DecidableEq, Repr

/-- A leak result (R139). -/
structure LeakResult where
  outcome : LeakOutcome
  cause : Option LeakCause
  figures : Option LeakFigures
deriving DecidableEq, Repr

/-- A check result (R66). -/
structure CheckResult where
  index : Nat
  quantity : StQuantity
  mean : Int
  pass : Bool
deriving DecidableEq, Repr

/-- Remarks (R160). -/
inductive Remark
  | warning (q : StQuantity) (k : FlagKind)
  | alarm (q : StQuantity) (k : FlagKind)
  | gateTimeout
  | gateSkipped
  | engineWait
  | stopTimeout
  | driveFault
deriving DecidableEq, Repr

/-- A test record (R158): in progress, closed, or deposited. -/
structure Record where
  number : Option Nat
  station : Station
  testTag : Word32
  text : List Byte
  variant : Nat
  recipeVariant : Nat
  revision : Nat
  fingerprint : Word16
  transient : Bool
  verification : Bool
  start : LineTime
  endTime : Option LineTime
  verdict : Option Verdict
  cause : Option AbortCause
  steps : List StepEntry
  groups : List GroupResult
  leaks : List LeakResult
  checks : List CheckResult
  remarks : List Remark
  remarksFull : Bool
deriving DecidableEq, Repr

/-! ### Station Sequencer (R3 to R27, R52 to R67) -/

/-- Station states (R3). -/
inductive StationState
  | off | idle | running | stopping | completing | done
deriving DecidableEq, Repr

/-- The recipe reference (R4). -/
inductive RecipeRef
  | table (set : Fin 8) (way : Fin 4)
  | transient
deriving DecidableEq, Repr

/-- The test fields of a station context (R3): present from STT until REL or a restart. `recipe` is the recipe in force
(R4), as the Recipe Table or the private slot gave it when STT was taken (log entry 10). -/
structure TestCtx where
  testTag : Word32
  text : List Byte
  variant : Nat
  ref : RecipeRef
  recipe : Recipe
  verification : Bool
  thresholds : Vector Thresholds 6
  start : LineTime
  cause : Option AbortCause
  number : Option Nat
deriving DecidableEq, Repr

/-- The phase of the step in progress (R55), with what its rule carries from sample to sample: the start of the hold
(R57, R62), the start of the extension (R61), the CHECK's sum and count (R65). In `leak` the phase is the Leak Tester's
(R122). -/
inductive StepPhase
  | ramping
  | inBand (since : LineTime)
  | timed
  | extended (since : LineTime)
  | waiting
  | holding (since : LineTime)
  | averaging (sum : Int) (count : Nat)
  | leak
deriving DecidableEq, Repr

/-- The step being run (R3, R52): index, the step's record in the recipe, phase, start time, and whether its window has
been reported unmeasured (R103). -/
structure StepCtx where
  index : Nat
  spec : StepSpec
  phase : StepPhase
  start : LineTime
  unmeasured : Bool
deriving DecidableEq, Repr

/-- A station context (R3), with the private recipe slot (R4). -/
structure StationCtx where
  state : StationState
  enabled : Bool
  test : Option TestCtx
  step : Option StepCtx
  stopStart : Option LineTime
  record : Option Record
  privateSlot : Option Recipe
deriving DecidableEq, Repr

/-! ### Drive Interface (R68) -/

/-- A station's Drive Interface (R68): setpoint and target in 0.01 rpm, the torque limit in 0.1 N·m. -/
structure Drive where
  setpoint : Int
  target : Int
  rate : Nat
  torqueLimit : Nat
  enable : Bool
  standstill : Nat
deriving DecidableEq, Repr

/-! ### Noise Analyser (R97, R98, R100) -/

/-- Engine states (R97); COMPUTING carries the line time at which the engine entered it (R117). -/
inductive EngineState
  | free
  | accumulating
  | parked
  | computing (since : LineTime)
deriving DecidableEq, Repr

/-- A noise engine (R97), with the revolution it is taking (R104, R105): `revOpen` when it was ACCUMULATING at the opening
index, and the bin samples taken so far. `abandoned` when its holder left RUNNING during the computation (R120). -/
structure Engine where
  state : EngineState
  holder : Option Station
  group : Option Nat
  k : Option Nat
  bins : Vector Int 128
  accepted : Nat
  discarded : Nat
  revOpen : Bool
  samples : Vector (Option Int) 128
  abandoned : Bool
deriving DecidableEq, Repr

/-- Status of a group table line (R98). -/
inductive GroupStatus
  | pending | opened | closed
deriving DecidableEq, Repr

/-- A line of a station's group table (R98). -/
structure GroupLine where
  spec : GroupSpec
  windows : GroupWindows
  status : GroupStatus
  outcome : Option GroupOutcome
  cause : Option GroupCause
  engine : Option EngineId
  entered : Bool
deriving DecidableEq, Repr

/-- A place in the engine wait queue (R100, R102): who waits, for which group, since when, and the wait limit read at the
joining. -/
structure EngineWait where
  station : Station
  group : Nat
  since : LineTime
  limit : Nat
deriving DecidableEq, Repr

/-- The Noise Analyser block: engines, wait queue, group tables, deferred claims (R101). -/
structure Noise where
  engineA : Engine
  engineB : Engine
  queue : List EngineWait
  groups : PerStation (List GroupLine)
  deferred : PerStation (Option Nat)
deriving DecidableEq, Repr

/-! ### Leak Tester (R122) -/

/-- Leak phases (R122). -/
inductive LeakPhase
  | none | standstillWait | waitSupply | fill | settle | measure | vent
deriving DecidableEq, Repr

/-- A station's leak state (R122). `result` is the decided result, so "Decided" (R122) is `result.isSome`. `settleStart`
is kept through MEASURE for the decay pattern (R151). -/
structure LeakCircuit where
  phase : LeakPhase
  fillOpen : Bool
  ventOpen : Bool
  phaseStart : Option LineTime
  settleStart : Option LineTime
  stepIndex : Option Nat
  pCount : Nat
  tCount : Nat
  pStart : Int
  tStart : Int
  pEnd : Int
  tEnd : Int
  result : Option LeakResult
deriving DecidableEq, Repr

/-- The Leak Tester block: the circuits, the supply grant and the supply wait queue. -/
structure Leak where
  circuits : PerStation LeakCircuit
  grant : Option Station
  queue : List Station
deriving DecidableEq, Repr

/-! ### Channel Conditioning (R146) -/

/-- The ACCEL entry (R146): its mode with that mode's parameters. -/
inductive AccelMode
  | live
  | fixed (c : Int)
  | pattern (order amplitude phase : Nat)
deriving DecidableEq, Repr

/-- The LEAK_PRESS entry (R146). -/
inductive PressMode
  | live
  | fixed (c : Int)
  | pattern (rate : Nat)
deriving DecidableEq, Repr

/-- The AIR_TEMP entry (R146). -/
inductive TempMode
  | live
  | fixed (c : Int)
deriving DecidableEq, Repr

/-- The three conditioning entries of a station (R146). -/
structure Conditioning where
  accel : AccelMode
  invert : Bool
  press : PressMode
  temp : TempMode
deriving DecidableEq, Repr

/-! ### Result Store (R165) -/

/-- The Result Store block; `next = none` is EXHAUSTED. -/
structure Store where
  records : List Record
  next : Option Nat
  deposit : List Station
deriving DecidableEq, Repr

/-! ### Counters (R174 to R183) -/

/-- The ten interval counters of a station (R174). -/
structure StationCounters where
  testsStarted : Nat
  passed : Nat
  failed : Nat
  incomplete : Nat
  aborted : Nat
  revsAccepted : Nat
  revsDiscarded : Nat
  encoderFaults : Nat
  fillFaults : Nat
  engineWaitsExpired : Nat
deriving DecidableEq, Repr

/-- The five global interval counters (R175). -/
structure GlobalCounters where
  framesBad : Nat
  noticesLost : Nat
  supplyGrants : Nat
  retiredTests : Nat
  retiredFails : Nat
deriving DecidableEq, Repr

/-- All 65 interval counters. -/
structure CounterSet where
  stations : PerStation StationCounters
  globals : GlobalCounters
deriving DecidableEq, Repr

/-- What took a snapshot (R177). -/
inductive SnapshotCause
  | snp | auto
deriving DecidableEq, Repr

/-- The snapshot set (R177). -/
structure Snapshot where
  counters : CounterSet
  number : Nat
  time : LineTime
  length : LineTime
  cause : Option SnapshotCause
deriving DecidableEq, Repr

/-- The Counters block: live counters, snapshot set, interval start, change-of-state set, and the start of the running
auto-snapshot timer. -/
structure Counters where
  live : CounterSet
  snapshot : Snapshot
  intervalStart : LineTime
  changed : PerStation Bool
  autoStart : Option LineTime
deriving DecidableEq, Repr

/-! ### Link Interface (R187, R194, R195, R197) -/

/-- Receive states (R187). -/
inductive RecvState
  | hunting | receiving
deriving DecidableEq, Repr

/-- What a notice says (R195). NFL's scope is `none` for GLOBAL. -/
inductive NoticeBody
  | nst (st : Station) (state : StationState) (cause : Option AbortCause) (deposit : Option (Verdict × Nat))
  | nfl (scope : Option Station) (q : Quantity) (k : FlagKind) (held : Int) (time : LineTime)
  | nrt (variant revision tests fails : Nat)
deriving DecidableEq, Repr

/-- A notice with its LOST mark (R194). -/
structure Notice where
  lost : Bool
  body : NoticeBody
deriving DecidableEq, Repr

/-- A reply: kind, tag and payload (R192). -/
structure Reply where
  kind : Byte
  tag : Byte
  payload : List Byte
deriving DecidableEq, Repr

/-- The transmitter (R187): FREE, or busy with the reply in the slot or with one notice. -/
inductive Transmitter
  | free
  | reply
  | notice (n : Notice)
deriving DecidableEq, Repr

/-- The Link Interface block. `frame` holds the bytes after the start byte; `gapStart` is the arrival of the most recent
byte of the frame (R189); a reply in `slot` is sending when the transmitter is `reply` and waiting otherwise;
`restartPending` from the arrival of RST to the restart (R25). -/
structure Link where
  recv : RecvState
  frame : List Byte
  expected : Option Nat
  gapStart : Option LineTime
  slot : Option Reply
  tx : Transmitter
  queue : List Notice
  lostPending : Bool
  speed : LinkSpeed
  restartPending : Bool
deriving DecidableEq, Repr

/-- Line mode (R156). -/
inductive LineMode
  | production | verify
deriving DecidableEq, Repr

/-- The line configuration (R197). -/
structure LineConfig where
  mode : LineMode
  patm : Nat
  stopRate : Nat
  standstill : Nat
  waitLimit : Nat
  autoInterval : Nat
deriving DecidableEq, Repr

/-! ### The whole part -/

/-- Line time (R2), with the microseconds within the millisecond that the latest event has reached (R77). -/
structure Clock where
  now : LineTime
  us : Nat
deriving DecidableEq, Repr

/-- The input pins whose level the part reads later (R16, R73). -/
structure Pins where
  estop : Bool
  driveFault : PerStation Bool
deriving DecidableEq, Repr

/-- The AT-6, and the commands that are waiting. -/
structure State where
  clock : Clock
  pins : Pins
  link : Link
  config : LineConfig
  seq : PerStation StationCtx
  drive : PerStation Drive
  enc : PerStation Encoder
  mon : Monitor
  table : RecipeTable
  noise : Noise
  leak : Leak
  cond : PerStation Conditioning
  store : Store
  counters : Counters
  pending : List Instr
deriving DecidableEq, Repr

/-- The faults of the part: none. The manual describes no event that stops the AT-6, and gives every command an effect or
a refusing reply, so this closed type has no constructor and no meaning raises one. -/
inductive Fault
deriving DecidableEq, Repr

/-- Why a command has no outcome. -/
inductive Refusal
  /-- Raised by an arm of `exec` for a command without a meaning, by its mnemonic; no arm raises it in this model.
  Safe: nothing can be proved about such a command's effect. -/
  | notModelled (mnemonic : String)
deriving DecidableEq, Repr

/-! ### Power-on values -/

/-- No kind set. -/
def FlagSet.none : FlagSet := ⟨false, false, false, false, false⟩

/-- A quantity before its first sample (R80, R95). -/
def QuantityMon.initial : QuantityMon := ⟨0, false, 0, .none, .none⟩

/-- The global threshold table's defaults (R82). -/
def defaultThresholds : ThresholdTable :=
  #v[⟨-4000, -4000, 11000, 13000⟩,
     ⟨-4000, -4000, 4000, 4000⟩,
     ⟨-40000, -40000, 40000, 40000⟩,
     ⟨0, 0, 5000, 15000⟩,
     ⟨-50000, -50000, 220000, 240000⟩,
     ⟨-2000, -2000, 8000, 8000⟩,
     ⟨300000, 400000, 1000000, 1000000⟩]

/-- The notice mask table's defaults (R91): warnings masked, alarms and losses not. -/
def defaultMasks : MaskTable := Vector.replicate 7 ⟨false, true, true, false, false⟩

/-- The Monitor at power-on reset (R95). -/
def Monitor.initial : Monitor :=
  { stations := Vector.replicate 6 (Vector.replicate 6 .initial)
    supply := .initial
    vib := Vector.replicate 6 ⟨0, false⟩
    globals := defaultThresholds
    masks := defaultMasks }

/-- A station context at power-on reset (R27). -/
def StationCtx.initial : StationCtx := ⟨.idle, true, none, none, none, none, none⟩

/-- A Drive Interface with everything off (R75). -/
def Drive.off : Drive := ⟨0, 0, 0, 0, false, 0⟩

/-- An encoder that has given no index event (R77, R149). -/
def Encoder.initial : Encoder := ⟨none, none, 0, 0, 0⟩

/-- An engine at power-on reset (R121). -/
def Engine.initial : Engine :=
  ⟨.free, none, none, none, Vector.replicate 128 0, 0, 0, false, Vector.replicate 128 none, false⟩

/-- The Noise Analyser at power-on reset (R121). -/
def Noise.initial : Noise :=
  ⟨.initial, .initial, [], Vector.replicate 6 [], Vector.replicate 6 none⟩

/-- A leak circuit that serves no step (R123, R145). -/
def LeakCircuit.rest : LeakCircuit :=
  ⟨.none, false, true, none, none, none, 0, 0, 0, 0, 0, 0, none⟩

/-- The Leak Tester at power-on reset (R145). -/
def Leak.initial : Leak := ⟨Vector.replicate 6 .rest, none, []⟩

/-- A station's conditioning entries at power-on reset (R157). -/
def Conditioning.live : Conditioning := ⟨.live, false, .live, .live⟩

/-- The Result Store at power-on reset (R172). -/
def Store.initial : Store := ⟨[], some 1, []⟩

/-- Every interval counter 0. -/
def CounterSet.zero : CounterSet :=
  ⟨Vector.replicate 6 ⟨0, 0, 0, 0, 0, 0, 0, 0, 0, 0⟩, ⟨0, 0, 0, 0, 0⟩⟩

/-- The Counters at power-on reset (R185). -/
def Counters.initial : Counters :=
  ⟨.zero, ⟨.zero, 0, 0, 0, none⟩, 0, Vector.replicate 6 false, none⟩

/-- The Link Interface at power-on reset (R199). -/
def Link.initial (strap : LinkSpeed) : Link :=
  ⟨.hunting, [], none, none, none, .free, [], false, strap, false⟩

/-- The line configuration's power-on values (R197). -/
def LineConfig.initial : LineConfig := ⟨.production, 101325, 1000, 5, 60000, 0⟩

/-- The part at power-on reset with these levels on its pins (R27, R50, R75, R95, R121, R145, R157, R172, R185, R199). -/
def State.powerOn (pins : PowerOnPins) : State :=
  { clock := ⟨0, 0⟩
    pins := ⟨pins.estop, pins.driveFault⟩
    link := .initial pins.strap
    config := .initial
    seq := Vector.replicate 6 .initial
    drive := Vector.replicate 6 .off
    enc := Vector.replicate 6 .initial
    mon := .initial
    table := Vector.replicate 8 (Vector.replicate 4 none)
    noise := .initial
    leak := .initial
    cond := Vector.replicate 6 .live
    store := .initial
    counters := .initial
    pending := [] }

/-- The part right after power-on reset. The manual gives no level for the input pins: they are taken inactive, and the
strap at 115,200 baud (log entry 9, DESIGN CHOICE). -/
def State.reset : State :=
  .powerOn ⟨false, .baud115200, Vector.replicate 6 false⟩

end Sys2Proof.Machine
end

