-- ==== Sys2Proof/Machine/Operands.lean ====
section
/-! DEFINITION. The arithmetic conventions of R1, line-time differences (R2), the CRC-16 of R36 and R190, the sine table
of R113, and the byte forms of a payload's integers (R202). -/

namespace Sys2Proof.Machine

open Sys2Proof

/-! ### Rounding, saturation, clamping (R1) -/

/-- `n ÷ d` rounded to nearest, an exact half away from zero (R1). -/
def roundDiv (n : Int) (d : Nat) : Int :=
  let m : Nat := (2 * n.natAbs + d) / (2 * d)
  if n < 0 then -(m : Int) else m

/-- The saturating sum of two counter values (R1, R176). -/
def satAdd (a b : Nat) : Nat := min (a + b) 65535

/-- A value clamped into a range (R1). -/
def clampInt (lo hi x : Int) : Int := max lo (min hi x)

/-- A value clamped into a range of naturals (R197). -/
def clampNat (lo hi x : Nat) : Nat := max lo (min hi x)

/-- `bits` binary digits of a square root, from the highest: `r` is the root found so far. -/
def isqrtStep (n : Nat) : (bits : Nat) → (r : Nat) → Nat
  | 0, r => r
  | b + 1, r =>
    let c := r + 2 ^ b
    isqrtStep n b (if c * c ≤ n then c else r)

/-- The floor of the square root (R114). -/
def isqrt (n : Nat) : Nat := isqrtStep n (n.log2 / 2 + 1) 0

/-! ### Line time (R2) -/

/-- The ms from one line time to a later one, modulo 2^32 (R2). -/
def elapsed (since now : LineTime) : Nat := (now - since).toNat

/-- The µs from one stamp to a later one, across the wrap of line time (R2, R77). -/
def Stamp.usTo (a b : Stamp) : Nat := elapsed a.ms b.ms * 1000 + b.us - a.us

/-! ### CRC-16 (R36, R190) -/

/-- One bit of the CRC register: generator 0x1021, most significant bit first. -/
def crcBit (c : Word16) : Word16 := if c.msb then (c <<< 1) ^^^ 0x1021#16 else c <<< 1

/-- One byte into the CRC register. -/
def crcByte (c : Word16) (b : Byte) : Word16 :=
  crcBit (crcBit (crcBit (crcBit (crcBit (crcBit (crcBit (crcBit (c ^^^ (b.setWidth 16 <<< 8)))))))))

/-- The CRC-16 of a byte string, initial value 0xFFFF, neither input nor result reflected. -/
def crc16 (bytes : List Byte) : Word16 := bytes.foldl crcByte 0xFFFF#16

/-! ### The sine table (R113) -/

/-- The first quarter of the sine table: 32,767 × sin(2πk ÷ 128) rounded to nearest, for k from 0 to 32. -/
def quarterSine : List Int :=
  [0, 1608, 3212, 4808, 6393, 7962, 9512, 11039, 12539, 14010, 15446, 16846, 18204, 19519, 20787, 22005, 23170,
   24279, 25329, 26319, 27245, 28105, 28898, 29621, 30273, 30852, 31356, 31785, 32137, 32412, 32609, 32728, 32767]

/-- The sine table S (R113), by its symmetries S[64 − k] = S[k] and S[k + 64] = −S[k]; the index is taken modulo 128. -/
def sine (i : Nat) : Int :=
  let k := i % 128
  if k ≤ 32 then quarterSine.getD k 0
  else if k ≤ 64 then quarterSine.getD (64 - k) 0
  else if k ≤ 96 then -(quarterSine.getD (k - 64) 0)
  else -(quarterSine.getD (128 - k) 0)

/-- The cosine table C (R113). -/
def cosine (i : Nat) : Int := sine (i + 32)

/-! ### Integers in a payload (R202): least significant byte first -/

/-- The byte at an offset of a payload; 0 beyond its end. -/
def byteAt (p : List Byte) (i : Nat) : Byte := p.getD i 0

/-- A yes-or-no or code byte as a number. -/
def natAt (p : List Byte) (i : Nat) : Nat := (byteAt p i).toNat

/-- A uint16 at an offset. -/
def u16At (p : List Byte) (i : Nat) : Word16 := byteAt p (i + 1) ++ byteAt p i

/-- A uint32 or int32 at an offset. -/
def u32At (p : List Byte) (i : Nat) : Word32 := u16At p (i + 2) ++ u16At p i

/-- The two bytes of a 16-bit field. -/
def le16 (x : Word16) : List Byte := [x.extractLsb' 0 8, x.extractLsb' 8 8]

/-- The four bytes of a 32-bit field. -/
def le32 (x : Word32) : List Byte := le16 (x.extractLsb' 0 16) ++ le16 (x.extractLsb' 16 16)

/-- A number as a uint8. -/
def byteOf (n : Nat) : Byte := BitVec.ofNat 8 n

/-- A number as a uint16. -/
def nat16 (n : Nat) : List Byte := le16 (BitVec.ofNat 16 n)

/-- A number as a uint32. -/
def nat32 (n : Nat) : List Byte := le32 (BitVec.ofNat 32 n)

/-- A number as an int16. -/
def int16 (x : Int) : List Byte := le16 (BitVec.ofInt 16 x)

/-- A number as an int32. -/
def int32 (x : Int) : List Byte := le32 (BitVec.ofInt 32 x)

/-- A yes-or-no field. -/
def yesNo (b : Bool) : Byte := if b then 1 else 0

end Sys2Proof.Machine
end

