-- ==== Sys2Proof/Machine/Flags.lean ====
section
/-! DEFINITION. The Monitor's flag computation: flag sets, thresholds and their resolution, and what one sample does to a
quantity (R76 to R87). Nothing here reads or writes the rest of the part. -/

namespace Sys2Proof

open Sys2Proof.Machine

/-! ### Quantities (R76) -/

/-- The place of a station quantity in R76's table. -/
def StQuantity.idx : StQuantity → Fin 6
  | .oilTemp => 0
  | .speed => 1
  | .torque => 2
  | .vib => 3
  | .leakPress => 4
  | .airTemp => 5

/-- The six station quantities in the order of R76's table. -/
def allStQuantities : List StQuantity := [.oilTemp, .speed, .torque, .vib, .leakPress, .airTemp]

/-- The place of a quantity in R76's table, SUPPLY last. -/
def Quantity.idx : Quantity → Fin 7
  | .station q => q.idx.castSucc
  | .supply => 6

/-- The range of a station quantity (R29, R76). -/
def StQuantity.range : StQuantity → Int × Int
  | .oilTemp => (-4000, 15000)
  | .speed => (-4000, 4000)
  | .torque => (-40000, 40000)
  | .vib => (0, 32767)
  | .leakPress => (-50000, 250000)
  | .airTemp => (-2000, 8000)

/-- The range of a quantity (R76). -/
def Quantity.range : Quantity → Int × Int
  | .station q => q.range
  | .supply => (0, 1000000)

/-- The value lies in the range of the quantity. -/
def Quantity.inRange (q : Quantity) (x : Int) : Bool := q.range.1 ≤ x && x ≤ q.range.2

/-- The value clamped into the range of its quantity (R79). -/
def Quantity.clamp (q : Quantity) (x : Int) : Int := clampInt q.range.1 q.range.2 x

end Sys2Proof

namespace Sys2Proof.Machine

open Sys2Proof

/-! ### Flag sets -/

/-- Every kind set. -/
def FlagSet.all : FlagSet := ⟨true, true, true, true, true⟩

/-- Whether a kind is set. -/
def FlagSet.has (f : FlagSet) : FlagKind → Bool
  | .highAlarm => f.highAlarm
  | .highWarn => f.highWarn
  | .lowWarn => f.lowWarn
  | .lowAlarm => f.lowAlarm
  | .lost => f.lost

/-- The set with one kind put to `b`. -/
def FlagSet.put (f : FlagSet) (k : FlagKind) (b : Bool) : FlagSet :=
  match k with
  | .highAlarm => { f with highAlarm := b }
  | .highWarn => { f with highWarn := b }
  | .lowWarn => { f with lowWarn := b }
  | .lowAlarm => { f with lowAlarm := b }
  | .lost => { f with lost := b }

/-- The kinds set in either set. -/
def FlagSet.union (f g : FlagSet) : FlagSet :=
  ⟨f.highAlarm || g.highAlarm, f.highWarn || g.highWarn, f.lowWarn || g.lowWarn, f.lowAlarm || g.lowAlarm,
    f.lost || g.lost⟩

/-- The order in which kinds latching at one sample are handed on (R87). -/
def latchOrder : List FlagKind := [.highAlarm, .lowAlarm, .lost, .highWarn, .lowWarn]

/-- HIGH_ALARM, LOW_ALARM and LOST are alarms (R88); the other two are warnings (R89). -/
def FlagKind.isAlarm : FlagKind → Bool
  | .highAlarm | .lowAlarm | .lost => true
  | .highWarn | .lowWarn => false

/-! ### Thresholds (R82 to R84) -/

/-- low alarm ≤ low warning ≤ high warning ≤ high alarm. -/
def Thresholds.ordered (t : Thresholds) : Bool :=
  t.lowAlarm ≤ t.lowWarn && t.lowWarn ≤ t.highWarn && t.highWarn ≤ t.highAlarm

/-- Every threshold lies in its quantity's range. -/
def Thresholds.inRange (t : Thresholds) (q : Quantity) : Bool :=
  q.inRange t.lowAlarm && q.inRange t.lowWarn && q.inRange t.highWarn && q.inRange t.highAlarm

/-- One quantity's thresholds resolved from the global ones and its override (R84): the lower high, the higher low. -/
def Thresholds.resolve (g : Thresholds) (o : Override) : Thresholds :=
  { lowAlarm := match o.lowAlarm with | some x => max g.lowAlarm x | none => g.lowAlarm
    lowWarn := match o.lowWarn with | some x => max g.lowWarn x | none => g.lowWarn
    highWarn := match o.highWarn with | some x => min g.highWarn x | none => g.highWarn
    highAlarm := match o.highAlarm with | some x => min g.highAlarm x | none => g.highAlarm }

/-- The effective thresholds of one station quantity (R84). -/
def effectiveOf (globals : ThresholdTable) (overrides : List Override) (q : StQuantity) : Thresholds :=
  let g := globals[(Quantity.station q).idx]
  match overrides.find? (fun o => o.quantity == q) with
  | some o => g.resolve o
  | none => g

/-- The effective thresholds of the six station quantities (R84). -/
def effective (globals : ThresholdTable) (overrides : List Override) : Vector Thresholds 6 :=
  #v[effectiveOf globals overrides .oilTemp, effectiveOf globals overrides .speed,
     effectiveOf globals overrides .torque, effectiveOf globals overrides .vib,
     effectiveOf globals overrides .leakPress, effectiveOf globals overrides .airTemp]

/-- The first quantity, in R76's order, whose thresholds are out of order (R84). -/
def firstConflict (t : Vector Thresholds 6) : Option StQuantity :=
  allStQuantities.find? (fun q => !t[q.idx].ordered)

/-! ### One sample of one quantity (R80 to R86) -/

/-- The current conditions of a held value and an invalid count against thresholds (R85). -/
def conditions (held : Int) (invalid : Nat) (t : Thresholds) : FlagSet :=
  { highAlarm := held > t.highAlarm
    highWarn := held > t.highWarn
    lowWarn := held < t.lowWarn
    lowAlarm := held < t.lowAlarm
    lost := 10 ≤ invalid }

/-- The kinds that latch at a sample (R86), in the order they are handed on (R87): current, watched, flag clear. -/
def newLatches (watched : Bool) (current latched : FlagSet) : List FlagKind :=
  if watched then latchOrder.filter (fun k => current.has k && !latched.has k) else []

/-- What a sample does to its quantity: held value and count (R80), current conditions (R85), latched flags (R86).
`v` is the clamped value of a valid sample, `none` for an invalid one. -/
def QuantityMon.sample (m : QuantityMon) (v : Option Int) (t : Thresholds) (watched : Bool) : QuantityMon :=
  let held := v.getD m.held
  let invalid := match v with | some _ => 0 | none => satAdd m.invalid 1
  let current := conditions held invalid t
  { held := held
    lastValid := v.isSome
    invalid := invalid
    current := current
    latched := if watched then m.latched.union current else m.latched }

end Sys2Proof.Machine
end

