-- ==== Sys2Proof/Machine/Formats.lean ====
section
/-! DEFINITION. Frame and record formats (R202 to R209): the one-byte codes, the layouts of replies, records and notices,
the admitted payload lengths, and the frame that carries a request. -/

namespace Sys2Proof

/-- The code of a station quantity (R203). -/
def StQuantity.code : StQuantity → Byte
  | .oilTemp => 1
  | .speed => 2
  | .torque => 3
  | .vib => 4
  | .leakPress => 5
  | .airTemp => 6

/-- The code of a quantity (R203). -/
def Quantity.code : Quantity → Byte
  | .station q => q.code
  | .supply => 7

end Sys2Proof

namespace Sys2Proof.Machine

open Sys2Proof

/-! ### Codes (R203) -/

/-- The status codes (R203). -/
inductive Status
  | ok | unknownKind | badLength | badValue | badStation | state | disabled | estopActive | identityCheck
  | recipeMissing | recipeInvalid | variantMismatch | recipeInUse | setFull | mode | substituted | limitsConflict
  | noGate | empty | notOldest | notFound
deriving DecidableEq, Repr

/-- A status's code. -/
def Status.code : Status → Byte
  | .ok => 0x00
  | .unknownKind => 0x01
  | .badLength => 0x02
  | .badValue => 0x03
  | .badStation => 0x04
  | .state => 0x05
  | .disabled => 0x06
  | .estopActive => 0x07
  | .identityCheck => 0x08
  | .recipeMissing => 0x09
  | .recipeInvalid => 0x0A
  | .variantMismatch => 0x0B
  | .recipeInUse => 0x0C
  | .setFull => 0x0D
  | .mode => 0x0E
  | .substituted => 0x0F
  | .limitsConflict => 0x10
  | .noGate => 0x11
  | .empty => 0x12
  | .notOldest => 0x13
  | .notFound => 0x14

/-- A station's number on the line (R1). -/
def stationCode (st : Station) : Byte := byteOf (st.val + 1)

/-- The station a byte numbers, 1 to 6. -/
def stationOf (b : Byte) : Option Station :=
  if h : 1 ≤ b.toNat ∧ b.toNat ≤ 6 then some ⟨b.toNat - 1, by omega⟩ else none

def StationState.code : StationState → Byte
  | .off => 0
  | .idle => 1
  | .running => 2
  | .stopping => 3
  | .completing => 4
  | .done => 5

def StepSpec.kind : StepSpec → StepKind
  | .ramp .. => .ramp
  | .dwell .. => .dwell
  | .gate .. => .gate
  | .check .. => .check
  | .leak => .leak

def StepKind.code : StepKind → Byte
  | .ramp => 1
  | .dwell => 2
  | .gate => 3
  | .check => 4
  | .leak => 5

def LeakPhase.code : LeakPhase → Byte
  | .none => 0
  | .standstillWait => 8
  | .waitSupply => 9
  | .fill => 10
  | .settle => 11
  | .measure => 12
  | .vent => 13

/-- The step phase's code; in a LEAK step, the leak phase's (R55). -/
def StepPhase.code (p : StepPhase) (leak : LeakPhase) : Byte :=
  match p with
  | .ramping => 1
  | .inBand _ => 2
  | .timed => 3
  | .extended _ => 4
  | .waiting => 5
  | .holding _ => 6
  | .averaging _ _ => 7
  | .leak => leak.code

def StepOutcome.code : StepOutcome → Byte
  | .done => 1
  | .failed => 2
  | .timedOut => 3
  | .skipped => 4

def stepCauseCode : Option StepCause → Byte
  | none => 0
  | some .rampTimeout => 1
  | some .gateTimeout => 2
  | some .extendTimeout => 3
  | some .cutShort => 4

def verdictCode : Option Verdict → Byte
  | none => 0
  | some .pass => 1
  | some .fail => 2
  | some .incomplete => 3
  | some .aborted => 4

def GroupOutcome.code : GroupOutcome → Byte
  | .pass => 1
  | .fail => 2
  | .incomplete => 3
  | .notMeasured => 4
  | .notCompleted => 5

def groupCauseCode : Option GroupCause → Byte
  | none => 0
  | some .unsteady => 1
  | some .short => 2

def LeakOutcome.code : LeakOutcome → Byte
  | .pass => 1
  | .failLeak => 2
  | .rise => 3
  | .failFill => 4
  | .failGross => 5
  | .incomplete => 6

def leakCauseCode : Option LeakCause → Byte
  | none => 0
  | some .notStandstill => 1
  | some .supply => 2
  | some .overpressure => 3
  | some .sensor => 4
  | some .notCompleted => 5

/-- The station quantity of a code, 1 to 6. -/
def stQuantityOf (b : Byte) : Option StQuantity :=
  match b.toNat with
  | 1 => some .oilTemp
  | 2 => some .speed
  | 3 => some .torque
  | 4 => some .vib
  | 5 => some .leakPress
  | 6 => some .airTemp
  | _ => none

/-- The quantity of a code, 1 to 7. -/
def quantityOf (b : Byte) : Option Quantity :=
  if b = 7 then some .supply else (stQuantityOf b).map .station

def FlagKind.code : FlagKind → Byte
  | .highAlarm => 1
  | .highWarn => 2
  | .lowWarn => 3
  | .lowAlarm => 4
  | .lost => 5

/-- The flag kind of a code, 1 to 5. -/
def flagKindOf (b : Byte) : Option FlagKind :=
  match b.toNat with
  | 1 => some .highAlarm
  | 2 => some .highWarn
  | 3 => some .lowWarn
  | 4 => some .lowAlarm
  | 5 => some .lost
  | _ => none

/-- The abort cause with its quantity and kind, three bytes (R207, R208). -/
def causeBytes : Option AbortCause → List Byte
  | none => [0, 0, 0]
  | some .hostAbort => [1, 0, 0]
  | some (.monitorAlarm q k) => [2, q.code, k.code]
  | some .driveFault => [3, 0, 0]
  | some .estop => [4, 0, 0]

def RecipeClass.code : RecipeClass → Byte
  | .production => 0
  | .master => 1

def LineMode.code : LineMode → Byte
  | .production => 0
  | .verify => 1

/-- An engine held, or none. -/
def engineCode : Option EngineId → Byte
  | none => 0
  | some .a => 1
  | some .b => 2

def snapshotCauseCode : Option SnapshotCause → Byte
  | none => 0
  | some .snp => 1
  | some .auto => 2

/-- A set of flag kinds as one byte: bit k − 1 stands for the kind of code k (R203). -/
def FlagSet.code (f : FlagSet) : Byte :=
  byteOf (f.highAlarm.toNat + 2 * f.highWarn.toNat + 4 * f.lowWarn.toNat + 8 * f.lowAlarm.toNat + 16 * f.lost.toNat)

/-- A set of stations as one byte: bit s − 1 stands for station s (R203). -/
def stationSetCode (v : PerStation Bool) : Byte :=
  byteOf (v[0].toNat + 2 * v[1].toNat + 4 * v[2].toNat + 8 * v[3].toNat + 16 * v[4].toNat + 32 * v[5].toNat)

/-- The scope of RDM and CLF (R203). -/
inductive Scope
  | global
  | station (st : Station)
deriving DecidableEq, Repr

/-- The scope a byte names, or the status that refuses it (R203). -/
def scopeOf (b : Byte) : Except Status Scope :=
  if b = 0 then .ok .global
  else match stationOf b with
    | some st => .ok (.station st)
    | none => if b.toNat ≤ 127 then .error .badStation else .error .badValue

def Scope.code : Scope → Byte
  | .global => 0
  | .station st => stationCode st

/-! ### Frames (R202) -/

/-- A frame's bytes: start byte, length, kind, tag, payload, CRC high byte first. -/
def frameBytes (kind tag : Byte) (payload : List Byte) : List Byte :=
  let body := nat16 (2 + payload.length) ++ kind :: tag :: payload
  let crc := crc16 body
  0xA5 :: (body ++ [crc.extractLsb' 8 8, crc.extractLsb' 0 8])

/-! ### Requests (R204 to R206) -/

/-- The length of a recipe body by its header (R205): 9 + 16S + 33G + 30L + 18O. `none` when it is too short for the
counts. -/
def bodyLength (body : List Byte) : Option Nat :=
  if body.length < 9 then none
  else some (9 + 16 * natAt body 5 + 33 * natAt body 6 + (if byteAt body 7 = 0 then 0 else 30) + 18 * natAt body 8)

/-- The length of a recipe body agrees with its header (R204). -/
def bodyFits (body : List Byte) : Bool := bodyLength body = some body.length

/-- What follows an STT's text has a length its source admits (R204, R206): the body's own with INLINE, none with any other
source byte. -/
def sttTailFits (source : Byte) (tail : List Byte) : Bool := if source = 1 then bodyFits tail else tail.isEmpty

/-- The payload's length is one its kind admits (R204). -/
def lengthAdmitted (kind : Byte) (p : List Byte) : Bool :=
  match kind.toNat with
  | 0x02 => p.length = 15
  | 0x10 =>
    decide (10 ≤ p.length) &&
      (let n := natAt p 9
       decide (10 + n ≤ p.length) && sttTailFits (byteAt p 5) (p.drop (10 + n)))
  | 0x11 | 0x12 | 0x14 | 0x16 | 0x32 => p.length = 1
  | 0x13 | 0x21 | 0x24 => p.length = 2
  | 0x20 => bodyFits p
  | 0x22 => p.length = 3
  | 0x30 => decide (1 ≤ p.length) && p.length = 1 + 17 * natAt p 0
  | 0x31 => decide (1 ≤ p.length) && p.length = 1 + 3 * natAt p 0
  | 0x33 => decide (2 ≤ p.length) && p.length = 2 + 2 * natAt p 1
  | 0x38 => p.length = 14
  | 0x40 => p.length = 5
  | 0x41 => p.length = 4
  | _ => p.length = 0

/-- STT's fields as they stand in its payload (R206). -/
def sttOf (p : List Byte) : SttFields :=
  let n := natAt p 9
  { station := byteAt p 0, testTag := u32At p 1, source := byteAt p 5, variant := u16At p 6, checkByte := byteAt p 8
    text := (p.drop 10).take n, body := p.drop (10 + n) }

/-- CFG's fields as they stand in its payload (R206). -/
def cfgOf (p : List Byte) : CfgFields :=
  { mode := byteAt p 0, patm := u32At p 1, stopRate := u16At p 5, standstill := u16At p 7, waitLimit := u32At p 9
    autoInterval := u16At p 13 }

/-- CHN's fields as they stand in its payload (R204). -/
def chnOf (p : List Byte) : ChnFields :=
  { station := byteAt p 0, channel := byteAt p 1, mode := byteAt p 2, invert := byteAt p 3, constant := u32At p 4
    toneOrder := byteAt p 8, toneAmplitude := u16At p 9, tonePhase := byteAt p 11, decayRate := u16At p 12 }

/-- `c` LIM entries from a payload (R204). -/
def limEntriesOf : (c : Nat) → List Byte → List LimEntry
  | 0, _ => []
  | c + 1, p => ⟨byteAt p 0, u32At p 1, u32At p 5, u32At p 9, u32At p 13⟩ :: limEntriesOf c (p.drop 17)

/-- `c` MSK settings from a payload (R204). -/
def mskSettingsOf : (c : Nat) → List Byte → List MskSetting
  | 0, _ => []
  | c + 1, p => ⟨byteAt p 0, byteAt p 1, byteAt p 2⟩ :: mskSettingsOf c (p.drop 3)

/-- `c` CLF pairs from a payload (R204). -/
def clfPairsOf : (c : Nat) → List Byte → List FlagPair
  | 0, _ => []
  | c + 1, p => ⟨byteAt p 0, byteAt p 1⟩ :: clfPairsOf c (p.drop 2)

/-- The request that a kind's payload carries, as a command; `none` for a kind of no request (R204). -/
def requestOf (kind tag : Byte) (p : List Byte) : Option Instr :=
  match kind.toNat with
  | 0x01 => some (.idn tag)
  | 0x02 => some (.cfg tag (cfgOf p))
  | 0x10 => some (.stt tag (sttOf p))
  | 0x11 => some (.abt tag (byteAt p 0))
  | 0x12 => some (.rel tag (byteAt p 0))
  | 0x13 => some (.ena tag (byteAt p 0) (byteAt p 1))
  | 0x14 => some (.rds tag (byteAt p 0))
  | 0x15 => some (.rst tag)
  | 0x16 => some (.skg tag (byteAt p 0))
  | 0x20 => some (.ldr tag p)
  | 0x21 => some (.drp tag (u16At p 0))
  | 0x22 => some (.pin tag (u16At p 0) (byteAt p 2))
  | 0x23 => some (.tbl tag)
  | 0x24 => some (.rrs tag (u16At p 0))
  | 0x30 => some (.lim tag (limEntriesOf (natAt p 0) (p.drop 1)))
  | 0x31 => some (.msk tag (mskSettingsOf (natAt p 0) (p.drop 1)))
  | 0x32 => some (.rdm tag (byteAt p 0))
  | 0x33 => some (.clf tag (byteAt p 0) (clfPairsOf (natAt p 1) (p.drop 2)))
  | 0x38 => some (.chn tag (chnOf p))
  | 0x40 => some (.rdr tag (byteAt p 0) (u32At p 1))
  | 0x41 => some (.rlr tag (u32At p 0))
  | 0x48 => some (.snp tag)
  | 0x49 => some (.rdn tag)
  | 0x4A => some (.pol tag)
  | _ => none

/-- A LIM entry's bytes (R204). -/
def limEntryBytes (e : LimEntry) : List Byte :=
  e.quantity :: (le32 e.lowAlarm ++ le32 e.lowWarn ++ le32 e.highWarn ++ le32 e.highAlarm)

/-- The kind, tag and payload of the frame that carries a request (R204, R206); `none` for an event. -/
def requestParts : Instr → Option (Byte × Byte × List Byte)
  | .idn tag => some (0x01, tag, [])
  | .cfg tag f =>
    some (0x02, tag, f.mode :: (le32 f.patm ++ le16 f.stopRate ++ le16 f.standstill ++ le32 f.waitLimit
      ++ le16 f.autoInterval))
  | .stt tag f =>
    some (0x10, tag, f.station :: (le32 f.testTag ++ f.source :: (le16 f.variant
      ++ f.checkByte :: byteOf f.text.length :: (f.text ++ f.body))))
  | .abt tag st => some (0x11, tag, [st])
  | .rel tag st => some (0x12, tag, [st])
  | .ena tag st en => some (0x13, tag, [st, en])
  | .rds tag st => some (0x14, tag, [st])
  | .rst tag => some (0x15, tag, [])
  | .skg tag st => some (0x16, tag, [st])
  | .ldr tag body => some (0x20, tag, body)
  | .drp tag v => some (0x21, tag, le16 v)
  | .pin tag v p => some (0x22, tag, le16 v ++ [p])
  | .tbl tag => some (0x23, tag, [])
  | .rrs tag v => some (0x24, tag, le16 v)
  | .lim tag es => some (0x30, tag, byteOf es.length :: es.flatMap limEntryBytes)
  | .msk tag ss => some (0x31, tag, byteOf ss.length :: ss.flatMap (fun x => [x.quantity, x.kind, x.mask]))
  | .rdm tag sc => some (0x32, tag, [sc])
  | .clf tag sc ps => some (0x33, tag, sc :: byteOf ps.length :: ps.flatMap (fun x => [x.quantity, x.kind]))
  | .chn tag f =>
    some (0x38, tag, f.station :: f.channel :: f.mode :: f.invert :: (le32 f.constant
      ++ f.toneOrder :: (le16 f.toneAmplitude ++ f.tonePhase :: le16 f.decayRate)))
  | .rdr tag sel n => some (0x40, tag, sel :: le32 n)
  | .rlr tag n => some (0x41, tag, le32 n)
  | .snp tag => some (0x48, tag, [])
  | .rdn tag => some (0x49, tag, [])
  | .pol tag => some (0x4A, tag, [])
  | .powerOnReset _ | .restart | .emergencyStop _ | .emergencyStopRelease | .driveFault _ _ | .monitorSample _
  | .quantityLost _ | .checkAveraged _ | .standstillConfirmed _ _ | .measureEnd _ | .driveUpdate _
  | .encoderIndex _ _ _ | .kReached _ _ _ | .groupUnsteady _ _ _ | .engineCompletion _ | .engineGrant _
  | .deferredClaim _ | .engineWaitExpiry _ | .rampTimeout _ | .dwellDurationExpiry _ | .extendTimeout _
  | .gateTimeout _ | .stopTimeout _ | .standstillTimerExpiry _ | .fillTimerExpiry _ | .settleTimerExpiry _
  | .ventTimerExpiry _ | .supplyGrant | .deposit | .autoSnapshotExpiry | .gapTimerExpiry | .lengthOutOfRange _
  | .crcMismatch _ | .frameDiscardedBusy _ | .unknownKind _ | .transmitEnd | .transmitStart | .byteArrival _
  | .encoderLine _ _ _ => none

/-- The bytes on the line of the frame that carries a request. -/
def requestFrame (c : Instr) : Option (List Byte) :=
  (requestParts c).map (fun x => frameBytes x.1 x.2.1 x.2.2)

/-! ### Replies' parts (R207) -/

/-- A text: its count, then its characters (R202). -/
def textBytes (t : List Byte) : List Byte := byteOf t.length :: t

/-- The 15 bytes of CFG (R206). -/
def LineConfig.bytes (c : LineConfig) : List Byte :=
  c.mode.code :: (nat32 c.patm ++ nat16 c.stopRate ++ nat16 c.standstill ++ nat32 c.waitLimit ++ nat16 c.autoInterval)

/-- Four int32 thresholds (R204). -/
def Thresholds.bytes (t : Thresholds) : List Byte :=
  int32 t.lowAlarm ++ int32 t.lowWarn ++ int32 t.highWarn ++ int32 t.highAlarm

/-- The seven quantities in order. -/
def allQuantities : List Quantity := allStQuantities.map .station ++ [.supply]

/-- The global table as seven 17-byte LIM entries in quantity order (R207). -/
def globalTableBytes (t : ThresholdTable) : List Byte :=
  allQuantities.flatMap (fun q => q.code :: t[q.idx].bytes)

/-- The mask table, one flag-kind set per quantity (R207); a set bit is a masked kind (log entry 21). -/
def maskTableBytes (t : MaskTable) : List Byte := allQuantities.map (fun q => t[q.idx].code)

/-- A line of RDM, 27 bytes (R207): `source` is 0 for GLOBAL and 1 for EFFECTIVE. -/
def monitorLine (m : QuantityMon) (watched : Bool) (t : Thresholds) (source : Byte) : List Byte :=
  int32 m.held ++ yesNo m.lastValid :: (nat16 m.invalid ++ yesNo watched :: m.current.code :: m.latched.code ::
    (t.bytes ++ [source]))

/-- The ten counters of a station in the order of R174. -/
def StationCounters.bytes (c : StationCounters) : List Byte :=
  nat16 c.testsStarted ++ nat16 c.passed ++ nat16 c.failed ++ nat16 c.incomplete ++ nat16 c.aborted
    ++ nat16 c.revsAccepted ++ nat16 c.revsDiscarded ++ nat16 c.encoderFaults ++ nat16 c.fillFaults
    ++ nat16 c.engineWaitsExpired

/-- The five global counters in the order of R175. -/
def GlobalCounters.bytes (c : GlobalCounters) : List Byte :=
  nat16 c.framesBad ++ nat16 c.noticesLost ++ nat16 c.supplyGrants ++ nat16 c.retiredTests ++ nat16 c.retiredFails

/-- The snapshot set as SNP and RDN carry it (R182, R207). -/
def Snapshot.bytes (x : Snapshot) : List Byte :=
  nat32 x.number ++ le32 x.time ++ le32 x.length ++ snapshotCauseCode x.cause ::
    (allStations.flatMap (fun st => x.counters.stations[st].bytes) ++ x.counters.globals.bytes)

/-- One 13-byte conditioning entry of the CHN reply (R207); the bytes of an absent field are 0 (R202, log entry 20). -/
def conditioningEntry (channel mode invert : Byte) (constant : Int) (order amplitude phase rate : Nat) : List Byte :=
  channel :: mode :: invert :: (int32 constant ++ byteOf order :: (nat16 amplitude ++ byteOf phase :: nat16 rate))

/-- The three conditioning entries of a station (R207). The invert byte of LEAK_PRESS and AIR_TEMP, which have no invert
field, is sent as 0, R202's value of an absent field, and not as 0xFF, R204's code of a request's byte not carried
(DEDUCED, log entry 20). -/
def Conditioning.bytes (c : Conditioning) : List Byte :=
  let inv := yesNo c.invert
  (match c.accel with
   | .live => conditioningEntry 1 0 inv 0 0 0 0 0
   | .fixed x => conditioningEntry 1 1 inv x 0 0 0 0
   | .pattern o a p => conditioningEntry 1 2 inv 0 o a p 0) ++
  (match c.press with
   | .live => conditioningEntry 2 0 0 0 0 0 0 0
   | .fixed x => conditioningEntry 2 1 0 x 0 0 0 0
   | .pattern r => conditioningEntry 2 2 0 0 0 0 0 r) ++
  (match c.temp with
   | .live => conditioningEntry 3 0 0 0 0 0 0 0
   | .fixed x => conditioningEntry 3 1 0 x 0 0 0 0)

/-! ### The result record (R208) -/

/-- A step outcome, 4 bytes. -/
def StepEntry.bytes (e : StepEntry) : List Byte :=
  [byteOf e.index, e.kind.code, e.outcome.code, stepCauseCode e.cause]

/-- A level, 6 bytes. -/
def Level.bytes (l : Level) : List Byte := byteOf l.order :: (nat32 l.level ++ [yesNo l.clamped])

/-- A group result, 10 + 6m bytes. -/
def GroupResult.bytes (r : GroupResult) : List Byte :=
  byteOf r.group :: r.outcome.code :: groupCauseCode r.cause :: (nat16 r.n ++ nat16 r.discarded ++
    match r.figures with
    | none => 0 :: nat16 0
    | some f => byteOf f.levels.length :: (nat16 f.peakToPeak ++ f.levels.flatMap Level.bytes))

/-- A leak result, 30 bytes; without figures their bytes are 0. -/
def LeakResult.bytes (r : LeakResult) : List Byte :=
  r.outcome.code :: leakCauseCode r.cause ::
    match r.figures with
    | none => List.replicate 28 0
    | some f =>
      1 :: (int32 f.p1 ++ int32 f.p2 ++ int16 f.t1 ++ int16 f.t2 ++ int32 f.pa2c ++ int32 f.dp ++ nat16 f.dt
        ++ int32 f.q ++ [yesNo f.clamped])

/-- A check result, 7 bytes. -/
def CheckResult.bytes (r : CheckResult) : List Byte :=
  byteOf r.index :: r.quantity.code :: (int32 r.mean ++ [yesNo r.pass])

/-- A remark, 3 bytes. -/
def Remark.bytes : Remark → List Byte
  | .warning q k => [1, q.code, k.code]
  | .alarm q k => [2, q.code, k.code]
  | .gateTimeout => [3, 0, 0]
  | .gateSkipped => [4, 0, 0]
  | .engineWait => [5, 0, 0]
  | .stopTimeout => [6, 0, 0]
  | .driveFault => [7, 0, 0]

/-- A record as RDR returns it (R208). -/
def Record.bytes (r : Record) : List Byte :=
  nat32 (r.number.getD 0) ++ stationCode r.station :: (le32 r.testTag ++ nat16 r.variant ++ textBytes r.text
    ++ nat16 r.recipeVariant ++ byteOf r.revision :: (le16 r.fingerprint
    ++ byteOf (r.transient.toNat + 2 * r.verification.toNat + 4 * r.remarksFull.toNat) ::
      (le32 r.start ++ le32 (r.endTime.getD 0) ++ verdictCode r.verdict :: (causeBytes r.cause
        ++ byteOf r.steps.length :: byteOf r.groups.length :: byteOf r.leaks.length :: byteOf r.checks.length ::
          byteOf r.remarks.length ::
          (r.steps.flatMap StepEntry.bytes ++ r.groups.flatMap GroupResult.bytes ++ r.leaks.flatMap LeakResult.bytes
            ++ r.checks.flatMap CheckResult.bytes ++ r.remarks.flatMap Remark.bytes)))))

/-! ### Notices (R209) -/

/-- A notice's kind. -/
def NoticeBody.kind : NoticeBody → Byte
  | .nst .. => 0x70
  | .nfl .. => 0x71
  | .nrt .. => 0x72

/-- A notice's payload: the mark byte, then its fields (R209). -/
def Notice.payload (n : Notice) : List Byte :=
  yesNo n.lost ::
    match n.body with
    | .nst st state cause dep =>
      stationCode st :: state.code :: (causeBytes cause ++
        match dep with
        | none => 0 :: nat32 0
        | some (v, number) => verdictCode (some v) :: nat32 number)
    | .nfl scope q k held time =>
      (match scope with | none => 0 | some st => stationCode st) :: q.code :: k.code :: (int32 held ++ le32 time)
    | .nrt v rev tests fails => nat16 v ++ byteOf rev :: (nat16 tests ++ nat16 fails)

/-- The frame the transmitter is sending (R193, R202): the reply in the slot, or a notice with tag 0. -/
def Link.sending (l : Link) : Option (List Byte) :=
  match l.tx with
  | .free => none
  | .reply => l.slot.map (fun r => frameBytes r.kind r.tag r.payload)
  | .notice n => some (frameBytes n.body.kind 0 n.payload)

end Sys2Proof.Machine
end

