-- ==== Sys2Proof/Machine/RecipeBody.lean ====
section
/-! DEFINITION. Reading and validating a recipe body (R28 to R36, R205): the fields of each record, the stages of R33 in
their order, the cross-checks of R34, the derived windows of R35 and the fingerprint of R36. -/

namespace Sys2Proof.Machine

open Sys2Proof

/-- The element a failed validation names (R33). -/
inductive Element
  | header | step | groupSpec | leakSpec | override
deriving DecidableEq, Repr

/-- An element's code (R203). -/
def Element.code : Element → Byte
  | .header => 0
  | .step => 1
  | .groupSpec => 2
  | .leakSpec => 3
  | .override => 4

/-- A failed validation: the element and its position (R33). -/
structure Invalid where
  element : Element
  position : Nat
deriving DecidableEq, Repr

/-! ### The fields of a record (R29 to R32, R205); `none` when a field is unnamed or out of range -/

/-- The number when it lies in a range. -/
def within (lo hi x : Nat) : Option Nat := if lo ≤ x ∧ x ≤ hi then some x else none

/-- The integer when it lies in a range. -/
def withinInt (lo hi x : Int) : Option Int := if lo ≤ x ∧ x ≤ hi then some x else none

/-- A yes-or-no byte (R202). -/
def yesNoOf (b : Byte) : Option Bool := if b = 0 then some false else if b = 1 then some true else none

/-- A uint16 of a record as a number. -/
def nat16At (r : List Byte) (i : Nat) : Nat := (u16At r i).toNat

/-- A uint32 of a record as a number. -/
def nat32At (r : List Byte) (i : Nat) : Nat := (u32At r i).toNat

/-- An int32 of a record, when it lies in the range of a station quantity (R29). -/
def valueOf (q : StQuantity) (x : Word32) : Option Int := withinInt q.range.1 q.range.2 x.toInt

/-- A RAMP record (R29). -/
def rampOf (r : List Byte) : Option StepSpec := do
  let target ← withinInt (-3000) 3000 (u16At r 1).toInt
  let rate ← within 1 5000 (nat16At r 3)
  let torque ← within 0 30000 (nat16At r 5)
  let tolerance ← within 1 200 (natAt r 7)
  let inBand ← within 0 10000 (nat16At r 8)
  let timeout ← within 100 600000 (nat32At r 10)
  some (.ramp target rate torque tolerance inBand timeout)

/-- The optional window of a DWELL: a group 0 to 3, or 0xFF for absent (R205). -/
def windowOf (b : Byte) : Option (Option Nat) :=
  if b = 0xFF then some none else (within 0 3 b.toNat).map some

/-- A DWELL record (R29): the extension timeout is checked only with extend yes. -/
def dwellOf (r : List Byte) : Option StepSpec := do
  let duration ← within 100 3600000 (nat32At r 1)
  let window ← windowOf (byteAt r 5)
  let extend ← yesNoOf (byteAt r 6)
  let ext ← if extend then within 100 600000 (nat32At r 7) else some (nat32At r 7)
  some (.dwell duration window extend ext)

/-- A GATE record (R29): VIB is no GATE quantity. -/
def gateOf (r : List Byte) : Option StepSpec := do
  let q ← stQuantityOf (byteAt r 1)
  if q = .vib then none
  else do
    let rel ← match natAt r 2 with | 0 => some GateRelation.atLeast | 1 => some GateRelation.atMost | _ => none
    let value ← valueOf q (u32At r 3)
    let hold ← within 0 60000 (nat16At r 7)
    let timeout ← within 100 3600000 (nat32At r 9)
    let onTimeout ← match natAt r 13 with | 0 => some OnTimeout.fail | 1 => some OnTimeout.proceed | _ => none
    some (.gate q rel value hold timeout onTimeout)

/-- A CHECK record (R29): the averaging time is a multiple of 10. -/
def checkOf (r : List Byte) : Option StepSpec := do
  let q ← stQuantityOf (byteAt r 1)
  let averaging ← within 100 10000 (nat16At r 2)
  if averaging % 10 ≠ 0 then none
  else do
    let mode ← match natAt r 4 with
      | 0 => some CheckMode.within | 1 => some CheckMode.atLeast | 2 => some CheckMode.atMost | _ => none
    let reference ← valueOf q (u32At r 5)
    some (.check q averaging mode reference (nat16At r 9))

/-- A step record (R29, R205). -/
def stepOf (r : List Byte) : Option StepSpec :=
  match natAt r 0 with
  | 1 => rampOf r
  | 2 => dwellOf r
  | 3 => gateOf r
  | 4 => checkOf r
  | 5 => some .leak
  | _ => none

/-- `n` order slots from offset `i` of a group record (R30, R205). -/
def orderSlots (r : List Byte) : (n i : Nat) → Option (List OrderLimit)
  | 0, _ => some []
  | n + 1, i => do
    let order ← within 1 63 (natAt r i)
    let limit ← within 1 999999 (nat32At r (i + 1))
    let rest ← orderSlots r n (i + 5)
    some (⟨order, limit⟩ :: rest)

/-- A group specification (R30): no order twice. -/
def groupOf (r : List Byte) : Option GroupSpec := do
  let group ← within 0 3 (natAt r 0)
  let k ← within 16 1024 (nat16At r 1)
  let flank ← match natAt r 3 with | 0 => some Flank.drive | 1 => some Flank.coast | _ => none
  let flankMin ← within 0 30000 (nat16At r 4)
  let tolerance ← within 1 200 (natAt r 6)
  let discardLimit ← within 1 4096 (nat16At r 7)
  let count ← within 1 4 (natAt r 9)
  let present ← yesNoOf (byteAt r 10)
  let peakLimit ← if present then (within 1 65535 (nat16At r 11)).map some else some none
  let orders ← orderSlots r count 13
  if (orders.map OrderLimit.order).Nodup then
    some ⟨group, k, flank, flankMin, tolerance, discardLimit, orders, peakLimit⟩
  else none

/-- The leak specification (R31): the measure time is a multiple of 10. -/
def leakOf (r : List Byte) : Option LeakSpec := do
  let testPressure ← within 5000 200000 (nat32At r 0)
  let fillTolerance ← within 100 20000 (nat16At r 4)
  let fillTime ← within 500 60000 (nat16At r 6)
  let settleTime ← within 1000 120000 (nat32At r 8)
  let grossDrop ← within 100 50000 (nat16At r 12)
  let measureTime ← within 1000 60000 (nat16At r 14)
  let volume ← within 100 100000 (nat32At r 16)
  let leakLimit ← within 1 999999 (nat32At r 20)
  let riseLimit ← within 0 999999 (nat32At r 24)
  let ventTime ← within 200 10000 (nat16At r 28)
  if measureTime % 10 ≠ 0 then none
  else
    some ⟨testPressure, fillTolerance, fillTime, settleTime, grossDrop, measureTime, volume, leakLimit, riseLimit,
      ventTime⟩

/-- A threshold whose presence bit is set, checked against its quantity's range; one whose bit is clear is not examined
(R32, R205). -/
def optionalThreshold (q : StQuantity) (present : Bool) (x : Word32) : Option (Option Int) :=
  if present then (valueOf q x).map some else some none

/-- An override (R32). -/
def overrideOf (r : List Byte) : Option Override := do
  let q ← stQuantityOf (byteAt r 0)
  let presence := byteAt r 1
  if 16 ≤ presence.toNat then none
  else do
    let lowAlarm ← optionalThreshold q (presence.getLsbD 0) (u32At r 2)
    let lowWarn ← optionalThreshold q (presence.getLsbD 1) (u32At r 6)
    let highWarn ← optionalThreshold q (presence.getLsbD 2) (u32At r 10)
    let highAlarm ← optionalThreshold q (presence.getLsbD 3) (u32At r 14)
    some ⟨q, lowAlarm, lowWarn, highWarn, highAlarm⟩

/-! ### The stages (R33) -/

/-- `n` consecutive records of `size` bytes. -/
def records (size : Nat) : (n : Nat) → List Byte → List (List Byte)
  | 0, _ => []
  | n + 1, p => p.take size :: records size n (p.drop size)

/-- Examine records in carried order, numbering them from `pos`; the first that fails is named (R33). -/
def examine {α : Type} (f : List Byte → Option α) (el : Element) : (pos : Nat) → List (List Byte) → Except Invalid (List α)
  | _, [] => .ok []
  | pos, r :: rest =>
    match f r with
    | none => .error ⟨el, pos⟩
    | some x =>
      match examine f el (pos + 1) rest with
      | .error e => .error e
      | .ok xs => .ok (x :: xs)

/-- Stage 5 examines each override in turn, the range of its fields and the repeat of a quantity at one position (R33):
the earlier of the two failures is the one reported. -/
def examineOverrides : (seen : List StQuantity) → (pos : Nat) → List (List Byte) → Except Invalid (List Override)
  | _, _, [] => .ok []
  | seen, pos, r :: rest =>
    match overrideOf r with
    | none => .error ⟨.override, pos⟩
    | some o =>
      if o.quantity ∈ seen then .error ⟨.override, pos⟩
      else
        match examineOverrides (o.quantity :: seen) (pos + 1) rest with
        | .error e => .error e
        | .ok xs => .ok (o :: xs)

/-- The steps numbered from 1 (R1). -/
def numbered {α : Type} (xs : List α) : List (Nat × α) := (List.range' 1 xs.length).zip xs

/-- The windows of a chain in order: step index and group (R29). -/
def windowsOf (steps : List StepSpec) : List (Nat × Nat) :=
  (numbered steps).filterMap (fun x => match x.2 with | .dwell _ (some g) _ _ => some (x.1, g) | _ => none)

/-- The LEAK steps of a chain: their indices (R34). -/
def leakSteps (steps : List StepSpec) : List Nat :=
  (numbered steps).filterMap (fun x => if x.2 = .leak then some x.1 else none)

/-- The position of the first list element that satisfies a test, numbered from 1. -/
def firstWhere {α : Type} (p : α → Bool) (xs : List α) : Option Nat :=
  ((numbered xs).find? (fun x => p x.2)).map Prod.fst

/-- The first specification that repeats an earlier one's group number (R34 check 2): its position. -/
def groupRepeat : (seen : List Nat) → (pos : Nat) → List GroupSpec → Option Nat
  | _, _, [] => none
  | seen, pos, g :: rest => if g.group ∈ seen then some pos else groupRepeat (g.group :: seen) (pos + 1) rest

/-- The first window that returns to a group after a window of another (R34 check 4): `closed` are the groups whose run
has ended, `cur` the group of the run in progress. -/
def interleaved : (closed : List Nat) → (cur : Option Nat) → List (Nat × Nat) → Option Nat
  | _, _, [] => none
  | closed, cur, (i, g) :: rest =>
    if cur = some g then interleaved closed cur rest
    else if g ∈ closed then some i
    else interleaved (match cur with | some h => h :: closed | none => closed) (some g) rest

/-- The first LEAK step whose nearest preceding RAMP has a target other than 0 (R34 check 7): `target` is the nearest
preceding RAMP's. -/
def leakAfterMotion : (target : Option Int) → List (Nat × StepSpec) → Option Nat
  | _, [] => none
  | target, (i, .leak) :: rest =>
    match target with
    | some t => if t = 0 then leakAfterMotion target rest else some i
    | none => leakAfterMotion target rest
  | _, (_, .ramp t _ _ _ _ _) :: rest => leakAfterMotion (some t) rest
  | target, (_, .dwell ..) :: rest => leakAfterMotion target rest
  | target, (_, .gate ..) :: rest => leakAfterMotion target rest
  | target, (_, .check ..) :: rest => leakAfterMotion target rest

/-- The cross-checks of stage 6, in their order (R34). -/
def crossCheck (steps : List StepSpec) (groups : List GroupSpec) (leak : Option LeakSpec) : Option Invalid :=
  let wins := windowsOf steps
  let leaks := leakSteps steps
  match wins.find? (fun w => !(groups.any (fun g => g.group == w.2))) with
  | some w => some ⟨.step, w.1⟩
  | none =>
  match groupRepeat [] 1 groups with
  | some pos => some ⟨.groupSpec, pos⟩
  | none =>
  match firstWhere (fun g => !(wins.any (fun w => w.2 == g.group))) groups with
  | some pos => some ⟨.groupSpec, pos⟩
  | none =>
  match interleaved [] none wins with
  | some i => some ⟨.step, i⟩
  | none =>
  match (if leak.isNone then leaks[0]? else none) with
  | some i => some ⟨.step, i⟩
  | none =>
  match leaks[2]? with
  | some i => some ⟨.step, i⟩
  | none =>
  match leakAfterMotion none (numbered steps) with
  | some i => some ⟨.step, i⟩
  | none => none

/-- The first and the last window of a group (R35). -/
def groupWindows (steps : List StepSpec) (g : GroupSpec) : GroupWindows :=
  let own := ((windowsOf steps).filter (fun w => w.2 == g.group)).map Prod.fst
  ⟨own.head?.getD 0, own.getLast?.getD 0⟩

/-- Validation (R33): the recipe with its derived facts, or the element that fails first. The body's length agrees with
its header by then (R204). -/
def validate (body : List Byte) : Except Invalid Recipe :=
  let variant := nat16At body 0
  let s := natAt body 5
  let g := natAt body 6
  let o := natAt body 8
  match (if natAt body 3 = 0 then some RecipeClass.production else if natAt body 3 = 1 then some .master else none),
    yesNoOf (byteAt body 4), yesNoOf (byteAt body 7) with
  | some cls, some stopOnFail, some hasLeak =>
    if variant = 0 ∨ s < 1 ∨ 24 < s ∨ 4 < g ∨ 6 < o then .error ⟨.header, 0⟩
    else
      let afterSteps := body.drop (9 + 16 * s)
      let afterGroups := afterSteps.drop (33 * g)
      let afterLeak := if hasLeak then afterGroups.drop 30 else afterGroups
      match examine stepOf .step 1 (records 16 s (body.drop 9)) with
      | .error e => .error e
      | .ok steps =>
      match examine groupOf .groupSpec 1 (records 33 g afterSteps) with
      | .error e => .error e
      | .ok groups =>
      match examine leakOf .leakSpec 1 (if hasLeak then [afterGroups.take 30] else []) with
      | .error e => .error e
      | .ok leaks =>
      match examineOverrides [] 1 (records 18 o afterLeak) with
      | .error e => .error e
      | .ok overrides =>
      match crossCheck steps groups leaks.head? with
      | some e => .error e
      | none =>
        .ok { body := body, variant := variant, revision := natAt body 2, cls := cls, stopOnFail := stopOnFail
              steps := steps, groups := groups, leak := leaks.head?, overrides := overrides
              windows := groups.map (groupWindows steps), fingerprint := crc16 body }
  | _, _, _ => .error ⟨.header, 0⟩

end Sys2Proof.Machine
end

