-- ==== Sys2Proof/Machine/Ops.lean ====
section
/-! DEFINITION. The named operations over the state that every block's rules use: reading and changing one station's
part of a block, building the record in progress, counting, giving notices, and the transmitter's choice. -/

namespace Sys2Proof.Machine

open Sys2Proof

/-- What a command answers. -/
abbrev Result := Host.Outcome State Fault Refusal

namespace State

/-! ### One station's part of a block -/

/-- Line time (R2). -/
abbrev now (s : State) : LineTime := s.clock.now

/-- The station context (R3). -/
abbrev ctx (s : State) (st : Station) : StationCtx := s.seq[st]

/-- The station's state (R3). -/
abbrev stateOf (s : State) (st : Station) : StationState := s.seq[st].state

/-- The station's leak circuit (R122). -/
abbrev circuit (s : State) (st : Station) : LeakCircuit := s.leak.circuits[st]

/-- What the Monitor holds of a station quantity (R80). -/
abbrev quantity (s : State) (st : Station) (q : StQuantity) : QuantityMon := s.mon.stations[st][q.idx]

/-- Change a station context. -/
def modCtx (s : State) (st : Station) (f : StationCtx → StationCtx) : State := { s with seq := s.seq.upd st f }

/-- Change a Drive Interface. -/
def modDrive (s : State) (st : Station) (f : Drive → Drive) : State := { s with drive := s.drive.upd st f }

/-- Change a leak circuit. -/
def modCircuit (s : State) (st : Station) (f : LeakCircuit → LeakCircuit) : State :=
  { s with leak := { s.leak with circuits := s.leak.circuits.upd st f } }

/-- Change a station's group table (R98). -/
def modGroups (s : State) (st : Station) (f : List GroupLine → List GroupLine) : State :=
  { s with noise := { s.noise with groups := s.noise.groups.upd st f } }

/-- Set a station's deferred claim (R101). -/
def setDeferred (s : State) (st : Station) (g : Option Nat) : State :=
  { s with noise := { s.noise with deferred := s.noise.deferred.upd st (fun _ => g) } }

/-- A noise engine (R97). -/
def engine (s : State) : EngineId → Engine
  | .a => s.noise.engineA
  | .b => s.noise.engineB

/-- Change a noise engine. -/
def modEngine (s : State) (e : EngineId) (f : Engine → Engine) : State :=
  match e with
  | .a => { s with noise := { s.noise with engineA := f s.noise.engineA } }
  | .b => { s with noise := { s.noise with engineB := f s.noise.engineB } }

/-- Change the step in progress. -/
def modStep (s : State) (st : Station) (f : StepCtx → StepCtx) : State :=
  s.modCtx st (fun c => { c with step := c.step.map f })

/-- Change the Link Interface. -/
def modLink (s : State) (f : Link → Link) : State := { s with link := f s.link }

/-! ### Counters (R174 to R176) -/

/-- Change a station's live counters. -/
def countStation (s : State) (st : Station) (f : StationCounters → StationCounters) : State :=
  { s with counters := { s.counters with live :=
    { s.counters.live with stations := s.counters.live.stations.upd st f } } }

/-- Change the global live counters. -/
def countGlobal (s : State) (f : GlobalCounters → GlobalCounters) : State :=
  { s with counters := { s.counters with live := { s.counters.live with globals := f s.counters.live.globals } } }

/-- Set a station's flag in the change-of-state set (R183). -/
def markChanged (s : State) (st : Station) : State :=
  { s with counters := { s.counters with changed := s.counters.changed.upd st (fun _ => true) } }

/-- A change of a station's state, which sets its change-of-state flag (R5, R183). -/
def setState (s : State) (st : Station) (x : StationState) : State :=
  (s.modCtx st (fun c => { c with state := x })).markChanged st

end State

/-! ### The record in progress (R158 to R162) -/

/-- Add a remark: not one the record holds already (R160), and none beyond 24, which sets REMARKS_FULL (R161). -/
def Record.addRemark (r : Record) (m : Remark) : Record :=
  if m ∈ r.remarks then r
  else if r.remarks.length < 24 then { r with remarks := r.remarks ++ [m] }
  else { r with remarksFull := true }

namespace State

/-- Change a station's record in progress. -/
def modRecord (s : State) (st : Station) (f : Record → Record) : State :=
  s.modCtx st (fun c => { c with record := c.record.map f })

/-- Add a remark to a station's record in progress (R160, R161). -/
def remark (s : State) (st : Station) (m : Remark) : State := s.modRecord st (fun r => r.addRemark m)

/-- Append a step outcome (R53). -/
def addStepEntry (s : State) (st : Station) (e : StepEntry) : State :=
  s.modRecord st (fun r => { r with steps := r.steps ++ [e] })

/-- Append a noise group result (R118). -/
def addGroupResult (s : State) (st : Station) (g : GroupResult) : State :=
  s.modRecord st (fun r => { r with groups := r.groups ++ [g] })

/-- Append a leak result (R139). -/
def addLeakResult (s : State) (st : Station) (l : LeakResult) : State :=
  s.modRecord st (fun r => { r with leaks := r.leaks ++ [l] })

/-- Append a check result (R66). -/
def addCheckResult (s : State) (st : Station) (k : CheckResult) : State :=
  s.modRecord st (fun r => { r with checks := r.checks ++ [k] })

/-- The recipe in force at a station with a test (R4). -/
def recipe (s : State) (st : Station) : Option Recipe := (s.ctx st).test.map TestCtx.recipe

/-- The recipe in force has stop-on-fail set (R7). -/
def stopOnFail (s : State) (st : Station) : Bool := (s.recipe st).any Recipe.stopOnFail

/-- The leak specification in force (R31). -/
def leakSpec (s : State) (st : Station) : Option LeakSpec := (s.recipe st).bind Recipe.leak

/-- Any station is RUNNING, STOPPING or COMPLETING (R156). -/
def anyTesting (s : State) : Bool :=
  allStations.any (fun st => s.stateOf st == .running || s.stateOf st == .stopping || s.stateOf st == .completing)

/-- A station is substituted while any of its entries is FIXED or PATTERN (R153). -/
def substituted (s : State) (st : Station) : Bool :=
  s.cond[st].accel != .live || s.cond[st].press != .live || s.cond[st].temp != .live

/-- The station's most recent SPEED is within the standstill threshold in force (R6, R71, R125). -/
def atStandstill (s : State) (st : Station) : Bool := (s.quantity st .speed).held.natAbs ≤ s.config.standstill

end State

/-! ### Notices and the transmitter (R193, R194) -/

/-- A notice given to the Link Interface joins the queue of 16 with the LOST mark of an earlier drop, or is dropped and
counted (R194). -/
def State.giveNotice (s : State) (b : NoticeBody) : State :=
  if s.link.queue.length < 16 then
    s.modLink (fun l => { l with queue := l.queue ++ [⟨l.lostPending, b⟩], lostPending := false })
  else
    (s.countGlobal (fun c => { c with noticesLost := satAdd c.noticesLost 1 })).modLink
      (fun l => { l with lostPending := true })

/-- The transmitter's choice (R193): while it is FREE, the waiting reply, or else the oldest notice, or else nothing. -/
def Link.choose (l : Link) : Link :=
  match l.tx with
  | .free =>
    if l.slot.isSome then { l with tx := .reply }
    else match l.queue with
      | [] => l
      | n :: rest => { l with tx := .notice n, queue := rest }
  | .reply => l
  | .notice _ => l

/-- The end of an event: the transmitter chooses when a notice joined the queue during the event (R193). -/
def State.afterNotices (before after : State) : State :=
  if before.link.queue.length < after.link.queue.length then after.modLink Link.choose else after

/-- An event of the part: its effect, then the transmitter's choice if it gave a notice (R193). -/
def event (f : State → State) (s : State) : Result := .next (s.afterNotices (f s))

/-- An event that is taken only when it is one in this state; otherwise the command names an event that does not occur,
and the state stays as it is (log entry 2). -/
def eventWhen (due : State → Bool) (f : State → State) (s : State) : Result :=
  if due s then event f s else .next s

/-- A reply is placed in the slot, waiting; a FREE transmitter chooses it (R192, R193). -/
def Link.place (l : Link) (r : Reply) : Link := ({ l with slot := some r } : Link).choose

/-- The receiver back in HUNTING with no frame (R188, R190). -/
def Link.hunt (l : Link) : Link := { l with recv := .hunting, frame := [], expected := none, gapStart := none }

/-- A good frame is taken at the event of its last byte: discarded when the slot holds a reply (R191); otherwise executed
by `serve`, whose payload is placed as the reply of kind + 0x80 and the frame's tag (R192). A kind of 0x80 or above keeps
its kind. -/
def goodFrame (kind tag : Byte) (serve : State → State × List Byte) (s : State) : State :=
  let s := s.modLink Link.hunt
  if s.link.slot.isSome then s
  else
    let (s', payload) := serve s
    s'.modLink (fun l => l.place ⟨if kind.toNat < 0x80 then kind + 0x80 else kind, tag, payload⟩)

/-- A request as a command: the arrival of the last byte of the good frame that carries it (R190, R191). -/
def request (kind tag : Byte) (serve : State → State × List Byte) (s : State) : Result :=
  .next (goodFrame kind tag serve s)

/-- A reply of a status alone (R192). -/
def refuse (s : State) (x : Status) : State × List Byte := (s, [x.code])

/-- A reply OK with its fields (R192). -/
def answer (s : State) (fields : List Byte) : State × List Byte := (s, Status.ok.code :: fields)

/-- A request that names a station: BAD_STATION for a number outside 1 to 6, else the rest of the rule. -/
def withStation (b : Byte) (s : State) (f : Station → State × List Byte) : State × List Byte :=
  match stationOf b with
  | none => refuse s .badStation
  | some st => f st

end Sys2Proof.Machine
end

