-- ==== Sys2Proof/Machine/Counting.lean ====
section
/-! DEFINITION. The commands of Counters, Snapshots and Change Tracking (R177 to R184): AUTO_SNAPSHOT_EXPIRY, SNP, RDN,
POL. -/

namespace Sys2Proof.Machine

open Sys2Proof

/-- The number after a snapshot number: 1 after 4,294,967,295 (R178). -/
def snapshotAfter (n : Nat) : Nat := if n = 4294967295 then 1 else n + 1

/-- A snapshot is taken (R178): the live counters are copied and zeroed in one act. -/
def Counters.snap (c : Counters) (cause : SnapshotCause) (now : LineTime) : Counters :=
  { c with
    live := .zero
    snapshot := { counters := c.live, number := snapshotAfter c.snapshot.number, time := now
                  length := now - c.intervalStart, cause := some cause }
    intervalStart := now }

/-- The auto-snapshot timer started at a line time with the interval in force; off with interval 0 (R180). -/
def Counters.restartTimer (c : Counters) (interval : Nat) (now : LineTime) : Counters :=
  { c with autoStart := if interval = 0 then none else some now }

namespace State

/-- A snapshot at this event, which starts the timer again (R178 to R180). -/
def snapshot (s : State) (cause : SnapshotCause) : State :=
  { s with counters := (s.counters.snap cause s.now).restartTimer s.config.autoInterval s.now }

/-- The auto-snapshot timer expires at its start plus the interval (R180). -/
def autoSnapshotDue (s : State) : Bool :=
  s.counters.autoStart.any (fun t => s.config.autoInterval * 1000 ≤ elapsed t s.now)

end State

/-- AUTO_SNAPSHOT_EXPIRY (R180). -/
def execAutoSnapshotExpiry (s : State) : Result := eventWhen State.autoSnapshotDue (fun s => s.snapshot .auto) s

/-- SNP's rule (R179). -/
def serveSnp (s : State) : State × List Byte :=
  let s := s.snapshot .snp
  answer s s.counters.snapshot.bytes

/-- SNP (R179). -/
def execSnp (tag : Byte) (s : State) : Result := request 0x48 tag serveSnp s

/-- RDN's rule (R182). -/
def serveRdn (s : State) : State × List Byte := answer s s.counters.snapshot.bytes

/-- RDN (R182). -/
def execRdn (tag : Byte) (s : State) : Result := request 0x49 tag serveRdn s

/-- POL's reply fields (R184, R207). -/
def State.pollBytes (s : State) : List Byte :=
  stationSetCode s.counters.changed :: (allStations.map (fun st => (s.stateOf st).code)
    ++ [byteOf s.store.records.length, byteOf s.store.deposit.length, yesNo s.link.lostPending])

/-- POL's rule (R184): the set is read, then cleared. -/
def servePol (s : State) : State × List Byte :=
  answer { s with counters := { s.counters with changed := Vector.replicate 6 false } } s.pollBytes

/-- POL (R184). -/
def execPol (tag : Byte) (s : State) : Result := request 0x4A tag servePol s

end Sys2Proof.Machine
end

