-- ==== Sys2Proof/Machine/LeakOps.lean ====
section
/-! DEFINITION. The Leak Tester's operations (R122 to R143): phases and valves, the supply arbiter, deciding a result, and
what a station's leaving RUNNING does to its leak step. The decay arithmetic (R135 to R138) stands here too. -/

namespace Sys2Proof.Machine

open Sys2Proof

/-! ### Phases and valves (R123) -/

/-- The fill valve is open in FILL alone (R123). -/
def LeakPhase.fillOpen : LeakPhase → Bool
  | .fill => true
  | .none | .standstillWait | .waitSupply | .settle | .measure | .vent => false

/-- The vent valve is closed in FILL, SETTLE and MEASURE alone (R123). -/
def LeakPhase.ventOpen : LeakPhase → Bool
  | .fill | .settle | .measure => false
  | .none | .standstillWait | .waitSupply | .vent => true

/-- LEAK_PRESS and AIR_TEMP are watched in FILL, SETTLE and MEASURE (R76). -/
def LeakPhase.watched : LeakPhase → Bool
  | .fill | .settle | .measure => true
  | .none | .standstillWait | .waitSupply | .vent => false

/-- A circuit enters a phase: its valves follow (R123), and the phase start time is this event's. -/
def LeakCircuit.enter (c : LeakCircuit) (p : LeakPhase) (now : LineTime) : LeakCircuit :=
  { c with phase := p, fillOpen := p.fillOpen, ventOpen := p.ventOpen, phaseStart := some now
           settleStart := if p = .settle then some now else c.settleStart }

/-- The result INCOMPLETE with a cause and no figures (R139). -/
def LeakResult.stopped (c : LeakCause) : LeakResult := ⟨.incomplete, some c, none⟩

namespace State

/-- A station enters a leak phase at this event. -/
def enterPhase (s : State) (st : Station) (p : LeakPhase) : State := s.modCircuit st (fun c => c.enter p s.now)

/-- The phase becomes none and the step's state is cleared; the vent valve stays open (R123, R140). -/
def leakRest (s : State) (st : Station) : State := s.modCircuit st (fun _ => .rest)

/-! ### The supply arbiter (R127 to R129) -/

/-- SUPPLY is healthy: neither its current LOW_ALARM nor its current LOST condition holds (R128). Before the first SUPPLY
sample after power-on neither holds (R85), so a grant can be made then (DEDUCED, log entry 32). -/
def supplyHealthy (s : State) : Bool := !s.mon.supply.current.lowAlarm && !s.mon.supply.current.lost

/-- The examination of R128: the head of the queue is granted when no grant is held and SUPPLY is healthy; it leaves the
queue, SUPPLY_GRANTS goes up by 1 and it begins FILL. -/
def examineSupply (s : State) : State :=
  match s.leak.queue, s.leak.grant, s.supplyHealthy with
  | st :: rest, none, true =>
    (({ s with leak := { s.leak with grant := some st, queue := rest } } : State).countGlobal
      (fun c => { c with supplyGrants := satAdd c.supplyGrants 1 })).enterPhase st .fill
  | _, _, _ => s

/-- The holder gives up the grant, and the examination follows at the same event (R129). -/
def releaseGrant (s : State) (st : Station) : State :=
  if s.leak.grant = some st then ({ s with leak := { s.leak with grant := none } } : State).examineSupply else s

/-- A station gives up its place in the supply wait queue, and the examination follows (R127, R128). -/
def leaveSupplyQueue (s : State) (st : Station) : State :=
  if st ∈ s.leak.queue then
    ({ s with leak := { s.leak with queue := s.leak.queue.filter (· ≠ st) } } : State).examineSupply
  else s

/-! ### Deciding a result (R139) -/

/-- The leak result is decided and entered in the record in progress (R139); FAIL_FILL and FAIL_GROSS count FILL_FAULTS
(R130, R132, R174). -/
def decideLeak (s : State) (st : Station) (r : LeakResult) : State :=
  let s := (s.modCircuit st (fun c => { c with result := some r })).addLeakResult st r
  match r.outcome with
  | .failFill | .failGross => s.countStation st (fun c => { c with fillFaults := satAdd c.fillFaults 1 })
  | .pass | .failLeak | .rise | .incomplete => s

/-- A decided step goes to VENT, and a grant it held is released (R129, R140). -/
def ventAfter (s : State) (st : Station) : State := (s.enterPhase st .vent).releaseGrant st

/-- The start of a LEAK step (R124). -/
def beginLeak (s : State) (st : Station) (index : Nat) : State :=
  s.modCircuit st (fun _ =>
    ({ LeakCircuit.rest with stepIndex := some index } : LeakCircuit).enter .standstillWait s.now)

/-- A station leaves RUNNING for STOPPING: its leak step is closed by its phase (R141). -/
def leakExit (s : State) (st : Station) : State :=
  let cut := LeakResult.stopped .notCompleted
  match (s.circuit st).phase with
  | .none | .vent => s
  | .standstillWait => (s.decideLeak st cut).leakRest st
  | .waitSupply => ((s.decideLeak st cut).leakRest st).leaveSupplyQueue st
  | .fill | .settle | .measure => (s.decideLeak st cut).ventAfter st

/-- The emergency stop, or the entry to COMPLETING, closes the circuit without VENT timing (R141, R143): an undecided
result becomes NOT_COMPLETED, the phase becomes none, a grant or a place in the queue is given up. -/
def leakClose (s : State) (st : Station) : State :=
  match (s.circuit st).phase with
  | .none => s
  | .vent => s.leakRest st
  | .standstillWait | .waitSupply | .fill | .settle | .measure =>
    (((s.decideLeak st (LeakResult.stopped .notCompleted)).leakRest st).releaseGrant st).leaveSupplyQueue st

end State

/-! ### The decay arithmetic (R135 to R138) -/

/-- The number of samples of a measurement (R133). -/
def LeakSpec.samples (l : LeakSpec) : Nat := l.measureTime / 10

/-- Stages 1 to 4 (R136): Pa2c, the end pressure referred to the start temperature, and ΔP. -/
def decay (p1 p2 t1 t2 : Int) (patm : Nat) : Int × Int :=
  let pa1 := p1 + patm
  let pa2 := p2 + patm
  let tk1 := t1 + 27315
  let tk2 := t2 + 27315
  let pa2c := roundDiv (pa2 * tk1) tk2.toNat
  (pa2c, pa1 - pa2c)

/-- Stage 5 (R137): the leak rate before clamping, in 0.01 mL/min. -/
def leakRate (volume : Nat) (dp : Int) (dt : Nat) : Int := roundDiv (volume * dp * 6000000) (101325 * dt)

/-- The figures of a measurement from its four block sums (R135 to R137). -/
def leakFigures (l : LeakSpec) (patm : Nat) (pStart pEnd tStart tEnd : Int) : LeakFigures :=
  let p1 := roundDiv pStart 16
  let p2 := roundDiv pEnd 16
  let t1 := roundDiv tStart 16
  let t2 := roundDiv tEnd 16
  let d := decay p1 p2 t1 t2 patm
  let dt := (l.samples - 16) * 10
  let q := leakRate l.volume d.2 dt
  { p1 := p1, p2 := p2, t1 := t1, t2 := t2, pa2c := d.1, dp := d.2, dt := dt
    q := clampInt (-999999) 999999 q, clamped := q < -999999 || 999999 < q }

/-- The outcome of a completed measurement (R138). -/
def leakOutcome (l : LeakSpec) (q : Int) : LeakOutcome :=
  if q > l.leakLimit then .failLeak else if q < -(l.riseLimit : Int) then .rise else .pass

/-- A failed outcome for R7: FAIL_FILL, FAIL_GROSS, FAIL_LEAK or RISE. -/
def LeakOutcome.failed : LeakOutcome → Bool
  | .failLeak | .rise | .failFill | .failGross => true
  | .pass | .incomplete => false

end Sys2Proof.Machine
end

