-- ==== Sys2Proof/Machine/NoiseOps.lean ====
section
/-! DEFINITION. The Noise Analyser's operations (R97 to R120): grants and the wait queue, window starts and ends,
unmeasured windows, group closure, the order computation, and what a station's leaving RUNNING does to its groups and its
engine. -/

namespace Sys2Proof.Machine

open Sys2Proof

/-! ### The order computation (R112 to R116) -/

/-- The averaged revolution (R112). -/
def averages (bins : Vector Int 128) (n : Nat) : List Int := bins.toList.map (fun b => roundDiv b n)

/-- The sum over the bins of avg[b] × f((m × b) mod 128). -/
def orderSum (f : Nat → Int) (m : Nat) (avg : List Int) : Int :=
  ((List.range avg.length).zip avg).foldl (fun acc x => acc + x.2 * f (m * x.1 % 128)) 0

/-- The amplitude of an order (R114). -/
def amplitude (m : Nat) (avg : List Int) : Nat :=
  let re := orderSum cosine m avg
  let im := orderSum sine m avg
  isqrt (re * re + im * im).toNat

/-- The level of an order, limited to 999,999 with the CLAMPED mark (R115). -/
def levelOf (m : Nat) (avg : List Int) : Level :=
  let l := (roundDiv ((amplitude m avg : Int) * 100) 2097088).toNat
  if 999999 < l then ⟨m, 999999, true⟩ else ⟨m, l, false⟩

/-- The greatest less the least of a list (R115). -/
def peakToPeak (avg : List Int) : Nat :=
  match avg with
  | [] => 0
  | x :: rest => (rest.foldl max x - rest.foldl min x).toNat

/-- The levels and the peak-to-peak of `n` accepted revolutions (R112 to R115). -/
def groupFigures (bins : Vector Int 128) (n : Nat) (orders : List OrderLimit) : GroupFigures :=
  let avg := averages bins n
  ⟨orders.map (fun o => levelOf o.order avg), peakToPeak avg⟩

/-- Every level within its limit, and the peak-to-peak within its limit if there is one (R116). -/
def figuresPass (g : GroupSpec) (f : GroupFigures) : Bool :=
  (g.orders.zip f.levels).all (fun x => x.2.level ≤ x.1.limit) && (match g.peakLimit with
    | none => true
    | some p => f.peakToPeak ≤ p)

/-! ### Engines and lines -/

/-- The engine becomes FREE: holder, group and K absent; its sums and counts stay until the next grant (R97). -/
def Engine.release (e : Engine) : Engine :=
  { e with state := .free, holder := none, group := none, k := none, revOpen := false, abandoned := false }

/-- A grant to a station for a group (R97, R99): ACCUMULATING, sums and counts 0. -/
def Engine.grantTo (st : Station) (g : GroupSpec) : Engine :=
  { state := .accumulating, holder := some st, group := some g.group, k := some g.k
    bins := Vector.replicate 128 0, accepted := 0, discarded := 0, revOpen := false
    samples := Vector.replicate 128 none, abandoned := false }

/-- The engine is COMPUTING. -/
def Engine.isComputing (e : Engine) : Bool := match e.state with | .computing _ => true | .free | .accumulating | .parked => false

/-- Change the line of a group in a group table. -/
def modLine (g : Nat) (f : GroupLine → GroupLine) (ls : List GroupLine) : List GroupLine :=
  ls.map (fun l => if l.spec.group = g then f l else l)

/-- The line closes with an outcome, its result entered or not (R98). -/
def GroupLine.close (l : GroupLine) (o : GroupOutcome) (c : Option GroupCause) (engine : Option EngineId) (entered : Bool) :
    GroupLine :=
  { l with status := .closed, outcome := some o, cause := c, engine := engine, entered := entered }

namespace State

/-- The line of a group in a station's group table (R98). -/
def line (s : State) (st : Station) (g : Nat) : Option GroupLine :=
  s.noise.groups[st].find? (fun l => l.spec.group == g)

/-- The engine a station holds, in any of the three held states (R97). -/
def heldEngine (s : State) (st : Station) : Option EngineId :=
  if s.noise.engineA.holder = some st then some .a
  else if s.noise.engineB.holder = some st then some .b
  else none

/-- The station waits in the engine wait queue. -/
def waitsForEngine (s : State) (st : Station) : Bool := s.noise.queue.any (fun w => w.station == st)

/-- A FREE engine is granted to a station for a group (R99, R100): the engine goes to ACCUMULATING and the group's line
names it. A station that holds an engine is granted no second one (R97); by R99 it asks for none (log entry 33). -/
def grantEngine (s : State) (e : EngineId) (st : Station) (g : Nat) : State :=
  match s.line st g, s.heldEngine st with
  | none, _ | some _, some _ => s
  | some l, none =>
    (s.modEngine e (fun _ => Engine.grantTo st l.spec)).modGroups st (modLine g (fun l => { l with engine := some e }))

/-- A FREE engine passes to the head of the engine wait queue, which leaves the queue (R100). -/
def passEngine (s : State) (e : EngineId) : State :=
  match (s.engine e).state, s.noise.queue with
  | .free, w :: rest =>
    ({ s with noise := { s.noise with queue := rest } } : State).grantEngine e w.station w.group
  | _, _ => s

/-- The engine becomes FREE and passes to the head of the queue. -/
def freeEngine (s : State) (e : EngineId) : State := (s.modEngine e Engine.release).passEngine e

/-- Append a group's result to the record in progress and mark its line entered (R118). -/
def enterGroup (s : State) (st : Station) (r : GroupResult) : State :=
  (s.addGroupResult st r).modGroups st (modLine r.group (fun l => { l with entered := true }))

/-- The current window is unmeasured (R103): an ENGINE_WAIT remark; the Sequencer is told; at the group's last window the
group closes NOT_MEASURED and its result is appended. -/
def unmeasured (s : State) (st : Station) (g : Nat) : State :=
  let s := (s.remark st .engineWait).modStep st (fun x => { x with unmeasured := true })
  match s.line st g, (s.ctx st).step with
  | some l, some x =>
    if x.index = l.windows.last then
      (s.modGroups st (modLine g (fun l => l.close .notMeasured none none false))).enterGroup st
        ⟨g, .notMeasured, none, 0, 0, none⟩
    else s
  | _, _ => s

/-- A claim for an engine (R99): engine A if FREE, else B if FREE, else a place at the tail of the wait queue with the
wait limit as it stands; with a limit of 0 the window is unmeasured at once and the expiry is counted (R102). -/
def claimEngine (s : State) (st : Station) (g : Nat) : State :=
  if s.noise.engineA.state = .free then s.grantEngine .a st g
  else if s.noise.engineB.state = .free then s.grantEngine .b st g
  else if s.config.waitLimit = 0 then
    (s.countStation st (fun c => { c with engineWaitsExpired := satAdd c.engineWaitsExpired 1 })).unmeasured st g
  else
    { s with noise := { s.noise with queue := s.noise.queue ++ [⟨st, g, s.now, s.config.waitLimit⟩] } }

/-- The start of a window (R99): a closed group is a plain timed hold; a parked engine resumes; a computing engine of the
group leaves a plain timed hold; a computing engine of another group (or of an earlier test, log entry 11) defers the
claim; otherwise the station claims. -/
def windowStart (s : State) (st : Station) (g : Nat) : State :=
  match s.line st g with
  | none => s
  | some l =>
    if l.status = .closed then s
    else
      let s := s.modGroups st (modLine g (fun l => { l with status := .opened }))
      match l.engine with
      | some e =>
        if (s.engine e).state = .parked then s.modEngine e (fun x => { x with state := .accumulating, revOpen := false })
        else if (s.engine e).isComputing then s
        else s.claimEngine st g
      | none =>
        match s.heldEngine st with
        | some e => if (s.engine e).isComputing then s.setDeferred st (some g) else s.claimEngine st g
        | none => s.claimEngine st g

/-- A wait ends without a grant (R103): the station leaves the queue, or its deferred claim is dropped (R101). -/
def dropWait (s : State) (st : Station) : State :=
  ({ s with noise := { s.noise with queue := s.noise.queue.filter (fun w => w.station != st) } } : State).setDeferred st none

/-- The station waits in the queue or holds a deferred claim (R111). -/
def waiting (s : State) (st : Station) : Bool := s.waitsForEngine st || s.noise.deferred[st].isSome

/-- The end of a window whose station stays RUNNING, or whose extension timer expires (R60, R109 to R111): a wait ends
unmeasured; an ACCUMULATING engine parks, or at the group's last window the group closes SHORT, computed for 16 or more
accepted revolutions and entered at once for fewer. -/
def windowEnd (s : State) (st : Station) (g : Nat) (index : Nat) : State :=
  if s.waiting st then (s.dropWait st).unmeasured st g
  else
    match s.line st g with
    | none => s
    | some l =>
      match l.engine with
      | none => s
      | some e =>
        let x := s.engine e
        if l.status = .closed ∨ x.state ≠ .accumulating then s
        else if index ≠ l.windows.last then s.modEngine e (fun x => { x with state := .parked, revOpen := false })
        else if 16 ≤ x.accepted then
          (s.modEngine e (fun x => { x with state := .computing s.now, revOpen := false })).modGroups st
            (modLine g (fun l => l.close .incomplete (some .short) (some e) false))
        else
          ((s.modGroups st (modLine g (fun l => l.close .incomplete (some .short) none false))).enterGroup st
            ⟨g, .incomplete, some .short, x.accepted, x.discarded, none⟩).freeEngine e

/-! ### Leaving RUNNING (R119) -/

/-- The counts of a line's engine as they stand; 0 without one. -/
def lineCounts (s : State) (l : GroupLine) : Nat × Nat :=
  match l.engine with
  | some e => ((s.engine e).accepted, (s.engine e).discarded)
  | none => (0, 0)

/-- The result a line is settled with at the exit from RUNNING (R119), if any. -/
def settlement (s : State) (l : GroupLine) : Option GroupResult :=
  let n := s.lineCounts l
  match l.status with
  | .pending => none
  | .opened =>
    if l.engine.isSome then some ⟨l.spec.group, .notCompleted, none, n.1, n.2, none⟩
    else some ⟨l.spec.group, .notMeasured, none, 0, 0, none⟩
  | .closed => if l.entered then none else some ⟨l.spec.group, .incomplete, some .short, n.1, n.2, none⟩

/-- A line after its settlement: closed and entered, its engine given up (R119). -/
def settledLine (s : State) (l : GroupLine) : GroupLine :=
  match s.settlement l with
  | none => { l with engine := none }
  | some r => l.close r.outcome r.cause none true

/-- The lines in the order of the groups' first windows. -/
def insertLine (l : GroupLine) : List GroupLine → List GroupLine
  | [] => [l]
  | m :: rest => if l.windows.first ≤ m.windows.first then l :: m :: rest else m :: insertLine l rest

/-- A group table sorted by first window (R119). -/
def byFirstWindow : List GroupLine → List GroupLine
  | [] => []
  | l :: rest => insertLine l (byFirstWindow rest)

/-- Every open or unentered group of the station is settled and entered (R119). -/
def settleGroups (s : State) (st : Station) : State :=
  let ls := s.noise.groups[st]
  let rs := (byFirstWindow ls).filterMap s.settlement
  (s.modRecord st (fun r => { r with groups := r.groups ++ rs })).modGroups st (fun _ => ls.map s.settledLine)

/-- A station leaves RUNNING, by any path (R119): a wait ends with its remark, the groups are settled, an engine in
ACCUMULATING or PARKED passes on, and one in COMPUTING stays held and its result is to be discarded. -/
def noiseExit (s : State) (st : Station) : State :=
  let s := if s.waiting st then (s.dropWait st).remark st .engineWait else s
  let held := s.heldEngine st
  let s := s.settleGroups st
  match held with
  | none => s
  | some e =>
    if (s.engine e).isComputing then s.modEngine e (fun x => { x with abandoned := true }) else s.freeEngine e

end State

end Sys2Proof.Machine
end

