-- ==== Sys2Proof/Machine/RecipeTable.lean ====
section
/-! DEFINITION. The Recipe Table's operations (R37 to R44): lookup, rank movements, the victim, retirement and the change of
one entry. -/

namespace Sys2Proof.Machine

open Sys2Proof

/-- The set index of a variant code (R37). -/
def setIndex (variant : Nat) : Fin 8 := ⟨variant % 8, Nat.mod_lt _ (by decide)⟩

/-- The four ways in order. -/
def allWays : List (Fin 4) := [0, 1, 2, 3]

/-- The eight sets in order. -/
def allSets : List (Fin 8) := [0, 1, 2, 3, 4, 5, 6, 7]

/-- The way of a set whose valid entry carries a variant (R39). -/
def RecipeSet.find (set : RecipeSet) (variant : Nat) : Option (Fin 4) :=
  allWays.find? (fun w => set[w].any (fun e => e.recipe.variant == variant))

/-- The lowest-numbered invalid way (R44). -/
def RecipeSet.freeWay (set : RecipeSet) : Option (Fin 4) := allWays.find? (fun w => set[w].isNone)

/-- An entry that may be chosen as victim: unpinned, with lock count 0 (R44). -/
def Entry.evictable (e : Entry) : Bool := !e.pinned && e.lock == 0

/-- The victim: of the evictable entries the one of highest age rank (R44). -/
def RecipeSet.victim (set : RecipeSet) : Option (Fin 4 × Entry) :=
  allWays.foldl (fun best w =>
    match set[w] with
    | none => best
    | some e =>
      if e.evictable then
        match best with
        | none => some (w, e)
        | some b => if b.2.rank < e.rank then some (w, e) else best
      else best) none

/-- Move every rank of a set by a function. -/
def RecipeSet.mapRank (set : RecipeSet) (f : Nat → Nat) : RecipeSet :=
  set.map (Option.map (fun e => { e with rank := f e.rank }))

/-- Promotion of the entry of rank `r` at way `w` (R38). -/
def RecipeSet.promote (set : RecipeSet) (w : Fin 4) (r : Nat) : RecipeSet :=
  let moved := set.mapRank (fun x => if x < r then x + 1 else x)
  moved.set w (moved[w].map (fun e => { e with rank := 0 }))

/-- Install into an invalid way (R38): every valid entry gains 1, the new entry takes rank 0. -/
def RecipeSet.installFree (set : RecipeSet) (w : Fin 4) (e : Entry) : RecipeSet :=
  (set.mapRank (· + 1)).set w (some { e with rank := 0 })

/-- Install over a victim, or in place, of rank `v` (R38): ranks below `v` gain 1, the new entry takes rank 0. -/
def RecipeSet.installOver (set : RecipeSet) (w : Fin 4) (v : Nat) (e : Entry) : RecipeSet :=
  (set.mapRank (fun x => if x < v then x + 1 else x)).set w (some { e with rank := 0 })

/-- Drop of the entry of rank `d` (R38): ranks above `d` lose 1. -/
def RecipeSet.drop (set : RecipeSet) (w : Fin 4) (d : Nat) : RecipeSet :=
  (set.mapRank (fun x => if d < x then x - 1 else x)).set w none

/-- A newly installed entry (R44): lock count 0, statistics 0, rank 0. -/
def Entry.fresh (r : Recipe) (pinned : Bool) : Entry := ⟨r, pinned, 0, 0, 0, 0⟩

/-- An entry is dirty when its tests or its fails is nonzero (R37). -/
def Entry.dirty (e : Entry) : Bool := e.tests != 0 || e.fails != 0

namespace State

/-- The entry at a set and way. -/
def entry (s : State) (set : Fin 8) (way : Fin 4) : Option Entry := s.table[set][way]

/-- A lookup by variant (R39): set, way and entry of a hit. -/
def lookup (s : State) (variant : Nat) : Option (Fin 8 × Fin 4 × Entry) :=
  let i := setIndex variant
  match RecipeSet.find s.table[i] variant with
  | none => none
  | some w => (s.table[i][w]).map (fun e => (i, w, e))

/-- Replace a set of the table. -/
def setSet (s : State) (i : Fin 8) (set : RecipeSet) : State := { s with table := s.table.set i set }

/-- Change the entry at a set and way. -/
def modEntry (s : State) (i : Fin 8) (w : Fin 4) (f : Entry → Entry) : State :=
  s.setSet i (s.table[i].set w (s.table[i][w].map f))

/-- Retirement of a body (R42): a dirty entry's statistics are written back, saturating, and NRT is given. -/
def retire (s : State) (e : Entry) : State :=
  if e.dirty then
    (s.countGlobal (fun c =>
      { c with retiredTests := satAdd c.retiredTests e.tests, retiredFails := satAdd c.retiredFails e.fails })).giveNotice
      (.nrt e.recipe.variant e.recipe.revision e.tests e.fails)
  else s

end State

end Sys2Proof.Machine
end

