-- ==== Sys2Proof/Machine/Sequencer.lean ====
section
/-! DEFINITION. The Station Sequencer's operations (R5 to R15, R52 to R67, R158 to R168): deposit, entry to COMPLETING,
leaving RUNNING, entry to STOPPING, step begin and end, the chain end, and failed outcomes. -/

namespace Sys2Proof.Machine

open Sys2Proof

/-! ### Verdict (R164) -/

/-- The verdict composed from a closed record's own fields (R164). -/
def Record.compose (r : Record) : Verdict :=
  if r.cause.isSome then .aborted
  else if r.steps.any (fun x => x.outcome == .failed) || r.groups.any (fun x => x.outcome == .fail)
      || r.leaks.any (fun x => x.outcome.failed) || r.checks.any (fun x => !x.pass) then .fail
  else if r.groups.any (fun x => x.outcome == .incomplete || x.outcome == .notMeasured || x.outcome == .notCompleted)
      || r.leaks.any (fun x => x.outcome == .incomplete) then .incomplete
  else .pass

namespace State

/-! ### Deposit (R13, R167) -/

/-- The next record number after `n`: EXHAUSTED after 4,294,967,295 (R167). -/
def numberAfter (n : Nat) : Option Nat := if n = 4294967295 then none else some (n + 1)

/-- The station's interval counter for the verdict goes up by 1 (R13, R174). -/
def countVerdict (s : State) (st : Station) (v : Verdict) : State :=
  s.countStation st (fun c =>
    match v with
    | .pass => { c with passed := satAdd c.passed 1 }
    | .fail => { c with failed := satAdd c.failed 1 }
    | .incomplete => { c with incomplete := satAdd c.incomplete 1 }
    | .aborted => { c with aborted := satAdd c.aborted 1 })

/-- The recipe reference is settled at deposit (R13): a TABLE entry's lock goes down and its statistics up; a transient
recipe's slot is emptied. -/
def settleRecipe (s : State) (st : Station) (ref : RecipeRef) (v : Verdict) : State :=
  match ref with
  | .table set way =>
    s.modEntry set way (fun e =>
      { e with lock := e.lock - 1, tests := satAdd e.tests 1
               fails := if v = .fail then satAdd e.fails 1 else e.fails })
  | .transient => s.modCtx st (fun c => { c with privateSlot := none })

/-- The store takes a station's closed record (R13, R167): it is numbered and appended, the station goes to DONE, the
recipe reference and the verdict counter are settled, and NST is given. -/
def depositStation (s : State) (st : Station) : State :=
  match s.store.next, (s.ctx st).record, (s.ctx st).test with
  | some n, some r, some t =>
    let v := r.verdict.getD .pass
    let stored := { s with store := { s.store with
      records := s.store.records ++ [{ r with number := some n }], next := numberAfter n } }
    let done := (stored.modCtx st (fun c =>
      { c with record := none, test := c.test.map (fun t => { t with number := some n }) })).setState st .done
    ((done.settleRecipe st t.ref v).countVerdict st v).giveNotice (.nst st .done t.cause (some (v, n)))
  | _, _, _ => s

/-- The head of the deposit queue deposits, leaving the queue, unless the numbering is exhausted (R167, R170). -/
def depositHead (s : State) : State :=
  match s.store.deposit, s.store.next with
  | st :: rest, some _ => ({ s with store := { s.store with deposit := rest } } : State).depositStation st
  | _, _ => s

/-! ### Entry to COMPLETING (R12, R166) -/

/-- The record is closed (R162): end time, then the verdict from its own fields. -/
def closeRecord (s : State) (st : Station) : State :=
  s.modRecord st (fun r => { r with endTime := some s.now, verdict := some r.compose })

/-- The Result Store is offered the record (R166): deposited at once when there is room, nobody waits and a number is
left; otherwise the station joins the tail of the deposit queue. -/
def offerRecord (s : State) (st : Station) : State :=
  if s.store.records.length < 48 ∧ s.store.deposit = [] ∧ s.store.next.isSome then s.depositStation st
  else { s with store := { s.store with deposit := s.store.deposit ++ [st] } }

/-- Entry to COMPLETING (R12) but for the offer: a VENT still held ends (R141), the record is closed, the drive goes off
(R70), the state changes. -/
def enterCompleting (s : State) (st : Station) : State :=
  let s := ((s.leakClose st).closeRecord st).modDrive st (fun _ => Drive.off)
  (s.modCtx st (fun c => { c with step := none, stopStart := none })).setState st .completing

/-! ### Leaving RUNNING (R10, R54) -/

/-- The step in progress is closed in the record (R54): CUT_SHORT, but DONE for a LEAK step in its VENT phase. -/
def closeStep (s : State) (st : Station) : State :=
  match (s.ctx st).step with
  | none => s
  | some x =>
    let e : StepEntry :=
      if x.spec = .leak ∧ (s.circuit st).phase = .vent then ⟨x.index, .leak, .done, none⟩
      else ⟨x.index, x.spec.kind, .failed, some .cutShort⟩
    (s.addStepEntry st e).modCtx st (fun c => { c with step := none })

/-- What a station gives up on leaving RUNNING, but for its leak circuit (R10): the step is closed, the noise groups are
settled. -/
def leaveRunning (s : State) (st : Station) : State := (s.closeStep st).noiseExit st

/-- The drive at entry to STOPPING with the enable on (R71): target 0 at the line stop rate, the torque limit kept. -/
def stopDrive (s : State) (st : Station) : State :=
  s.modDrive st (fun d => { d with target := 0, rate := s.config.stopRate, standstill := 0 })

/-- A RUNNING station goes to STOPPING (R7, R8, R10, R71): with an abort cause or without, the drive ramping down or, for a
drive fault, dropped. NST is given when there is a cause (R5). -/
def enterStopping (s : State) (st : Station) (cause : Option AbortCause) (drop : Bool) : State :=
  let s := (s.leaveRunning st).leakExit st
  let s := (s.modCtx st (fun c => { c with
    stopStart := some s.now
    test := c.test.map (fun t => { t with cause := cause })
    record := c.record.map (fun r => { r with cause := cause }) })).setState st .stopping
  let s := if drop then s.modDrive st (fun _ => Drive.off) else s.stopDrive st
  if cause.isSome then s.giveNotice (.nst st .stopping cause none) else s

/-- The chain is at its end (R6): straight to COMPLETING when the setpoint is zero and the axle stands, else STOPPING. -/
def chainEnd (s : State) (st : Station) : State :=
  if s.drive[st].setpoint = 0 ∧ s.atStandstill st then
    ((s.leaveRunning st).enterCompleting st).offerRecord st
  else s.enterStopping st none false

/-! ### Steps (R52, R53, R56, R59, R60, R67) -/

/-- The first phase of a step (R55). -/
def firstPhase : StepSpec → StepPhase
  | .ramp .. => .ramping
  | .dwell .. => .timed
  | .gate .. => .waiting
  | .check .. => .averaging 0 0
  | .leak => .leak

/-- A step begins at this event (R52): RAMP gives the drive its target, rate and torque limit (R56); a window consults the
Noise Analyser (R60); LEAK is handed to the Leak Tester (R67). -/
def beginStep (s : State) (st : Station) (index : Nat) (spec : StepSpec) : State :=
  let s := s.modCtx st (fun c => { c with step := some ⟨index, spec, firstPhase spec, s.now, false⟩ })
  match spec with
  | .ramp target rate torque _ _ _ =>
    s.modDrive st (fun d => { d with target := target * 100, rate := rate, torqueLimit := torque })
  | .dwell _ (some g) _ _ => s.windowStart st g
  | .dwell _ none _ _ => s
  | .gate .. => s
  | .check .. => s
  | .leak => s.beginLeak st index

/-- The step in progress ends with an outcome: its entry is appended and no step is in progress (R53). -/
def finishStep (s : State) (st : Station) (o : StepOutcome) (c : Option StepCause) : State :=
  match (s.ctx st).step with
  | none => s
  | some x => (s.addStepEntry st ⟨x.index, x.spec.kind, o, c⟩).modCtx st (fun c => { c with step := none })

/-- After step `index`: the next step of the chain begins, or the chain is at its end (R52). -/
def nextStep (s : State) (st : Station) (index : Nat) : State :=
  match (s.recipe st).bind (fun r => r.steps[index]?) with
  | some spec => s.beginStep st (index + 1) spec
  | none => s.chainEnd st

/-- The step in progress ends DONE, TIMED_OUT or SKIPPED, and the chain goes on at this event (R52). -/
def endStep (s : State) (st : Station) (o : StepOutcome) : State :=
  match (s.ctx st).step with
  | none => s
  | some x => (s.finishStep st o none).nextStep st x.index

/-- The step in progress ends FAILED with its cause, and the station goes to STOPPING without an abort cause (R7). -/
def failStep (s : State) (st : Station) (c : StepCause) : State :=
  (s.finishStep st .failed (some c)).enterStopping st none false

/-- A failed outcome of a RUNNING station under stop-on-fail (R7): the station goes to STOPPING without an abort cause. -/
def failedOutcome (s : State) (st : Station) : State :=
  if s.stateOf st = .running ∧ s.stopOnFail st then s.enterStopping st none false else s

/-- A window in EXTENDED ends its step DONE (R61), when the station is still in it. -/
def endExtended (s : State) (st : Station) : State :=
  match (s.ctx st).step with
  | some ⟨_, _, .extended _, _, _⟩ => s.endStep st .done
  | _ => s

/-- The step in progress is a window of group `g` in EXTENDED (R61). -/
def inExtended (s : State) (st : Station) (g : Nat) : Bool :=
  match (s.ctx st).step with
  | some ⟨_, .dwell _ (some h) _ _, .extended _, _, _⟩ => h == g
  | _ => false

/-! ### Abort causes (R8, R9) -/

/-- An alarm of a watched station quantity reaches the Sequencer (R88): in RUNNING the abort cause, in STOPPING a remark. -/
def alarm (s : State) (st : Station) (q : StQuantity) (k : FlagKind) : State :=
  match s.stateOf st with
  | .running => s.enterStopping st (some (.monitorAlarm q k)) false
  | .stopping => s.remark st (.alarm q k)
  | .off | .idle | .completing | .done => s

/-- A warning of a watched station quantity reaches the Sequencer (R89): a remark in RUNNING and STOPPING. -/
def warn (s : State) (st : Station) (q : StQuantity) (k : FlagKind) : State :=
  match s.stateOf st with
  | .running | .stopping => s.remark st (.warning q k)
  | .off | .idle | .completing | .done => s

/-- A drive fault is reported (R73): only while the enable is on. In RUNNING it is the abort cause; in STOPPING the enable
is dropped and a remark added. -/
def driveFaultReport (s : State) (st : Station) : State :=
  if s.drive[st].enable then
    match s.stateOf st with
    | .running => s.enterStopping st (some .driveFault) true
    | .stopping =>
      (s.modDrive st (fun d => { Drive.off with standstill := d.standstill })).remark st .driveFault
    | .off | .idle | .completing | .done => s
  else s

/-- The emergency stop meets one station (R15): a RUNNING or STOPPING station goes straight to COMPLETING with ESTOP as
its cause unless it has one; NST is given before the record is offered. -/
def estopStation (s : State) (st : Station) : State :=
  match s.stateOf st with
  | .running | .stopping =>
    let s := if s.stateOf st = .running then s.leaveRunning st else s
    let s := (s.leakClose st).modCtx st (fun c => { c with
      test := c.test.map (fun t => { t with cause := some (t.cause.getD .estop) })
      record := c.record.map (fun r => { r with cause := some (r.cause.getD .estop) }) })
    let s := s.enterCompleting st
    (s.giveNotice (.nst st .completing ((s.ctx st).test.bind TestCtx.cause) none)).offerRecord st
  | .off | .idle | .completing | .done => s

end State

end Sys2Proof.Machine
end

