-- ==== Sys2Proof/Machine/Conditioning.lean ====
section
/-! DEFINITION. Channel Conditioning (R146 to R155): the conditioned values of the three channels, what the Monitor gathers
of the accelerometer between VIB samples (R78), and CHN. -/

namespace Sys2Proof.Machine

open Sys2Proof

/-! ### Conditioned values (R147 to R152) -/

/-- The value of an analogue sensor, or `none` for one of its three reports of failure (R79, R147). -/
def Reading.valid : Reading → Option Int
  | .value v => some v
  | .openCircuit | .shortCircuit | .noData => none

/-- The accelerometer reports open, short or no data (R147). -/
def AccelReading.faulty : AccelReading → Bool
  | .value _ => false
  | .openCircuit | .shortCircuit | .noData => true

/-- What a LIVE entry passes of the accelerometer: its value, or −32,768 for a reported failure (R147). -/
def AccelReading.live : AccelReading → Int
  | .value v => v.toInt
  | .openCircuit | .shortCircuit | .noData => -32768

/-- The tone at a shaft bin position (R150). -/
def toneValue (order amplitude phase bin : Nat) : Int :=
  roundDiv ((amplitude : Int) * sine ((order * bin + phase) % 128)) 32767

/-- The negation of R152. -/
def invertAccel (v : Int) : Int := if v = -32768 then 32767 else -v

/-- The shaft bin position: the line position divided by 4 and truncated (R149). -/
def Encoder.bin (e : Encoder) : Nat := e.pos.val / 4

/-- The value an ACCEL entry's mode gives, before inversion (R147, R148, R150). -/
def AccelMode.value (m : AccelMode) (bin : Nat) (r : AccelReading) : Int :=
  match m with
  | .live => AccelReading.live r
  | .fixed c => c
  | .pattern o a p => toneValue o a p bin

/-- The conditioned accelerometer value of an entry (R147 to R152). -/
def Conditioning.accelValue (c : Conditioning) (bin : Nat) (r : AccelReading) : Int :=
  if c.invert then invertAccel (c.accel.value bin r) else c.accel.value bin r

/-- The decay pattern's value (R151): `t` ms after the SETTLE phase start (log entry 22). -/
def decayValue (testPressure rate t : Nat) : Int := roundDiv ((testPressure : Int) * 1000 - (rate * t : Nat)) 1000

/-- The pressure a decay pattern gives in a leak phase (R151). -/
def patternPressure (c : LeakCircuit) (testPressure rate : Nat) (now : LineTime) : Int :=
  match c.phase with
  | .none | .standstillWait | .vent => 0
  | .waitSupply | .fill => testPressure
  | .settle | .measure => decayValue testPressure rate (elapsed (c.settleStart.getD now) now)

namespace State

/-- The station's conditioned accelerometer value at this instant (R146). -/
def accelValue (s : State) (st : Station) (r : AccelReading) : Int := s.cond[st].accelValue s.enc[st].bin r

/-- The station's conditioned leak pressure at this instant (R147, R148, R151); `none` for an invalid sample. -/
def pressValue (s : State) (st : Station) (r : Reading) : Option Int :=
  match s.cond[st].press with
  | .live => Reading.valid r
  | .fixed c => some c
  | .pattern rate =>
    some (patternPressure (s.circuit st) (((s.leakSpec st).map LeakSpec.testPressure).getD 0) rate s.now)

/-- The station's conditioned leak air temperature at this instant (R147, R148); `none` for an invalid sample. -/
def tempValue (s : State) (st : Station) (r : Reading) : Option Int :=
  match s.cond[st].temp with
  | .live => Reading.valid r
  | .fixed c => some c

/-! ### What VIB gathers (R78, R79) -/

/-- Change what the Monitor gathers for a station's VIB. -/
def modVib (s : State) (st : Station) (f : VibGather → VibGather) : State :=
  { s with mon := { s.mon with vib := s.mon.vib.upd st f } }

/-- The Monitor sees the accelerometer at an instant: the magnitude of its conditioned value, and a reported failure. -/
def seeAccel (s : State) (st : Station) (r : AccelReading) : State :=
  s.modVib st (fun g => ⟨max g.peak (s.accelValue st r).natAbs, g.fault || AccelReading.faulty r⟩)

/-- The magnitude that holds from an instant on whatever the sensor gives: that of a FIXED or PATTERN entry's present
value; 0 for a LIVE entry, whose values the sensor brings (log entry 18). -/
def standingMagnitude (s : State) (st : Station) : Nat :=
  match s.cond[st].accel with
  | .live => 0
  | .fixed _ | .pattern _ _ _ => (s.accelValue st .noData).natAbs

end State

/-! ### CHN (R154, R155) -/

/-- Check 2 of CHN (R154) and the entry it asks for: named channel and mode, the mode's parameters in the ranges of R146,
and an invert byte that fits the channel (R204). -/
def Conditioning.change (c : Conditioning) (f : ChnFields) : Option Conditioning :=
  match f.channel.toNat with
  | 1 => do
    let inv ← yesNoOf f.invert
    match f.mode.toNat with
    | 0 => some { c with accel := .live, invert := inv }
    | 1 => do
      let x ← withinInt (-32768) 32767 f.constant.toInt
      some { c with accel := .fixed x, invert := inv }
    | 2 => do
      let o ← within 1 63 f.toneOrder.toNat
      let a ← within 1 16000 f.toneAmplitude.toNat
      let p ← within 0 127 f.tonePhase.toNat
      some { c with accel := .pattern o a p, invert := inv }
    | _ => none
  | 2 =>
    if f.invert ≠ 0xFF then none
    else match f.mode.toNat with
      | 0 => some { c with press := .live }
      | 1 => do
        let x ← withinInt (-50000) 250000 f.constant.toInt
        some { c with press := .fixed x }
      | 2 => do
        let r ← within 1 5000 f.decayRate.toNat
        some { c with press := .pattern r }
      | _ => none
  | 3 =>
    if f.invert ≠ 0xFF then none
    else match f.mode.toNat with
      | 0 => some { c with temp := .live }
      | 1 => do
        let x ← withinInt (-2000) 8000 f.constant.toInt
        some { c with temp := .fixed x }
      | _ => none
  | _ => none

/-- The station's entries become `c` (R154, R155); a changed ACCEL entry begins what VIB gathers anew, since the next VIB
sample comes from the new entry (log entry 18). -/
def State.setConditioning (s : State) (st : Station) (c : Conditioning) : State :=
  let changed := s.cond[st].accel != c.accel || s.cond[st].invert != c.invert
  let s := { s with cond := s.cond.upd st (fun _ => c) }
  if changed then s.modVib st (fun g => ⟨s.standingMagnitude st, g.fault⟩) else s

/-- CHN's rule (R154). -/
def serveChn (f : ChnFields) (s : State) : State × List Byte :=
  withStation f.station s fun st =>
    match s.cond[st].change f with
    | none => refuse s .badValue
    | some c =>
      match s.stateOf st with
      | .running | .stopping | .completing => refuse s .state
      | .off | .idle | .done =>
        let s := s.setConditioning st c
        answer s (stationCode st :: (s.cond[st].bytes ++ [yesNo (s.substituted st)]))

/-- CHN (R154). -/
def execChn (tag : Byte) (f : ChnFields) (s : State) : Result := request 0x38 tag (serveChn f) s

end Sys2Proof.Machine
end

