-- ==== Sys2Proof/Machine/LeakTest.lean ====
section
/-! DEFINITION. The commands of Leak Testing (R122 to R145): STANDSTILL_TIMER_EXPIRY, FILL_TIMER_EXPIRY,
SETTLE_TIMER_EXPIRY, VENT_TIMER_EXPIRY, SUPPLY_GRANT; and what a monitor sample, an alarm and a supply fault do to a leak
step (R125, R131 to R134). -/

namespace Sys2Proof.Machine

open Sys2Proof

namespace State

/-- A leak phase has lasted a time: the timer that phase started has run out. -/
def phaseExpired (s : State) (st : Station) (p : LeakPhase) (ms : Nat) : Bool :=
  (s.circuit st).phase == p && (s.circuit st).phaseStart.any (fun t => ms ≤ elapsed t s.now)

/-- A result is decided and the step goes to VENT; a failed outcome acts last (R139, R7). -/
def decideAndVent (s : State) (st : Station) (r : LeakResult) : State :=
  let s := (s.decideLeak st r).ventAfter st
  if r.outcome.failed then s.failedOutcome st else s

/-- The step is returned to the Sequencer, ending DONE, when the station is RUNNING (R67, R140). -/
def returnLeak (s : State) (st : Station) : State :=
  let s := s.leakRest st
  if s.stateOf st = .running then s.endStep st .done else s

/-! ### The timers -/

/-- The standstill timer expires 10,000 ms after the phase start (R124, R126). -/
def standstillExpiryDue (s : State) (st : Station) : Bool := s.phaseExpired st .standstillWait 10000

/-- The standstill timer's expiry (R126): INCOMPLETE NOT_STANDSTILL, no VENT, the step returned. -/
def standstillExpiry (s : State) (st : Station) : State := (s.decideLeak st (.stopped .notStandstill)).returnLeak st

/-- The fill timer expires (R128, R130). -/
def fillExpiryDue (s : State) (st : Station) : Bool := (s.leakSpec st).any (fun l => s.phaseExpired st .fill l.fillTime)

/-- The fill is judged (R130): FAIL_FILL below the band, OVERPRESSURE above it, else SETTLE; the grant is released. -/
def fillExpiry (s : State) (st : Station) : State :=
  match s.leakSpec st with
  | none => s
  | some l =>
    let p := (s.quantity st .leakPress).held
    if p < l.testPressure - (l.fillTolerance : Int) then s.decideAndVent st ⟨.failFill, none, none⟩
    else if p > l.testPressure + (l.fillTolerance : Int) then s.decideAndVent st (.stopped .overpressure)
    else (s.enterPhase st .settle).releaseGrant st

/-- The settle timer expires (R130, R132). -/
def settleExpiryDue (s : State) (st : Station) : Bool := (s.leakSpec st).any (fun l => s.phaseExpired st .settle l.settleTime)

/-- The settle timer's expiry (R132): MEASURE, both sample counts 0. -/
def settleExpiry (s : State) (st : Station) : State :=
  s.modCircuit st (fun c =>
    ({ c with pCount := 0, tCount := 0, pStart := 0, tStart := 0, pEnd := 0, tEnd := 0 } : LeakCircuit).enter .measure s.now)

/-- The vent timer expires (R140). -/
def ventExpiryDue (s : State) (st : Station) : Bool := (s.leakSpec st).any (fun l => s.phaseExpired st .vent l.ventTime)

end State

/-- STANDSTILL_TIMER_EXPIRY (R126). -/
def execStandstillTimerExpiry (st : Station) (s : State) : Result :=
  eventWhen (fun s => s.standstillExpiryDue st) (fun s => s.standstillExpiry st) s

/-- FILL_TIMER_EXPIRY (R130). -/
def execFillTimerExpiry (st : Station) (s : State) : Result :=
  eventWhen (fun s => s.fillExpiryDue st) (fun s => s.fillExpiry st) s

/-- SETTLE_TIMER_EXPIRY (R132). -/
def execSettleTimerExpiry (st : Station) (s : State) : Result :=
  eventWhen (fun s => s.settleExpiryDue st) (fun s => s.settleExpiry st) s

/-- VENT_TIMER_EXPIRY (R140): the phase becomes none; a RUNNING station's step returns DONE. -/
def execVentTimerExpiry (st : Station) (s : State) : Result :=
  eventWhen (fun s => s.ventExpiryDue st) (fun s => s.returnLeak st) s

/-- SUPPLY_GRANT (R128): the examination of the grant. -/
def execSupplyGrant (s : State) : Result := event State.examineSupply s

namespace State

/-! ### Samples, alarms and supply faults -/

/-- A SPEED sample in STANDSTILL_WAIT (R125): at standstill the station joins the supply wait queue, and the grant is
examined (R127, R128). A sample taken after the phase began is judged even at the phase start's own line time (DEDUCED, log
entry 35). -/
def standstillWaitSample (s : State) (st : Station) : State :=
  if s.atStandstill st then
    let s := s.enterPhase st .waitSupply
    ({ s with leak := { s.leak with queue := s.leak.queue ++ [st] } } : State).examineSupply
  else s

/-- A LEAK_PRESS sample in SETTLE (R132): below the gross drop level decides FAIL_GROSS. -/
def settleSample (s : State) (st : Station) (l : LeakSpec) : State :=
  if (s.quantity st .leakPress).held < l.testPressure - (l.grossDrop : Int) then s.decideAndVent st ⟨.failGross, none, none⟩
  else s

/-- The numbered sample `k` of N adds its held value to the block sums (R133): 1 to 16 to the start, N − 15 to N to the
end. -/
def blockSums (n k : Nat) (x start stop : Int) : Int × Int :=
  (if k ≤ 16 then start + x else start, if n - 15 ≤ k then stop + x else stop)

/-- A LEAK_PRESS or AIR_TEMP sample of MEASURE enters its count and sums (R133); a quantity takes no sample beyond N. -/
def takeLeakSample (c : LeakCircuit) (n : Nat) (q : StQuantity) (x : Int) : LeakCircuit :=
  match q with
  | .leakPress =>
    if c.pCount < n then
      let b := blockSums n (c.pCount + 1) x c.pStart c.pEnd
      { c with pCount := c.pCount + 1, pStart := b.1, pEnd := b.2 }
    else c
  | .airTemp =>
    if c.tCount < n then
      let b := blockSums n (c.tCount + 1) x c.tStart c.tEnd
      { c with tCount := c.tCount + 1, tStart := b.1, tEnd := b.2 }
    else c
  | .oilTemp | .speed | .torque | .vib => c

/-- The end of MEASURE (R133 to R138): the figures, the outcome, VENT. -/
def measureEnd (s : State) (st : Station) (l : LeakSpec) : State :=
  let c := s.circuit st
  let f := leakFigures l s.config.patm c.pStart c.pEnd c.tStart c.tEnd
  s.decideAndVent st ⟨leakOutcome l f.q, none, some f⟩

/-- A LEAK_PRESS or AIR_TEMP sample in MEASURE (R133): the N-th of the second quantity ends it. -/
def measureSample (s : State) (st : Station) (l : LeakSpec) (q : StQuantity) : State :=
  let n := l.samples
  let s := s.modCircuit st (fun c => takeLeakSample c n q (s.quantity st q).held)
  if n ≤ (s.circuit st).pCount ∧ n ≤ (s.circuit st).tCount then s.measureEnd st l else s

/-- A sample of a station quantity meets a LEAK step (R125, R132, R133). -/
def leakSample (s : State) (st : Station) (q : StQuantity) : State :=
  match (s.circuit st).phase, q, s.leakSpec st with
  | .standstillWait, .speed, _ => s.standstillWaitSample st
  | .settle, .leakPress, some l => s.settleSample st l
  | .measure, .leakPress, some l => s.measureSample st l .leakPress
  | .measure, .airTemp, some l => s.measureSample st l .airTemp
  | _, _, _ => s

/-- The Leak Tester receives an alarm latch before the Sequencer (R88, R134): LOST on LEAK_PRESS or AIR_TEMP in MEASURE
decides INCOMPLETE SENSOR. -/
def leakAlarm (s : State) (st : Station) (q : StQuantity) (k : FlagKind) : State :=
  if (q = .leakPress ∨ q = .airTemp) ∧ k = .lost ∧ (s.circuit st).phase = .measure then
    s.decideAndVent st (.stopped .sensor)
  else s

/-- A supply fault (R90, R131): the station in FILL is decided INCOMPLETE SUPPLY and goes to VENT. -/
def supplyFault (s : State) : State :=
  match s.leak.grant with
  | some st => if (s.circuit st).phase = .fill then s.decideAndVent st (.stopped .supply) else s
  | none => s

end State

end Sys2Proof.Machine
end

