-- ==== Sys2Proof/Machine/Steps.lean ====
section
/-! DEFINITION. The commands of Step Chains and the Drive (R52 to R75): DRIVE_UPDATE, DRIVE_FAULT, the step timers
RAMP_TIMEOUT, DWELL_DURATION_EXPIRY, EXTEND_TIMEOUT and GATE_TIMEOUT, STOP_TIMEOUT, and SKG; and what a monitor sample does
to the step in progress (R57, R62, R65). -/

namespace Sys2Proof.Machine

open Sys2Proof

/-! ### The drive -/

/-- One drive update (R69): the setpoint moves toward the target by the rate, and takes it exactly when nearer. -/
def Drive.update (d : Drive) : Drive :=
  let gap := d.target - d.setpoint
  if gap.natAbs ≤ d.rate then { d with setpoint := d.target }
  else if 0 < gap then { d with setpoint := d.setpoint + d.rate }
  else { d with setpoint := d.setpoint - d.rate }

/-- DRIVE_UPDATE (R69): in every station state. -/
def execDriveUpdate (st : Station) (s : State) : Result := .next (s.modDrive st Drive.update)

/-- The drive-fault input changes to a level (R73): becoming active it is reported; its return changes nothing else. -/
def State.driveFaultInput (s : State) (st : Station) (active : Bool) : State :=
  let was := s.pins.driveFault[st]
  let s := { s with pins := { s.pins with driveFault := s.pins.driveFault.upd st (fun _ => active) } }
  if active ∧ !was then s.driveFaultReport st else s

/-- DRIVE_FAULT (R73). -/
def execDriveFault (st : Station) (active : Bool) (s : State) : Result := event (fun s => s.driveFaultInput st active) s

/-! ### Step timers: a timer belongs to the step that started it (R52) -/

/-- The station is RUNNING and its step in progress meets a condition. -/
def State.stepIs (s : State) (st : Station) (p : StepCtx → Bool) : Bool :=
  s.stateOf st == .running && (s.ctx st).step.any p

/-- The RAMP step's timeout expires (R58). -/
def State.rampTimeoutDue (s : State) (st : Station) : Bool :=
  s.stepIs st (fun x => match x.spec with
    | .ramp _ _ _ _ _ timeout => timeout ≤ elapsed x.start s.now
    | .dwell .. | .gate .. | .check .. | .leak => false)

/-- RAMP_TIMEOUT (R58): the step ends FAILED and the station goes to STOPPING. -/
def execRampTimeout (st : Station) (s : State) : Result :=
  eventWhen (fun s => s.rampTimeoutDue st) (fun s => s.failStep st .rampTimeout) s

/-- The DWELL step's duration expires (R59). -/
def State.dwellExpiryDue (s : State) (st : Station) : Bool :=
  s.stepIs st (fun x => match x.spec, x.phase with
    | .dwell duration _ _ _, .timed => duration ≤ elapsed x.start s.now
    | _, _ => false)

/-- A window's group is closed (R98). -/
def State.groupClosed (s : State) (st : Station) (g : Nat) : Bool := (s.line st g).any (fun l => l.status == .closed)

/-- What the duration's end does (R59 to R61): a plain hold ends DONE; a window without extend ends, then the step; a window
with extend ends DONE when its group is closed or it is unmeasured, and goes to EXTENDED otherwise. -/
def State.dwellExpiry (s : State) (st : Station) : State :=
  match (s.ctx st).step with
  | some ⟨i, .dwell _ window extend _, _, _, unmeasured⟩ =>
    match window, extend with
    | none, _ => s.endStep st .done
    | some g, false => (s.windowEnd st g i).endStep st .done
    | some g, true =>
      if s.groupClosed st g ∨ unmeasured then s.endStep st .done
      else s.modStep st (fun x => { x with phase := .extended s.now })
  | _ => s

/-- DWELL_DURATION_EXPIRY (R59). -/
def execDwellDurationExpiry (st : Station) (s : State) : Result :=
  eventWhen (fun s => s.dwellExpiryDue st) (fun s => s.dwellExpiry st) s

/-- The extension timer of a DWELL in EXTENDED expires (R61). -/
def State.extendTimeoutDue (s : State) (st : Station) : Bool :=
  s.stepIs st (fun x => match x.spec, x.phase with
    | .dwell _ _ _ ext, .extended since => ext ≤ elapsed since s.now
    | _, _ => false)

/-- What the extension's end does (R61): the step ends FAILED, the window ends, the station goes to STOPPING. -/
def State.extendTimeout (s : State) (st : Station) : State :=
  match (s.ctx st).step with
  | some ⟨i, .dwell _ (some g) _ _, _, _, _⟩ =>
    ((s.finishStep st .failed (some .extendTimeout)).windowEnd st g i).enterStopping st none false
  | _ => s

/-- EXTEND_TIMEOUT (R61). -/
def execExtendTimeout (st : Station) (s : State) : Result :=
  eventWhen (fun s => s.extendTimeoutDue st) (fun s => s.extendTimeout st) s

/-- The GATE step's timeout expires (R63). -/
def State.gateTimeoutDue (s : State) (st : Station) : Bool :=
  s.stepIs st (fun x => match x.spec with
    | .gate _ _ _ _ timeout _ => timeout ≤ elapsed x.start s.now
    | .ramp .. | .dwell .. | .check .. | .leak => false)

/-- What a GATE's timeout does (R63), by its on-timeout action. -/
def State.gateTimeout (s : State) (st : Station) : State :=
  match (s.ctx st).step with
  | some ⟨_, .gate _ _ _ _ _ .fail, _, _, _⟩ => s.failStep st .gateTimeout
  | some ⟨_, .gate _ _ _ _ _ .proceed, _, _, _⟩ => (s.remark st .gateTimeout).endStep st .timedOut
  | _ => s

/-- GATE_TIMEOUT (R63). -/
def execGateTimeout (st : Station) (s : State) : Result :=
  eventWhen (fun s => s.gateTimeoutDue st) (fun s => s.gateTimeout st) s

/-- The stop timeout expires 30,000 ms after the stopping start time (R72). -/
def State.stopTimeoutDue (s : State) (st : Station) : Bool :=
  s.stateOf st == .stopping && (s.ctx st).stopStart.any (fun t => 30000 ≤ elapsed t s.now)

/-- What the stop timeout does (R11, R72): the enable drops, a remark is added, the station goes to COMPLETING. -/
def State.stopTimeout (s : State) (st : Station) : State :=
  (((s.modDrive st (fun _ => Drive.off)).remark st .stopTimeout).enterCompleting st).offerRecord st

/-- STOP_TIMEOUT (R72). -/
def execStopTimeout (st : Station) (s : State) : Result :=
  eventWhen (fun s => s.stopTimeoutDue st) (fun s => s.stopTimeout st) s

/-! ### SKG (R64) -/

/-- SKG's rule (R64): a RUNNING station's GATE ends SKIPPED with its remark; otherwise NO_GATE. -/
def serveSkg (station : Byte) (s : State) : State × List Byte :=
  withStation station s fun st =>
    match s.stateOf st, (s.ctx st).step with
    | .running, some ⟨i, .gate .., _, _, _⟩ => answer ((s.remark st .gateSkipped).endStep st .skipped) [byteOf i]
    | _, _ => refuse s .noGate

/-- SKG (R64). -/
def execSkg (tag station : Byte) (s : State) : Result := request 0x16 tag (serveSkg station) s

/-! ### A sample of the step's quantity (R57, R62, R65) -/

/-- The RAMP's in-band condition (R57). -/
def State.inBand (s : State) (st : Station) (target : Int) (tolerance : Nat) : Bool :=
  s.drive[st].setpoint == s.drive[st].target && ((s.quantity st .speed).held - target).natAbs ≤ tolerance

/-- A SPEED sample judges a RAMP (R57). -/
def State.rampSample (s : State) (st : Station) (x : StepCtx) (target : Int) (tolerance inBandTime : Nat) : State :=
  if !s.inBand st target tolerance then s.modStep st (fun x => { x with phase := .ramping })
  else
    let since := match x.phase with | .inBand t => t | _ => s.now
    if inBandTime ≤ elapsed since s.now then s.endStep st .done
    else s.modStep st (fun x => { x with phase := .inBand since })

/-- The gate condition at a sample (R62): valid, and at least or at most the gate value. -/
def gateMet (m : QuantityMon) (rel : GateRelation) (value : Int) : Bool :=
  m.lastValid && (match rel with
    | .atLeast => value ≤ m.held
    | .atMost => m.held ≤ value)

/-- A sample of a GATE's quantity (R62). -/
def State.gateSample (s : State) (st : Station) (x : StepCtx) (q : StQuantity) (rel : GateRelation) (value : Int)
    (hold : Nat) : State :=
  if !gateMet (s.quantity st q) rel value then s.modStep st (fun x => { x with phase := .waiting })
  else
    let since := match x.phase with | .holding t => t | _ => s.now
    if hold ≤ elapsed since s.now then s.endStep st .done
    else s.modStep st (fun x => { x with phase := .holding since })

/-- A CHECK's mean judged by its mode (R66). -/
def checkPasses (mode : CheckMode) (mean reference : Int) (tolerance : Nat) : Bool :=
  match mode with
  | .within => (mean - reference).natAbs ≤ tolerance
  | .atLeast => reference ≤ mean
  | .atMost => mean ≤ reference

/-- The number of samples of a CHECK (R65). -/
def checkSamples (averaging : Nat) : Nat := averaging / 10

/-- The n-th sample of a CHECK (R65, R66): the result is appended, the step ends DONE, and a failed check under
stop-on-fail stops the chain (R7). -/
def State.checkAveraged (s : State) (st : Station) (x : StepCtx) (q : StQuantity) (mode : CheckMode) (reference : Int)
    (tolerance n : Nat) (sum : Int) : State :=
  let mean := roundDiv sum n
  let pass := checkPasses mode mean reference tolerance
  let s := s.addCheckResult st ⟨x.index, q, mean, pass⟩
  if !pass ∧ s.stopOnFail st then (s.finishStep st .done none).enterStopping st none false
  else s.endStep st .done

/-- A sample of a CHECK's quantity (R65): the held value is summed, and at the n-th the mean is judged. A sample taken after
the step began is summed even at the step start's own line time (DEDUCED, log entry 35). -/
def State.checkSample (s : State) (st : Station) (x : StepCtx) (q : StQuantity) (averaging : Nat) (mode : CheckMode)
    (reference : Int) (tolerance : Nat) (sum : Int) (count : Nat) : State :=
  let sum := sum + (s.quantity st q).held
  if count + 1 = checkSamples averaging then s.checkAveraged st x q mode reference tolerance (checkSamples averaging) sum
  else s.modStep st (fun x => { x with phase := .averaging sum (count + 1) })

/-- A SPEED sample of a STOPPING station (R71): it counts toward standstill when the setpoint is 0 and the axle stands, and
the twentieth in a row confirms it (R11). -/
def State.stoppingSample (s : State) (st : Station) : State :=
  if s.drive[st].setpoint = 0 ∧ s.atStandstill st then
    let s := s.modDrive st (fun d => { d with standstill := d.standstill + 1 })
    if 20 ≤ s.drive[st].standstill then (s.enterCompleting st).offerRecord st else s
  else s.modDrive st (fun d => { d with standstill := 0 })

end Sys2Proof.Machine
end

