-- ==== Sys2Proof/Machine/Monitoring.lean ====
section
/-! DEFINITION. The commands of Monitoring and Limits (R76 to R94): MONITOR_SAMPLE and the samples that end something
(QUANTITY_LOST, CHECK_AVERAGED, STANDSTILL_CONFIRMED, MEASURE_END), LIM, MSK, RDM, CLF. -/

namespace Sys2Proof

/-- The quantity a sample is of. -/
def SensorInput.quantity : SensorInput → Quantity
  | .oilTemp _ _ => .station .oilTemp
  | .speed _ _ => .station .speed
  | .torque _ _ => .station .torque
  | .vib _ _ _ => .station .vib
  | .leakPress _ _ => .station .leakPress
  | .airTemp _ _ => .station .airTemp
  | .supply _ => .supply

/-- The station and the station quantity a sample is of; `none` for SUPPLY. -/
def SensorInput.target : SensorInput → Option (Station × StQuantity)
  | .oilTemp st _ => some (st, .oilTemp)
  | .speed st _ => some (st, .speed)
  | .torque st _ => some (st, .torque)
  | .vib st _ _ => some (st, .vib)
  | .leakPress st _ => some (st, .leakPress)
  | .airTemp st _ => some (st, .airTemp)
  | .supply _ => none

end Sys2Proof

namespace Sys2Proof.Machine

open Sys2Proof

/-! ### SPEED (R77) -/

/-- The speed of a revolution: 60,000,000 ÷ its period in µs, rounded to nearest, with the sign of the net line count
(R77, R106). The manual states none for a period of 0 µs (log entry 7). -/
def revSpeed (period : Nat) (net : Int) : Int :=
  if period = 0 then Config.zeroPeriodSpeed net else net.sign * roundDiv 60000000 period

/-- SPEED at a sample (R77): 0 with fewer than two index events, with none in the last 500 ms, or with a net line count of
0; else the latest revolution's speed. -/
def Encoder.speed (e : Encoder) (now : Stamp) : Int :=
  match e.last, e.prev with
  | some l, some p =>
    if 500000 < l.usTo now then 0
    else if e.latestNet = 0 then 0
    else revSpeed (p.usTo l) e.latestNet
  | _, _ => 0

namespace State

/-- This moment to the microsecond. -/
def stamp (s : State) : Stamp := ⟨s.clock.now, s.clock.us⟩

/-! ### Taking a sample (R79 to R87) -/

/-- The accelerometer's readings of a VIB sample enter what the Monitor gathers (R78); other samples bring none. -/
def gather (s : State) (x : SensorInput) : State :=
  match x with
  | .vib st now since => (since ++ [now]).foldl (fun s r => s.seeAccel st r) s
  | .oilTemp _ _ | .speed _ _ | .torque _ _ | .leakPress _ _ | .airTemp _ _ | .supply _ => s

/-- The value of a sample, before clamping; `none` for an invalid one (R77 to R79). -/
def sampleValue (s : State) (x : SensorInput) : Option Int :=
  match x with
  | .oilTemp _ r | .torque _ r | .supply r => Reading.valid r
  | .speed st fault => if fault then none else some (s.enc[st].speed s.stamp)
  | .vib st _ _ =>
    if s.cond[st].accel = .live ∧ s.mon.vib[st].fault then none else some s.mon.vib[st].peak
  | .leakPress st r => s.pressValue st r
  | .airTemp st r => s.tempValue st r

/-- After a VIB sample the gathering begins anew (R78). -/
def afterGather (s : State) (x : SensorInput) : State :=
  match x with
  | .vib st _ _ => s.modVib st (fun _ => ⟨s.standingMagnitude st, false⟩)
  | .oilTemp _ _ | .speed _ _ | .torque _ _ | .leakPress _ _ | .airTemp _ _ | .supply _ => s

/-- A station quantity's reference thresholds (R84): those of the station context, or the global ones without a test. -/
def reference (s : State) (st : Station) (q : StQuantity) : Thresholds :=
  match (s.ctx st).test with
  | some t => t.thresholds[q.idx]
  | none => s.mon.globals[(Quantity.station q).idx]

/-- A station quantity is watched (R76). -/
def watched (s : State) (st : Station) (q : StQuantity) : Bool :=
  match q with
  | .oilTemp | .speed | .torque | .vib => s.stateOf st == .running || s.stateOf st == .stopping
  | .leakPress | .airTemp => (s.circuit st).phase.watched

/-- Change what the Monitor holds of a station quantity. -/
def modQuantity (s : State) (st : Station) (q : StQuantity) (f : QuantityMon → QuantityMon) : State :=
  { s with mon := { s.mon with stations := s.mon.stations.upd st (fun v => v.set q.idx (f v[q.idx])) } }

/-- A latch gives its NFL notice when its quantity and kind are unmasked (R91). -/
def flagNotice (s : State) (scope : Option Station) (q : Quantity) (held : Int) (k : FlagKind) : State :=
  if s.mon.masks[q.idx].has k then s else s.giveNotice (.nfl scope q k held s.now)

/-- A latch of a station quantity is handed on (R87 to R91): its notice, then the Leak Tester, then the Sequencer (log entry
16). -/
def handOn (st : Station) (q : StQuantity) (held : Int) (s : State) (k : FlagKind) : State :=
  let s := s.flagNotice (some st) (.station q) held k
  if k.isAlarm then (s.leakAlarm st q k).alarm st q k else s.warn st q k

/-- A sample of a station quantity is held, judged and its latches handed on (R80, R85 to R91). -/
def holdStation (s : State) (st : Station) (q : StQuantity) (v : Option Int) : State :=
  let m := s.quantity st q
  let w := s.watched st q
  let m' := m.sample (v.map (Quantity.station q).clamp) (s.reference st q) w
  (newLatches w m'.current m.latched).foldl (handOn st q m'.held) (s.modQuantity st q (fun _ => m'))

/-- A supply fault begins at a SUPPLY sample (R90): LOW_ALARM or LOST holds that did not hold at the sample before. -/
def supplyFaultBegins (before after : FlagSet) : Bool :=
  (after.lowAlarm && !before.lowAlarm) || (after.lost && !before.lost)

/-- A SUPPLY sample is held and judged, its latches give their notices, a supply fault is handed to the Leak Tester (R90),
and the supply grant is examined (R128). -/
def holdSupply (s : State) (v : Option Int) : State :=
  let m := s.mon.supply
  let m' := m.sample (v.map Quantity.supply.clamp) s.mon.globals[Quantity.supply.idx] true
  let s := (newLatches true m'.current m.latched).foldl (fun s k => s.flagNotice none .supply m'.held k)
    { s with mon := { s.mon with supply := m' } }
  let s := if supplyFaultBegins m.current m'.current then s.supplyFault else s
  s.examineSupply

/-- A sample up to its latches, before the readers of its held value. -/
def takeSample (s : State) (x : SensorInput) : State :=
  let s := s.gather x
  let v := s.sampleValue x
  let s := s.afterGather x
  match x.target with
  | some (st, q) => s.holdStation st q v
  | none => s.holdSupply v

/-! ### The readers of a held value (R57, R62, R65, R71, R125, R132, R133) -/

/-- A sample judges the step in progress. -/
def judgeStep (s : State) (st : Station) (q : StQuantity) : State :=
  match (s.ctx st).step with
  | none => s
  | some x =>
    match x.spec with
    | .ramp target _ _ tolerance inBand _ => if q = .speed then s.rampSample st x target tolerance inBand else s
    | .dwell .. => s
    | .gate gq rel value hold _ _ => if q = gq then s.gateSample st x q rel value hold else s
    | .check cq averaging mode reference tolerance =>
      if q = cq then
        match x.phase with
        | .averaging sum count => s.checkSample st x q averaging mode reference tolerance sum count
        | .ramping | .inBand _ | .timed | .extended _ | .waiting | .holding _ | .leak => s
      else s
    | .leak => s.leakSample st q

/-- The readers of a sample, in the state the station had before it when the sample has not changed that (log entry 17). -/
def readSample (before s : State) (x : SensorInput) : State :=
  match x.target with
  | none => s
  | some (st, q) =>
    match before.stateOf st, s.stateOf st with
    | .running, .running => s.judgeStep st q
    | .stopping, .stopping => if q = .speed then s.stoppingSample st else s
    | _, _ => s

/-- One monitor sample (R80). -/
def sample (s : State) (x : SensorInput) : State := readSample s (s.takeSample x) x

end State

/-- MONITOR_SAMPLE (R80). -/
def execMonitorSample (x : SensorInput) (s : State) : Result := event (fun s => s.sample x) s

/-! ### Samples that end something: the same event, when it is that sample (log entry 3) -/

namespace State

/-- What the Monitor holds of a quantity sampled by `x`. -/
def sampled (s : State) (x : SensorInput) : QuantityMon :=
  match x.target with
  | some (st, q) => s.quantity st q
  | none => s.mon.supply

/-- The sample is invalid and is the tenth in a row (R81). -/
def quantityLostDue (s : State) (x : SensorInput) : Bool :=
  (s.sampled x).invalid == 9 && ((s.gather x).sampleValue x).isNone

/-- The sample is the n-th of the CHECK in progress (R65). -/
def checkAveragedDue (s : State) (x : SensorInput) : Bool :=
  match x.target with
  | none => false
  | some (st, q) =>
    s.stateOf st == .running && (s.takeSample x).stepIs st (fun y =>
      match y.spec, y.phase with
      | .check cq averaging _ _ _, .averaging _ count => q == cq && count + 1 == checkSamples averaging
      | _, _ => false)

/-- The SPEED sample is the twentieth in a row that counts toward a STOPPING station's standstill (R11, R71). -/
def standstillConfirmedDue (s : State) (st : Station) (encoderFault : Bool) : Bool :=
  let t := s.takeSample (.speed st encoderFault)
  s.stateOf st == .stopping && t.stateOf st == .stopping && t.drive[st].setpoint == 0 && t.atStandstill st
    && decide (20 ≤ t.drive[st].standstill + 1)

/-- The sample is the N-th of the second leak quantity of a MEASURE (R133). -/
def measureEndDue (s : State) (x : SensorInput) : Bool :=
  match x.target with
  | none => false
  | some (st, q) =>
    let t := s.takeSample x
    s.stateOf st == .running && t.stepIs st (fun y => y.spec == .leak) && (t.circuit st).phase == .measure
      && (q == .leakPress || q == .airTemp)
      && (t.leakSpec st).any (fun l =>
        let c := takeLeakSample (t.circuit st) l.samples q (t.quantity st q).held
        decide (l.samples ≤ c.pCount ∧ l.samples ≤ c.tCount))

end State

/-- QUANTITY_LOST (R81). -/
def execQuantityLost (x : SensorInput) (s : State) : Result :=
  eventWhen (fun s => s.quantityLostDue x) (fun s => s.sample x) s

/-- CHECK_AVERAGED (R65). -/
def execCheckAveraged (x : SensorInput) (s : State) : Result :=
  eventWhen (fun s => s.checkAveragedDue x) (fun s => s.sample x) s

/-- STANDSTILL_CONFIRMED (R11). -/
def execStandstillConfirmed (st : Station) (encoderFault : Bool) (s : State) : Result :=
  eventWhen (fun s => s.standstillConfirmedDue st encoderFault) (fun s => s.sample (.speed st encoderFault)) s

/-- MEASURE_END (R133). -/
def execMeasureEnd (x : SensorInput) (s : State) : Result :=
  eventWhen (fun s => s.measureEndDue x) (fun s => s.sample x) s

/-! ### LIM (R83) -/

/-- Every item read by `f`, or `none` when one fails. -/
def readAll {α β : Type} (f : α → Option β) : List α → Option (List β)
  | [] => some []
  | a :: rest =>
    match f a, readAll f rest with
    | some b, some bs => some (b :: bs)
    | _, _ => none

/-- A LIM entry: a known quantity, thresholds in its range and in order (R83). -/
def limEntryOf (e : LimEntry) : Option (Quantity × Thresholds) :=
  match quantityOf e.quantity with
  | none => none
  | some q =>
    let t : Thresholds := ⟨e.lowAlarm.toInt, e.lowWarn.toInt, e.highWarn.toInt, e.highAlarm.toInt⟩
    if t.inRange q && t.ordered then some (q, t) else none

/-- The list of a LIM that is taken: 1 to 7 entries, no quantity twice (R83). -/
def limListOf (es : List LimEntry) : Option (List (Quantity × Thresholds)) :=
  match readAll limEntryOf es with
  | some xs => if 1 ≤ xs.length ∧ xs.length ≤ 7 ∧ (xs.map Prod.fst).Nodup then some xs else none
  | none => none

/-- The table with the entries' thresholds. -/
def setLimits (t : ThresholdTable) (xs : List (Quantity × Thresholds)) : ThresholdTable :=
  xs.foldl (fun t x => t.set x.1.idx x.2) t

/-- LIM's rule (R83). -/
def serveLim (es : List LimEntry) (s : State) : State × List Byte :=
  match limListOf es with
  | none => refuse s .badValue
  | some xs =>
    let t := setLimits s.mon.globals xs
    answer { s with mon := { s.mon with globals := t } } (globalTableBytes t)

/-- LIM (R83). -/
def execLim (tag : Byte) (es : List LimEntry) (s : State) : Result := request 0x30 tag (serveLim es) s

/-! ### MSK (R92) -/

/-- A MSK setting: a known quantity and kind, a mask value 0 or 1 (R92, R204). -/
def mskSettingOf (x : MskSetting) : Option (Quantity × FlagKind × Bool) :=
  match quantityOf x.quantity, flagKindOf x.kind, yesNoOf x.mask with
  | some q, some k, some m => some (q, k, m)
  | _, _, _ => none

/-- The list of a MSK that is taken: 1 to 35 settings, no pair twice (R92). -/
def mskListOf (xs : List MskSetting) : Option (List (Quantity × FlagKind × Bool)) :=
  match readAll mskSettingOf xs with
  | some ys => if 1 ≤ ys.length ∧ ys.length ≤ 35 ∧ (ys.map (fun y => (y.1, y.2.1))).Nodup then some ys else none
  | none => none

/-- The table with the settings' masks. -/
def setMasks (t : MaskTable) (ys : List (Quantity × FlagKind × Bool)) : MaskTable :=
  ys.foldl (fun t y => t.set y.1.idx (t[y.1.idx].put y.2.1 y.2.2)) t

/-- MSK's rule (R92). -/
def serveMsk (xs : List MskSetting) (s : State) : State × List Byte :=
  match mskListOf xs with
  | none => refuse s .badValue
  | some ys =>
    let t := setMasks s.mon.masks ys
    answer { s with mon := { s.mon with masks := t } } (maskTableBytes t)

/-- MSK (R92). -/
def execMsk (tag : Byte) (xs : List MskSetting) (s : State) : Result := request 0x31 tag (serveMsk xs) s

/-! ### RDM (R93) -/

/-- A station quantity's line of RDM (R93). -/
def State.stationLine (s : State) (st : Station) (q : StQuantity) : List Byte :=
  monitorLine (s.quantity st q) (s.watched st q) (s.reference st q) (yesNo (s.ctx st).test.isSome)

/-- RDM's rule (R93, R207). -/
def serveRdm (scope : Byte) (s : State) : State × List Byte :=
  match scopeOf scope with
  | .error e => refuse s e
  | .ok (.station st) => answer s (stationCode st :: allStQuantities.flatMap (s.stationLine st))
  | .ok .global =>
    answer s (0 :: (monitorLine s.mon.supply true s.mon.globals[Quantity.supply.idx] 0
      ++ globalTableBytes s.mon.globals ++ maskTableBytes s.mon.masks))

/-- RDM (R93). -/
def execRdm (tag : Byte) (scope : Byte) (s : State) : Result := request 0x32 tag (serveRdm scope) s

/-! ### CLF (R94) -/

/-- A pair of a CLF list with known quantity and kind. -/
def flagPairOf (p : FlagPair) : Option (Quantity × FlagKind) :=
  match quantityOf p.quantity, flagKindOf p.kind with
  | some q, some k => some (q, k)
  | _, _ => none

/-- The quantity belongs to the scope (R94). -/
def Scope.admits : Scope → Quantity → Bool
  | .global, .supply | .station _, .station _ => true
  | .global, .station _ | .station _, .supply => false

/-- The pairs of a CLF that is taken: known, of the scope, none twice (R94). -/
def clfListOf (scope : Scope) (ps : List FlagPair) : Option (List (Quantity × FlagKind)) :=
  match readAll flagPairOf ps with
  | some xs => if xs.all (fun x => scope.admits x.1) ∧ xs.Nodup then some xs else none
  | none => none

/-- The latched flags with a list's kinds cleared; an empty list clears them all (R94). -/
def clearNamed (xs : List (Quantity × FlagKind)) (q : Quantity) (f : FlagSet) : FlagSet :=
  if xs = [] then .none
  else (xs.filter (fun x => x.1 = q)).foldl (fun f x => f.put x.2 false) f

namespace State

/-- The named latched flags of a station are cleared (R94). -/
def clearStationFlags (s : State) (st : Station) (xs : List (Quantity × FlagKind)) : State :=
  allStQuantities.foldl
    (fun s q => s.modQuantity st q (fun m => { m with latched := clearNamed xs (.station q) m.latched })) s

/-- The named latched flags of SUPPLY are cleared (R94). -/
def clearSupplyFlags (s : State) (xs : List (Quantity × FlagKind)) : State :=
  { s with mon := { s.mon with supply := { s.mon.supply with latched := clearNamed xs .supply s.mon.supply.latched } } }

end State

/-- CLF's rule (R94). -/
def serveClf (scope : Byte) (ps : List FlagPair) (s : State) : State × List Byte :=
  match scopeOf scope with
  | .error e => refuse s e
  | .ok sc =>
    match clfListOf sc ps with
    | none => refuse s .badValue
    | some xs =>
      match sc with
      | .station st =>
        let s := s.clearStationFlags st xs
        answer s (stationCode st :: allStQuantities.map (fun q => (s.quantity st q).latched.code))
      | .global =>
        let s := s.clearSupplyFlags xs
        answer s [0, s.mon.supply.latched.code]

/-- CLF (R94). -/
def execClf (tag : Byte) (scope : Byte) (ps : List FlagPair) (s : State) : Result :=
  request 0x33 tag (serveClf scope ps) s

end Sys2Proof.Machine
end

