-- ==== Sys2Proof/Machine/Noise.lean ====
section
/-! DEFINITION. The commands of Noise Analysis (R97 to R120): ENCODER_INDEX and the index events that end something
(K_REACHED, GROUP_UNSTEADY), ENCODER_LINE, ENGINE_COMPLETION, ENGINE_GRANT, DEFERRED_CLAIM, ENGINE_WAIT_EXPIRY. -/

namespace Sys2Proof.Machine

open Sys2Proof

/-! ### Judging a revolution (R104, R106) -/

/-- The axle's speed lies within the tolerance of the drive's target in rpm (R106 check 2). -/
def speedFits (speed target : Int) (tolerance : Nat) : Bool := (speed - target).natAbs ≤ tolerance

/-- The torque lies on the flank with at least the flank minimum (R106 check 3). -/
def torqueFits (f : Flank) (torque : Int) (flankMin : Nat) : Bool :=
  match f with
  | .drive => 0 < torque && (flankMin : Int) ≤ torque
  | .coast => torque < 0 && (flankMin : Int) ≤ -torque

/-- No bin sample stands at an end of the accelerometer's range (R106 check 4). -/
def samplesFit (xs : Vector (Option Int) 128) : Bool :=
  xs.toList.all (fun x => x != some (-32768) && x != some 32767)

/-- The net line count is that of exactly one turn (R106 check 1). -/
def countFits (net : Int) : Bool := net == 512 || net == -512

/-- The four checks of R106 in one: the revolution is accepted. -/
def revolutionAccepted (g : GroupSpec) (net : Int) (period : Nat) (target torque : Int) (xs : Vector (Option Int) 128) :
    Bool :=
  countFits net && speedFits (revSpeed period net) (target.tdiv 100) g.tolerance && torqueFits g.flank torque g.flankMin
    && samplesFit xs

/-- An accepted revolution's samples enter the bin sums (R107); a bin without a sample adds 0 (log entry 23). -/
def addSamples (bins : Vector Int 128) (xs : Vector (Option Int) 128) : Vector Int 128 :=
  bins.zipWith (fun b x => b + x.getD 0) xs

/-- A revolution opens (R104, R105): bin 0 takes its sample at the opening index. -/
def Engine.openRevolution (x : Engine) (v : Int) : Engine :=
  { x with revOpen := true, samples := (Vector.replicate 128 none).set 0 (some v) }

/-- A position crossed for the first time within the revolution gives its bin's sample (R105). -/
def Engine.cross (x : Engine) (pos : Fin 512) (v : Int) : Engine :=
  if pos.val % 4 = 0 then
    let b : Fin 128 := ⟨pos.val / 4, by omega⟩
    if x.samples[b].isNone then { x with samples := x.samples.set b (some v) } else x
  else x

/-- The revolution that an index closes, as the engine judges it: the engine, its group's line, and the verdict. -/
structure Judged where
  engine : EngineId
  line : GroupLine
  accepted : Bool
deriving DecidableEq, Repr

/-- The encoder at an index event (R77, R104, R149): the two latest stamps, the net count they bound, and a new count and
position. -/
def Encoder.index (e : Encoder) (t : Stamp) : Encoder :=
  { last := some t, prev := e.last, latestNet := if e.last.isSome then e.net else e.latestNet, net := 0, pos := 0 }

/-- The encoder moves a line (R105, R149); before the first index the position stays 0. -/
def Encoder.line (e : Encoder) (forward : Bool) : Encoder :=
  if e.last.isNone then e
  else if forward then { e with net := e.net + 1, pos := e.pos + 1 }
  else { e with net := e.net - 1, pos := e.pos - 1 }

namespace State

/-- The engine a station holds when it is ACCUMULATING. -/
def accumulating (s : State) (st : Station) : Option EngineId :=
  match s.heldEngine st with
  | some e => if (s.engine e).state = .accumulating then some e else none
  | none => none

/-- The moment of an index event, `us` microseconds into this millisecond (log entry 6). -/
def indexStamp (s : State) (us : Fin 1000) : Stamp := ⟨s.clock.now, max s.clock.us us⟩

/-- The revolution that an index of the station's encoder closes, if an engine judges it (R104, R106). -/
def judged (s : State) (st : Station) (us : Fin 1000) : Option Judged :=
  match s.accumulating st with
  | none => none
  | some e =>
    let x := s.engine e
    match x.revOpen, x.group.bind (s.line st), s.enc[st].last with
    | true, some l, some t =>
      some ⟨e, l, revolutionAccepted l.spec s.enc[st].net (t.usTo (s.indexStamp us)) s.drive[st].target
        (s.quantity st .torque).held x.samples⟩
    | _, _, _ => none

/-- The index reaches the encoder, the clock and the Monitor (R77, R78, R149). -/
def takeIndex (s : State) (st : Station) (us : Fin 1000) (r : AccelReading) : State :=
  let t := s.indexStamp us
  ({ s with clock := { s.clock with us := t.us }, enc := s.enc.upd st (fun e => e.index t) } : State).seeAccel st r

/-- A group closes UNSTEADY (R108): its result is entered, the engine passes on, and a window in EXTENDED ends its step
(R61). -/
def closeUnsteady (s : State) (st : Station) (e : EngineId) (g : Nat) : State :=
  let x := s.engine e
  let ext := s.inExtended st g
  let s := ((s.modGroups st (modLine g (fun l => l.close .incomplete (some .unsteady) none false))).enterGroup st
    ⟨g, .incomplete, some .unsteady, x.accepted, x.discarded, none⟩).freeEngine e
  if ext then s.endExtended st else s

/-- An accepted revolution (R107): added and counted; the K-th takes the engine to COMPUTING, any other opens the next
revolution. -/
def acceptRevolution (s : State) (st : Station) (e : EngineId) (r : AccelReading) : State :=
  let v := s.accelValue st r
  (s.countStation st (fun c => { c with revsAccepted := satAdd c.revsAccepted 1 })).modEngine e (fun x =>
    let x := { x with bins := addSamples x.bins x.samples, accepted := x.accepted + 1 }
    if x.k = some x.accepted then { x with state := .computing s.now, revOpen := false } else x.openRevolution v)

/-- A discarded revolution (R106, R108): counted, ENCODER_FAULTS with it when the line count is wrong; at the discard limit
the group closes, otherwise the next revolution opens. -/
def discardRevolution (s : State) (st : Station) (e : EngineId) (l : GroupLine) (countRight : Bool) (r : AccelReading) :
    State :=
  let v := s.accelValue st r
  let s := (s.countStation st (fun c =>
    { c with revsDiscarded := satAdd c.revsDiscarded 1
             encoderFaults := if countRight then c.encoderFaults else satAdd c.encoderFaults 1 })).modEngine e
    (fun x => { x with discarded := x.discarded + 1 })
  if l.spec.discardLimit ≤ (s.engine e).discarded then s.closeUnsteady st e l.spec.group
  else s.modEngine e (fun x => x.openRevolution v)

/-- An index event of a station's encoder (R104): the encoder and the Monitor, then the engine's judgement of the
revolution it closes, or the opening of the first one after a grant or a resumption. -/
def index (s : State) (st : Station) (us : Fin 1000) (r : AccelReading) : State :=
  let t := s.takeIndex st us r
  match s.judged st us with
  | some j =>
    if j.accepted then t.acceptRevolution st j.engine r
    else t.discardRevolution st j.engine j.line (countFits s.enc[st].net) r
  | none =>
    match s.accumulating st with
    | some e => t.modEngine e (fun x => x.openRevolution (t.accelValue st r))
    | none => t

end State

/-- ENCODER_INDEX (R104). -/
def execEncoderIndex (st : Station) (us : Fin 1000) (r : AccelReading) (s : State) : Result :=
  event (fun s => s.index st us r) s

namespace State

/-- The index accepts the K-th revolution of the engine the station holds (R107). -/
def kReachedDue (s : State) (st : Station) (us : Fin 1000) : Bool :=
  match s.judged st us with
  | some j => j.accepted && (s.engine j.engine).k == some ((s.engine j.engine).accepted + 1)
  | none => false

/-- The index discards the revolution that brings the count to the group's discard limit (R108). -/
def groupUnsteadyDue (s : State) (st : Station) (us : Fin 1000) : Bool :=
  match s.judged st us with
  | some j => !j.accepted && decide (j.line.spec.discardLimit ≤ (s.engine j.engine).discarded + 1)
  | none => false

end State

/-- K_REACHED (R107): an index event, when it is that one (log entry 3). -/
def execKReached (st : Station) (us : Fin 1000) (r : AccelReading) (s : State) : Result :=
  eventWhen (fun s => s.kReachedDue st us) (fun s => s.index st us r) s

/-- GROUP_UNSTEADY (R108): an index event, when it is that one (log entry 3). -/
def execGroupUnsteady (st : Station) (us : Fin 1000) (r : AccelReading) (s : State) : Result :=
  eventWhen (fun s => s.groupUnsteadyDue st us) (fun s => s.index st us r) s

/-! ### The encoder's lines (R105, R149) -/

/-- The encoder reaches a new line position (R105, R149): the shaft position follows, VIB sees the accelerometer (R78), and
an open revolution takes its bin sample. -/
def State.encoderLine (s : State) (st : Station) (forward : Bool) (r : AccelReading) : State :=
  let s := ({ s with enc := s.enc.upd st (fun e => e.line forward) } : State).seeAccel st r
  match s.accumulating st with
  | some e =>
    if (s.engine e).revOpen then s.modEngine e (fun x => x.cross s.enc[st].pos (s.accelValue st r)) else s
  | none => s

/-- ENCODER_LINE (R105). -/
def execEncoderLine (st : Station) (forward : Bool) (r : AccelReading) (s : State) : Result :=
  event (fun s => s.encoderLine st forward r) s

/-! ### Completion (R117, R120) -/

namespace State

/-- A deferred claim is made (R101); refused with a wait limit of 0 in EXTENDED, it ends the step (R61). -/
def deferredClaim (s : State) (st : Station) : State :=
  match s.noise.deferred[st] with
  | none => s
  | some g =>
    let was := (s.ctx st).step.any StepCtx.unmeasured
    let s := (s.setDeferred st none).claimEngine st g
    if !was ∧ (s.ctx st).step.any StepCtx.unmeasured then s.endExtended st else s

/-- The result an engine delivers for its group's line (R116, R117): judged when the group is still open, INCOMPLETE SHORT
when it closed short. -/
def delivered (x : Engine) (l : GroupLine) : GroupResult :=
  let f := groupFigures x.bins x.accepted l.spec.orders
  match l.status with
  | .closed => ⟨l.spec.group, .incomplete, some .short, x.accepted, x.discarded, some f⟩
  | .pending | .opened =>
    ⟨l.spec.group, if figuresPass l.spec f then .pass else .fail, none, x.accepted, x.discarded, some f⟩

/-- The group's line closes with a delivered result, which is appended (R117, R118). -/
def deliver (s : State) (st : Station) (r : GroupResult) : State :=
  (s.modGroups st (modLine r.group (fun l => l.close r.outcome r.cause none true))).addGroupResult st r

/-- The completion of an engine (R117, R120): the result delivered to a holder still RUNNING the test that began it, or
discarded; the engine FREE; a FAIL under stop-on-fail; the queue head; a deferred claim; the end of a step in EXTENDED
(log entry 19). -/
def completion (s : State) (e : EngineId) : State :=
  let x := s.engine e
  match x.holder, x.group.bind (fun g => x.holder.bind (fun st => s.line st g)) with
  | some st, some l =>
    if s.stateOf st = .running ∧ !x.abandoned then
      let r := delivered x l
      let ext := s.inExtended st l.spec.group
      let s := (s.deliver st r).modEngine e Engine.release
      if r.outcome = .fail ∧ s.stopOnFail st then
        let s := if ext then s.finishStep st .done none else s
        (s.enterStopping st none false).passEngine e
      else
        let s := (s.passEngine e).deferredClaim st
        if ext then s.endExtended st else s
    else (s.freeEngine e).deferredClaim st
  | some st, none => (s.freeEngine e).deferredClaim st
  | none, _ => s.freeEngine e

/-- A COMPUTING engine completes 1 to 5 ms after it entered COMPUTING (R117): not before 1 ms. -/
def completionDue (s : State) (e : EngineId) : Bool :=
  match (s.engine e).state with
  | .computing since => 1 ≤ elapsed since s.now
  | .free | .accumulating | .parked => false

end State

/-- ENGINE_COMPLETION (R117). -/
def execEngineCompletion (e : EngineId) (s : State) : Result :=
  eventWhen (fun s => s.completionDue e) (fun s => s.completion e) s

/-- ENGINE_GRANT (R100): a FREE engine goes to the head of the queue. -/
def execEngineGrant (e : EngineId) (s : State) : Result := event (fun s => s.passEngine e) s

namespace State

/-- A deferred claim's time has come (R101): the station is RUNNING and no engine computes for it. -/
def deferredClaimDue (s : State) (st : Station) : Bool :=
  s.stateOf st == .running && s.noise.deferred[st].isSome
    && (match s.heldEngine st with
      | some e => !(s.engine e).isComputing
      | none => true)

end State

/-- DEFERRED_CLAIM (R101). -/
def execDeferredClaim (st : Station) (s : State) : Result :=
  eventWhen (fun s => s.deferredClaimDue st) (fun s => s.deferredClaim st) s

/-! ### The wait limit (R102) -/

namespace State

/-- The station's place in the engine wait queue. -/
def engineWaitOf (s : State) (st : Station) : Option EngineWait := s.noise.queue.find? (fun w => w.station == st)

/-- The station's wait has reached its limit (R102). -/
def engineWaitDue (s : State) (st : Station) : Bool :=
  (s.engineWaitOf st).any (fun w => w.limit ≤ elapsed w.since s.now)

/-- The wait expires (R102, R103): the station leaves the queue, the expiry is counted, the window is unmeasured, and a
step in EXTENDED ends DONE (R61). -/
def engineWaitExpiry (s : State) (st : Station) : State :=
  match s.engineWaitOf st with
  | none => s
  | some w =>
    (((s.dropWait st).countStation st (fun c =>
      { c with engineWaitsExpired := satAdd c.engineWaitsExpired 1 })).unmeasured st w.group).endExtended st

end State

/-- ENGINE_WAIT_EXPIRY (R102). -/
def execEngineWaitExpiry (st : Station) (s : State) : Result :=
  eventWhen (fun s => s.engineWaitDue st) (fun s => s.engineWaitExpiry st) s

end Sys2Proof.Machine
end

