-- ==== Sys2Proof/Machine/Recipes.lean ====
section
/-! DEFINITION. The commands of Recipes and the Recipe Table (R43 to R48): LDR, DRP, PIN, TBL, RRS. -/

namespace Sys2Proof.Machine

open Sys2Proof

/-- LDR's reply fields (R44, R207): set, way, fingerprint, and the retired body's variant and revision. -/
def ldrReply (i : Fin 8) (w : Fin 4) (r : Recipe) (retired : Option Entry) : List Byte :=
  [byteOf i, byteOf w] ++ le16 r.fingerprint ++
    match retired with
    | none => [0, 0, 0, 0]
    | some e => 1 :: (nat16 e.recipe.variant ++ [byteOf e.recipe.revision])

/-- A validated LDR is placed (R43, R44): in place of the variant's own body when its lock count is 0, in the lowest free
way, or over the victim; the departing body is retired first (R42). -/
def placeRecipe (r : Recipe) (s : State) : State × List Byte :=
  let i := setIndex r.variant
  match s.lookup r.variant with
  | some (_, w, e) =>
    if e.lock ≠ 0 then refuse s .recipeInUse
    else
      let s := s.retire e
      answer (s.setSet i (RecipeSet.installOver s.table[i] w e.rank (Entry.fresh r e.pinned))) (ldrReply i w r (some e))
  | none =>
    match RecipeSet.freeWay s.table[i] with
    | some w => answer (s.setSet i (RecipeSet.installFree s.table[i] w (Entry.fresh r false))) (ldrReply i w r none)
    | none =>
      match RecipeSet.victim s.table[i] with
      | some (w, e) =>
        let s := s.retire e
        answer (s.setSet i (RecipeSet.installOver s.table[i] w e.rank (Entry.fresh r false))) (ldrReply i w r (some e))
      | none => refuse s .setFull

/-- LDR's rule (R43): validation, then the placing. -/
def serveLdr (body : List Byte) (s : State) : State × List Byte :=
  match validate body with
  | .error e => (s, [Status.recipeInvalid.code, e.element.code, byteOf e.position])
  | .ok r => placeRecipe r s

/-- LDR (R44): a body whose length disagrees with its header is refused BAD_LENGTH (R204). -/
def execLdr (tag : Byte) (body : List Byte) (s : State) : Result :=
  request 0x20 tag (fun s => if bodyFits body then serveLdr body s else refuse s .badLength) s

/-- DRP, PIN and RRS look up their variant (R39): BAD_VALUE for 0, RECIPE_MISSING on a miss. -/
def withEntry (variant : Word16) (s : State) (f : Fin 8 → Fin 4 → Entry → State × List Byte) : State × List Byte :=
  if variant = 0 then refuse s .badValue
  else
    match s.lookup variant.toNat with
    | none => refuse s .recipeMissing
    | some (i, w, e) => f i w e

/-- DRP's rule (R45): an unlocked entry is retired and made invalid, and the ranks of its set close up. -/
def serveDrp (variant : Word16) (s : State) : State × List Byte :=
  withEntry variant s fun i w e =>
    if e.lock ≠ 0 then refuse s .recipeInUse
    else
      let s := s.retire e
      answer (s.setSet i (RecipeSet.drop s.table[i] w e.rank)) [byteOf i, byteOf w]

/-- DRP (R45). -/
def execDrp (tag : Byte) (variant : Word16) (s : State) : Result := request 0x21 tag (serveDrp variant) s

/-- PIN's rule (R46). -/
def servePin (variant : Word16) (pinned : Byte) (s : State) : State × List Byte :=
  match yesNoOf pinned with
  | none => refuse s .badValue
  | some p =>
    withEntry variant s fun i w _ =>
      answer (s.modEntry i w (fun e => { e with pinned := p })) [byteOf i, byteOf w, yesNo p]

/-- PIN (R46). -/
def execPin (tag : Byte) (variant : Word16) (pinned : Byte) (s : State) : Result :=
  request 0x22 tag (servePin variant pinned) s

/-- One line of TBL (R47, R207). -/
def tableLine (i : Fin 8) (w : Fin 4) (e : Entry) : List Byte :=
  [byteOf i, byteOf w] ++ nat16 e.recipe.variant ++ [byteOf e.recipe.revision, e.recipe.cls.code, yesNo e.pinned,
    byteOf e.lock, byteOf e.rank] ++ le16 e.recipe.fingerprint ++ [yesNo e.dirty]

/-- The valid entries in the order of set and way (R47). -/
def State.tableLines (s : State) : List (List Byte) :=
  allSets.flatMap (fun i => allWays.filterMap (fun w => (s.table[i][w]).map (tableLine i w)))

/-- TBL's rule (R47). -/
def serveTbl (s : State) : State × List Byte := answer s (byteOf s.tableLines.length :: s.tableLines.flatten)

/-- TBL (R47). -/
def execTbl (tag : Byte) (s : State) : Result := request 0x23 tag serveTbl s

/-- RRS's rule (R48): tests and fails as they stood, then both 0. -/
def serveRrs (variant : Word16) (s : State) : State × List Byte :=
  withEntry variant s fun i w e =>
    answer (s.modEntry i w (fun e => { e with tests := 0, fails := 0 }))
      (le16 variant ++ byteOf e.recipe.revision :: (nat16 e.tests ++ nat16 e.fails))

/-- RRS (R48). -/
def execRrs (tag : Byte) (variant : Word16) (s : State) : Result := request 0x24 tag (serveRrs variant) s

end Sys2Proof.Machine
end

