-- ==== Sys2Proof/Machine/Results.lean ====
section
/-! DEFINITION. The commands of Test Records and the Result Store (R165 to R170): DEPOSIT, RDR, RLR. -/

namespace Sys2Proof.Machine

open Sys2Proof

/-- DEPOSIT (R13, R167): the head of the deposit queue deposits when the store has room and a number is left (R166). -/
def execDeposit (s : State) : Result :=
  eventWhen (fun s => decide (s.store.records.length < 48)) State.depositHead s

/-- The store's occupancy (R165). -/
def State.occupancy (s : State) : Byte := byteOf s.store.records.length

/-- A refusal of RDR, which carries the occupancy too (R169, R207). -/
def refuseRdr (s : State) (x : Status) : State × List Byte := (s, [x.code, s.occupancy])

/-- RDR's rule (R169). A selector that is not named is refused BAD_VALUE before the store is looked at (DEDUCED, log entry
34). -/
def serveRdr (selector : Byte) (number : Word32) (s : State) : State × List Byte :=
  if selector ≠ 0 ∧ selector ≠ 1 then refuseRdr s .badValue
  else
    match s.store.records with
    | [] => refuseRdr s .empty
    | oldest :: rest =>
      if selector = 0 then answer s (s.occupancy :: oldest.bytes)
      else
        match (oldest :: rest).find? (fun r => r.number == some number.toNat) with
        | some r => answer s (s.occupancy :: r.bytes)
        | none => refuseRdr s .notFound

/-- RDR (R169). -/
def execRdr (tag : Byte) (selector : Byte) (number : Word32) (s : State) : Result :=
  request 0x40 tag (serveRdr selector number) s

/-- What an RLR's reply says of the deposit it let through: the station and its record number, or zeros (R170, R207). -/
def depositBytes (head : Option Station) (next : Option Nat) : List Byte :=
  match head, next with
  | some st, some n => stationCode st :: nat32 n
  | _, _ => 0 :: nat32 0

/-- RLR's rule (R170): the oldest record goes, and the head of the deposit queue deposits at the same event. -/
def serveRlr (number : Word32) (s : State) : State × List Byte :=
  match s.store.records with
  | [] => refuse s .empty
  | oldest :: rest =>
    if oldest.number ≠ some number.toNat then refuse s .notOldest
    else
      let deposit := depositBytes s.store.deposit.head? s.store.next
      let s := ({ s with store := { s.store with records := rest } } : State).depositHead
      answer s (le32 number ++ s.occupancy :: deposit)

/-- RLR (R170). -/
def execRlr (tag : Byte) (number : Word32) (s : State) : Result := request 0x41 tag (serveRlr number) s

end Sys2Proof.Machine
end

