-- ==== Sys2Proof/Machine/Stations.lean ====
section
/-! DEFINITION. The commands of Test Stations and Their Lifecycle (R15 to R27): POWER_ON_RESET, RESTART, EMERGENCY_STOP,
EMERGENCY_STOP_RELEASE, STT, ABT, REL, ENA, RDS, RST. -/

namespace Sys2Proof.Machine

open Sys2Proof

/-! ### Power-on reset and restart -/

/-- POWER_ON_RESET (R27): every block in its power-on state, with the levels the input pins have at power-on. -/
def execPowerOnReset (pins : PowerOnPins) (s : State) : Result := .next { State.powerOn pins with pending := s.pending }

/-- A station context at the restart (R26): OFF stays OFF, every other station goes to IDLE, no test fields. -/
def StationCtx.restarted (c : StationCtx) : StationCtx :=
  { state := if c.state = .off then .off else .idle, enabled := c.enabled
    test := none, step := none, stopStart := none, record := none, privateSlot := none }

/-- RUNNING, STOPPING or COMPLETING: a test that a restart discards (R26). -/
def StationState.testing : StationState → Bool
  | .running | .stopping | .completing => true
  | .off | .idle | .done => false

/-- The ABORTED count of a discarded test (R26). -/
def countDiscarded (c : StationCtx) (k : StationCounters) : StationCounters :=
  if c.state.testing then { k with aborted := satAdd k.aborted 1 } else k

/-- The Link Interface at the restart (R200): lost-pending is set when the emptied queue held a notice. -/
def Link.restarted (l : Link) : Link :=
  { l.hunt with slot := none, tx := .free, queue := [], lostPending := l.lostPending || !l.queue.isEmpty
                restartPending := false }

/-- The restart (R26, R51, R75, R96, R121, R144, R157, R173, R186, R200): stations to rest, engines, supply and queues
freed, locks 0, every change-of-state flag set; recipes, records, limits, masks, conditioning, counters, line
configuration and line time kept. -/
def State.restart (s : State) : State :=
  { s with
    link := s.link.restarted
    seq := s.seq.map StationCtx.restarted
    drive := Vector.replicate 6 .off
    table := s.table.map (Vector.map (Option.map (fun e => { e with lock := 0 })))
    noise := { engineA := s.noise.engineA.release, engineB := s.noise.engineB.release, queue := []
               groups := Vector.replicate 6 [], deferred := Vector.replicate 6 none }
    leak := .initial
    store := { s.store with deposit := [] }
    counters := { s.counters with
      live := { s.counters.live with stations := s.seq.zipWith countDiscarded s.counters.live.stations }
      changed := Vector.replicate 6 true } }

/-- The RST reply is on the line and its end brings the restart (R25). -/
def State.restartDue (s : State) : Bool := s.link.restartPending && s.link.tx == .reply

/-- RESTART (R26): the event that ends the transmission of the RST reply's last byte. -/
def execRestart (s : State) : Result := eventWhen State.restartDue State.restart s

/-! ### The emergency stop -/

/-- EMERGENCY_STOP (R15): the input becomes active, and the event meets every station in the given order, the stations it
does not name in number order. -/
def execEmergencyStop (order : List Station) (s : State) : Result :=
  eventWhen (fun s => !s.pins.estop)
    (fun s => (order ++ allStations).foldl State.estopStation { s with pins := { s.pins with estop := true } }) s

/-- EMERGENCY_STOP_RELEASE (R16): the input returns to inactive; no station changes. -/
def execEmergencyStopRelease (s : State) : Result := .next { s with pins := { s.pins with estop := false } }

/-! ### STT (R17 to R19) -/

/-- The identity is well formed (R18). -/
def identityFormed (f : SttFields) : Bool :=
  decide (1 ≤ f.text.length ∧ f.text.length ≤ 20) && f.text.all (fun b => 0x20 ≤ b.toNat && b.toNat ≤ 0x7E) && f.variant != 0

/-- The identity's byte sum with its check byte is 0 modulo 256 (R18). -/
def checkByteRight (f : SttFields) : Bool :=
  f.text.foldl (· + ·) (f.checkByte + f.variant.extractLsb' 0 8 + f.variant.extractLsb' 8 8) == 0

/-- Acceptance check 6 (R17): the recipe and its reference, or the refusing reply. -/
def sttRecipe (f : SttFields) (s : State) : Except (List Byte) (Recipe × RecipeRef) :=
  if f.source = 0 then
    match s.lookup f.variant.toNat with
    | none => .error [Status.recipeMissing.code]
    | some (i, w, e) => .ok (e.recipe, .table i w)
  else if f.source = 1 then
    match validate f.body with
    | .error e => .error [Status.recipeInvalid.code, e.element.code, byteOf e.position]
    | .ok r => if r.variant ≠ f.variant.toNat then .error [Status.variantMismatch.code] else .ok (r, .transient)
  else .error [Status.badValue.code]

/-- The group table filled from a recipe, every line PENDING (R98). -/
def Recipe.groupTable (r : Recipe) : List GroupLine :=
  (r.groups.zip r.windows).map (fun x => ⟨x.1, x.2, .pending, none, none, none, false⟩)

namespace State

/-- The latched flags of a station's six quantities are cleared (R19, R94). -/
def clearLatches (s : State) (st : Station) : State :=
  { s with mon := { s.mon with stations := s.mon.stations.upd st (fun v => v.map (fun m => { m with latched := .none })) } }

/-- The recipe is taken (R19): a TABLE entry is locked and promoted; an INLINE body goes to the private slot. -/
def takeRecipe (s : State) (st : Station) (r : Recipe) (ref : RecipeRef) : State :=
  match ref with
  | .table i w =>
    match s.table[i][w] with
    | none => s
    | some e => (s.setSet i (RecipeSet.promote s.table[i] w e.rank)).modEntry i w (fun e => { e with lock := e.lock + 1 })
  | .transient => s.modCtx st (fun c => { c with privateSlot := some r })

/-- A taken STT (R19): latches cleared, thresholds frozen, recipe taken, context and record opened, counted, RUNNING with
the enable on, group table filled, step 1 begun; then a drive-fault input already active is reported (R73). -/
def startTest (s : State) (st : Station) (f : SttFields) (r : Recipe) (ref : RecipeRef) (thr : Vector Thresholds 6) : State :=
  let verification := s.config.mode == .verify || s.substituted st
  let s := (s.clearLatches st).takeRecipe st r ref
  let s := s.modCtx st (fun c => { c with
    test := some ⟨f.testTag, f.text, f.variant.toNat, ref, r, verification, thr, s.now, none, none⟩
    record := some {
      number := none, station := st, testTag := f.testTag, text := f.text, variant := f.variant.toNat
      recipeVariant := r.variant, revision := r.revision, fingerprint := r.fingerprint
      transient := ref == .transient, verification := verification, start := s.now
      endTime := none, verdict := none, cause := none
      steps := [], groups := [], leaks := [], checks := [], remarks := [], remarksFull := false } })
  let s := (s.countStation st (fun c => { c with testsStarted := satAdd c.testsStarted 1 })).setState st .running
  let s := (s.modDrive st (fun _ => { Drive.off with enable := true })).modGroups st (fun _ => r.groupTable)
  let s := match r.steps.head? with
    | some spec => s.beginStep st 1 spec
    | none => s
  if s.pins.driveFault[st] then s.driveFaultReport st else s

end State

/-- STT's checks in their order, then its effect (R17, R19). -/
def serveStt (f : SttFields) (s : State) : State × List Byte :=
  withStation f.station s fun st =>
    if !(s.ctx st).enabled then refuse s .disabled
    else if s.pins.estop then refuse s .estopActive
    else if s.stateOf st ≠ .idle then refuse s .state
    else if !identityFormed f then refuse s .badValue
    else if !checkByteRight f then refuse s .identityCheck
    else
      match sttRecipe f s with
      | .error reply => (s, reply)
      | .ok (r, ref) =>
        if r.cls = .master ∧ s.config.mode = .production then refuse s .mode
        else if s.substituted st ∧ s.config.mode = .production then refuse s .substituted
        else
          let thr := effective s.mon.globals r.overrides
          match firstConflict thr with
          | some q => (s, [Status.limitsConflict.code, q.code])
          | none => answer (s.startTest st f r ref thr) (le32 s.now ++ le16 r.fingerprint)

/-- STT (R19): a payload whose length its source does not admit is refused BAD_LENGTH before the owner sees it (R204,
R206). -/
def execStt (tag : Byte) (f : SttFields) (s : State) : Result :=
  request 0x10 tag (fun s => if sttTailFits f.source f.body then serveStt f s else refuse s .badLength) s

/-! ### ABT, REL, ENA -/

/-- ABT's rule (R21). -/
def serveAbt (station : Byte) (s : State) : State × List Byte :=
  withStation station s fun st =>
    match s.stateOf st with
    | .running =>
      let s := s.enterStopping st (some .hostAbort) false
      answer s [(s.stateOf st).code]
    | .stopping => answer s [(s.stateOf st).code]
    | .off | .idle | .completing | .done => (s, [Status.state.code, (s.stateOf st).code])

/-- ABT (R21). -/
def execAbt (tag station : Byte) (s : State) : Result := request 0x11 tag (serveAbt station) s

/-- A DONE station's test fields become absent (R22), its group table with them (R98). -/
def State.releaseStation (s : State) (st : Station) : State :=
  ((s.modCtx st (fun c => { c with test := none, record := none })).modGroups st (fun _ => [])).setState st .idle

/-- REL's rule (R22). -/
def serveRel (station : Byte) (s : State) : State × List Byte :=
  withStation station s fun st =>
    if s.stateOf st = .done then answer (s.releaseStation st) [] else refuse s .state

/-- REL (R22). -/
def execRel (tag station : Byte) (s : State) : Result := request 0x12 tag (serveRel station) s

/-- ENA's rule (R23): enable value 0 is off, any other on (R204). -/
def serveEna (station enable : Byte) (s : State) : State × List Byte :=
  withStation station s fun st =>
    match s.stateOf st, enable != 0 with
    | .off, true => answer ((s.modCtx st (fun c => { c with enabled := true })).setState st .idle) []
    | .idle, false => answer ((s.modCtx st (fun c => { c with enabled := false })).setState st .off) []
    | .off, false => answer s []
    | .idle, true => answer s []
    | .running, true | .stopping, true | .completing, true | .done, true => answer s []
    | .running, false | .stopping, false | .completing, false | .done, false => refuse s .state

/-- ENA (R23). -/
def execEna (tag station enable : Byte) (s : State) : Result := request 0x13 tag (serveEna station enable) s

/-! ### RDS (R24) -/

/-- The position of a station in a queue, 1 being the head. -/
def placeIn (st : Station) (q : List Station) : Option Nat := (q.findIdx? (· == st)).map (· + 1)

/-- The queue place of a station: queue code and position (R24). -/
def State.queuePlace (s : State) (st : Station) : Byte × Byte :=
  match placeIn st (s.noise.queue.map EngineWait.station), placeIn st s.leak.queue, placeIn st s.store.deposit with
  | some n, _, _ => (1, byteOf n)
  | none, some n, _ => (2, byteOf n)
  | none, none, some n => (3, byteOf n)
  | none, none, none => (0, 0)

/-- The fields of the current step: index, kind, phase, elapsed (R24); zeros without one. -/
def State.stepBytes (s : State) (st : Station) : List Byte :=
  match (s.ctx st).step with
  | none => [0, 0, 0] ++ le32 0
  | some x => [byteOf x.index, x.spec.kind.code, x.phase.code (s.circuit st).phase] ++ le32 (s.now - x.start)

/-- The speed setpoint output's value: the internal setpoint in whole rpm, truncated toward zero (R68). -/
def Drive.rpm (d : Drive) : Int := d.setpoint.tdiv 100

/-- The speed setpoint output of the motor-drive port: 0 while the enable is off (R68). -/
def Drive.setpointOut (d : Drive) : Int := if d.enable then d.rpm else 0

/-- The torque limit output of the motor-drive port: 0 while the enable is off (R68). -/
def Drive.torqueOut (d : Drive) : Nat := if d.enable then d.torqueLimit else 0

/-- RDS's view of a station (R24, R207). -/
def State.stationView (s : State) (st : Station) : List Byte :=
  let c := s.ctx st
  let held := s.heldEngine st
  let place := s.queuePlace st
  [c.state.code, yesNo c.enabled] ++ s.stepBytes st
    ++ int16 s.drive[st].rpm ++ nat16 s.drive[st].torqueOut ++ yesNo s.drive[st].enable
    :: engineCode held
    :: (match held with | some e => byteOf ((s.engine e).group.getD 0xFF) | none => 0xFF)
    :: place.1 :: place.2 :: yesNo (s.leak.grant == some st)
    :: (causeBytes (c.test.bind TestCtx.cause)
      ++ le32 ((c.test.map TestCtx.testTag).getD 0)
      ++ nat32 ((c.test.bind TestCtx.number).getD 0)
      ++ nat16 ((c.test.map TestCtx.variant).getD 0)
      ++ textBytes ((c.test.map TestCtx.text).getD []))

/-- RDS's rule (R24). -/
def serveRds (station : Byte) (s : State) : State × List Byte :=
  withStation station s fun st => answer s (s.stationView st)

/-- RDS (R24). -/
def execRds (tag station : Byte) (s : State) : Result := request 0x14 tag (serveRds station) s

/-! ### RST (R25) -/

/-- RST's rule (R25): OK at once; the restart follows the end of the reply. -/
def serveRst (s : State) : State × List Byte :=
  answer (s.modLink (fun l => { l with restartPending := true })) []

/-- RST (R25). -/
def execRst (tag : Byte) (s : State) : Result := request 0x15 tag serveRst s

end Sys2Proof.Machine
end

