-- ==== Sys2Proof/Machine/Link.lean ====
section
/-! DEFINITION. The commands of The Link (R187 to R201): BYTE_ARRIVAL and the arrivals that end something
(LENGTH_OUT_OF_RANGE, CRC_MISMATCH, FRAME_DISCARDED_BUSY, UNKNOWN_KIND), GAP_TIMER_EXPIRY, TRANSMIT_START, TRANSMIT_END,
IDN, CFG; and the dispatch of a frame to the rule of its message. -/

namespace Sys2Proof.Machine

open Sys2Proof

/-! ### IDN and CFG -/

/-- The link speed in baud (R196). -/
def LinkSpeed.baud : LinkSpeed → Nat
  | .baud115200 => 115200
  | .baud460800 => 460800

/-- IDN's fields (R196): the texts "Gajeno" and "AT-6", the revision letter C, the six counts, line time, link speed, line
configuration. -/
def State.identity (s : State) : List Byte :=
  textBytes [0x47, 0x61, 0x6A, 0x65, 0x6E, 0x6F] ++ textBytes [0x41, 0x54, 0x2D, 0x36]
    ++ [0x43, 6, 2, 8, 4, 48, 16] ++ le32 s.now ++ nat32 (LinkSpeed.baud s.link.speed) ++ s.config.bytes

/-- IDN's rule (R196). -/
def serveIdn (s : State) : State × List Byte := answer s s.identity

/-- IDN (R196). -/
def execIdn (tag : Byte) (s : State) : Result := request 0x01 tag serveIdn s

/-- A line mode's code (R203). -/
def lineModeOf (b : Byte) : Option LineMode := if b = 0 then some .production else if b = 1 then some .verify else none

/-- The six values CFG applies, the numeric ones clamped (R197). -/
def CfgFields.applied (f : CfgFields) (mode : LineMode) : LineConfig :=
  { mode := mode
    patm := clampNat 80000 110000 f.patm.toNat
    stopRate := clampNat 100 5000 f.stopRate.toNat
    standstill := clampNat 1 50 f.standstill.toNat
    waitLimit := clampNat 0 600000 f.waitLimit.toNat
    autoInterval := clampNat 0 3600 f.autoInterval.toNat }

/-- The line configuration is applied; a different auto-snapshot interval restarts or stops the timer (R180, R198). -/
def State.configure (s : State) (c : LineConfig) : State :=
  { s with
    config := c
    counters := if c.autoInterval = s.config.autoInterval then s.counters else s.counters.restartTimer c.autoInterval s.now }

/-- CFG's rule (R198). -/
def serveCfg (f : CfgFields) (s : State) : State × List Byte :=
  match lineModeOf f.mode with
  | none => refuse s .badValue
  | some mode =>
    if mode ≠ s.config.mode ∧ s.anyTesting then refuse s .state
    else
      let c := CfgFields.applied f mode
      answer (s.configure c) c.bytes

/-- CFG (R198). -/
def execCfg (tag : Byte) (f : CfgFields) (s : State) : Result := request 0x02 tag (serveCfg f) s

/-! ### Dispatch (R192) -/

/-- The rule of a request's message, by its owner; an event is no message. -/
def serveCommand : Instr → State → State × List Byte
  | .idn _ => serveIdn
  | .cfg _ f => serveCfg f
  | .stt _ f => serveStt f
  | .abt _ st => serveAbt st
  | .rel _ st => serveRel st
  | .ena _ st e => serveEna st e
  | .rds _ st => serveRds st
  | .rst _ => serveRst
  | .skg _ st => serveSkg st
  | .ldr _ body => serveLdr body
  | .drp _ v => serveDrp v
  | .pin _ v p => servePin v p
  | .tbl _ => serveTbl
  | .rrs _ v => serveRrs v
  | .lim _ es => serveLim es
  | .msk _ xs => serveMsk xs
  | .rdm _ sc => serveRdm sc
  | .clf _ sc ps => serveClf sc ps
  | .chn _ f => serveChn f
  | .rdr _ sel n => serveRdr sel n
  | .rlr _ n => serveRlr n
  | .snp _ => serveSnp
  | .rdn _ => serveRdn
  | .pol _ => servePol
  | .powerOnReset _ | .restart | .emergencyStop _ | .emergencyStopRelease | .driveFault _ _ | .monitorSample _
  | .quantityLost _ | .checkAveraged _ | .standstillConfirmed _ _ | .measureEnd _ | .driveUpdate _
  | .encoderIndex _ _ _ | .kReached _ _ _ | .groupUnsteady _ _ _ | .engineCompletion _ | .engineGrant _
  | .deferredClaim _ | .engineWaitExpiry _ | .rampTimeout _ | .dwellDurationExpiry _ | .extendTimeout _
  | .gateTimeout _ | .stopTimeout _ | .standstillTimerExpiry _ | .fillTimerExpiry _ | .settleTimerExpiry _
  | .ventTimerExpiry _ | .supplyGrant | .deposit | .autoSnapshotExpiry | .gapTimerExpiry | .lengthOutOfRange _
  | .crcMismatch _ | .frameDiscardedBusy _ | .unknownKind _ | .transmitEnd | .transmitStart | .byteArrival _
  | .encoderLine _ _ _ => fun s => refuse s .unknownKind

/-- An executed frame: the Link Interface's two checks in their order, then the owner's rule (R192). A reply BAD_LENGTH is
the status alone for every kind, RDR's too: no owner has seen the request (DEDUCED, log entry 31). -/
def serveFrame (kind tag : Byte) (p : List Byte) (s : State) : State × List Byte :=
  match requestOf kind tag p with
  | none => refuse s .unknownKind
  | some c => if lengthAdmitted kind p then serveCommand c s else refuse s .badLength

/-! ### Receiving (R188 to R191) -/

/-- A length field lies in its range (R187, R188). -/
def lengthFits (n : Nat) : Bool := 2 ≤ n && n ≤ 1018

/-- The bytes a frame's CRC is computed over: its length field, kind, tag and payload (R190). -/
def frameBody (frame : List Byte) : List Byte := frame.take (frame.length - 2)

/-- A complete frame's CRC, high byte first, matches (R190). -/
def frameGood (frame : List Byte) : Bool :=
  crc16 (frameBody frame) == byteAt frame (frame.length - 2) ++ byteAt frame (frame.length - 1)

/-- The payload of a complete frame. -/
def framePayload (frame : List Byte) : List Byte := (frameBody frame).drop 4

/-- The frame that a byte completes (R188), if it does. -/
def Link.completes (l : Link) (b : Byte) : Option (List Byte) :=
  match l.recv, l.expected with
  | .receiving, some n => if l.frame.length + 1 = n + 4 then some (l.frame ++ [b]) else none
  | _, _ => none

/-- The length field that a byte forms (R188), if it does. -/
def Link.formsLength (l : Link) (b : Byte) : Option Nat :=
  match l.recv, l.expected with
  | .receiving, none => if l.frame.length = 1 then some (u16At (l.frame ++ [b]) 0).toNat else none
  | _, _ => none

/-- A byte joins the current frame and starts the gap timer again (R188, R189). -/
def Link.append (l : Link) (b : Byte) (now : LineTime) : Link := { l with frame := l.frame ++ [b], gapStart := some now }

namespace State

/-- The current frame is discarded and counted in FRAMES_BAD (R188, R190). -/
def discardBadFrame (s : State) : State :=
  (s.modLink Link.hunt).countGlobal (fun c => { c with framesBad := satAdd c.framesBad 1 })

/-- A complete frame is judged by its CRC (R190) and, when good, taken (R191). -/
def takeFrame (s : State) (frame : List Byte) : State :=
  if frameGood frame then
    goodFrame (byteAt frame 2) (byteAt frame 3) (serveFrame (byteAt frame 2) (byteAt frame 3) (framePayload frame)) s
  else s.discardBadFrame

/-- A byte arrives (R188). -/
def receive (s : State) (b : Byte) : State :=
  match s.link.recv with
  | .hunting =>
    if b = 0xA5 then
      s.modLink (fun l => { l with recv := .receiving, frame := [], expected := none, gapStart := some s.now })
    else s
  | .receiving =>
    match s.link.completes b, s.link.formsLength b with
    | some frame, _ => s.takeFrame frame
    | none, some n =>
      if lengthFits n then s.modLink (fun l => { l.append b s.now with expected := some n }) else s.discardBadFrame
    | none, none => s.modLink (fun l => l.append b s.now)

end State

/-- BYTE_ARRIVAL (R188). -/
def execByteArrival (b : Byte) (s : State) : Result := .next (s.receive b)

/-! ### Arrivals that end something: the same event, when it is that arrival (log entry 3) -/

namespace State

/-- The byte forms a length outside its range (R188). -/
def lengthOutOfRangeDue (s : State) (b : Byte) : Bool := (s.link.formsLength b).any (fun n => !lengthFits n)

/-- The byte completes a frame whose CRC does not match (R190). -/
def crcMismatchDue (s : State) (b : Byte) : Bool := (s.link.completes b).any (fun f => !frameGood f)

/-- The byte completes a good frame while the reply slot holds a reply (R191). -/
def frameDiscardedBusyDue (s : State) (b : Byte) : Bool :=
  (s.link.completes b).any (fun f => frameGood f && s.link.slot.isSome)

/-- The byte completes a good frame of no request's kind, with the slot empty (R192). -/
def unknownKindDue (s : State) (b : Byte) : Bool :=
  (s.link.completes b).any (fun f =>
    frameGood f && s.link.slot.isNone && (requestOf (byteAt f 2) (byteAt f 3) (framePayload f)).isNone)

end State

/-- LENGTH_OUT_OF_RANGE (R188). -/
def execLengthOutOfRange (b : Byte) (s : State) : Result :=
  eventWhen (fun s => s.lengthOutOfRangeDue b) (fun s => s.receive b) s

/-- CRC_MISMATCH (R190). -/
def execCrcMismatch (b : Byte) (s : State) : Result :=
  eventWhen (fun s => s.crcMismatchDue b) (fun s => s.receive b) s

/-- FRAME_DISCARDED_BUSY (R191). -/
def execFrameDiscardedBusy (b : Byte) (s : State) : Result :=
  eventWhen (fun s => s.frameDiscardedBusyDue b) (fun s => s.receive b) s

/-- UNKNOWN_KIND (R192). -/
def execUnknownKind (b : Byte) (s : State) : Result :=
  eventWhen (fun s => s.unknownKindDue b) (fun s => s.receive b) s

/-! ### The gap timer (R189) -/

/-- The gap timer expires 20 ms after the most recent byte of the current frame (R189). -/
def State.gapTimerDue (s : State) : Bool :=
  s.link.recv == .receiving && s.link.gapStart.any (fun t => 20 ≤ elapsed t s.now)

/-- GAP_TIMER_EXPIRY (R189): the partial frame is discarded, uncounted. -/
def execGapTimerExpiry (s : State) : Result := eventWhen State.gapTimerDue (fun s => s.modLink Link.hunt) s

/-! ### The transmitter (R193) -/

/-- The end of a frame's last byte (R191, R193): a reply leaves the slot, and after the RST reply the part restarts (R25);
otherwise the transmitter, FREE, chooses. -/
def State.transmitEnd (s : State) : State :=
  match s.link.tx with
  | .free => s
  | .reply =>
    if s.link.restartPending then s.restart
    else s.modLink (fun l => ({ l with slot := none, tx := .free } : Link).choose)
  | .notice _ => s.modLink (fun l => ({ l with tx := .free } : Link).choose)

/-- TRANSMIT_END (R193). -/
def execTransmitEnd (s : State) : Result := .next s.transmitEnd

/-- TRANSMIT_START (R193): a FREE transmitter begins the waiting reply, or else the oldest notice. -/
def execTransmitStart (s : State) : Result := .next (s.modLink Link.choose)

end Sys2Proof.Machine
end

