-- ==== Sys2Proof/Machine/Dispatch.lean ====
section
/-! DEFINITION. One arm per command: each calls the command's meaning. -/

namespace Sys2Proof.Machine

open Sys2Proof

def exec (i : Instr) (s : State) : Host.Outcome State Fault Refusal :=
  match i with
  | .powerOnReset pins => Sys2Proof.Machine.execPowerOnReset pins s
  | .restart => Sys2Proof.Machine.execRestart s
  | .emergencyStop order => Sys2Proof.Machine.execEmergencyStop order s
  | .emergencyStopRelease => Sys2Proof.Machine.execEmergencyStopRelease s
  | .driveFault st active => Sys2Proof.Machine.execDriveFault st active s
  | .monitorSample x => Sys2Proof.Machine.execMonitorSample x s
  | .quantityLost x => Sys2Proof.Machine.execQuantityLost x s
  | .checkAveraged x => Sys2Proof.Machine.execCheckAveraged x s
  | .standstillConfirmed st encoderFault => Sys2Proof.Machine.execStandstillConfirmed st encoderFault s
  | .measureEnd x => Sys2Proof.Machine.execMeasureEnd x s
  | .driveUpdate st => Sys2Proof.Machine.execDriveUpdate st s
  | .encoderIndex st us accel => Sys2Proof.Machine.execEncoderIndex st us accel s
  | .kReached st us accel => Sys2Proof.Machine.execKReached st us accel s
  | .groupUnsteady st us accel => Sys2Proof.Machine.execGroupUnsteady st us accel s
  | .engineCompletion e => Sys2Proof.Machine.execEngineCompletion e s
  | .engineGrant e => Sys2Proof.Machine.execEngineGrant e s
  | .deferredClaim st => Sys2Proof.Machine.execDeferredClaim st s
  | .engineWaitExpiry st => Sys2Proof.Machine.execEngineWaitExpiry st s
  | .rampTimeout st => Sys2Proof.Machine.execRampTimeout st s
  | .dwellDurationExpiry st => Sys2Proof.Machine.execDwellDurationExpiry st s
  | .extendTimeout st => Sys2Proof.Machine.execExtendTimeout st s
  | .gateTimeout st => Sys2Proof.Machine.execGateTimeout st s
  | .stopTimeout st => Sys2Proof.Machine.execStopTimeout st s
  | .standstillTimerExpiry st => Sys2Proof.Machine.execStandstillTimerExpiry st s
  | .fillTimerExpiry st => Sys2Proof.Machine.execFillTimerExpiry st s
  | .settleTimerExpiry st => Sys2Proof.Machine.execSettleTimerExpiry st s
  | .ventTimerExpiry st => Sys2Proof.Machine.execVentTimerExpiry st s
  | .supplyGrant => Sys2Proof.Machine.execSupplyGrant s
  | .deposit => Sys2Proof.Machine.execDeposit s
  | .autoSnapshotExpiry => Sys2Proof.Machine.execAutoSnapshotExpiry s
  | .gapTimerExpiry => Sys2Proof.Machine.execGapTimerExpiry s
  | .lengthOutOfRange b => Sys2Proof.Machine.execLengthOutOfRange b s
  | .crcMismatch b => Sys2Proof.Machine.execCrcMismatch b s
  | .frameDiscardedBusy b => Sys2Proof.Machine.execFrameDiscardedBusy b s
  | .unknownKind b => Sys2Proof.Machine.execUnknownKind b s
  | .transmitEnd => Sys2Proof.Machine.execTransmitEnd s
  | .transmitStart => Sys2Proof.Machine.execTransmitStart s
  | .idn tag => Sys2Proof.Machine.execIdn tag s
  | .cfg tag f => Sys2Proof.Machine.execCfg tag f s
  | .stt tag f => Sys2Proof.Machine.execStt tag f s
  | .abt tag station => Sys2Proof.Machine.execAbt tag station s
  | .rel tag station => Sys2Proof.Machine.execRel tag station s
  | .ena tag station enable => Sys2Proof.Machine.execEna tag station enable s
  | .rds tag station => Sys2Proof.Machine.execRds tag station s
  | .rst tag => Sys2Proof.Machine.execRst tag s
  | .skg tag station => Sys2Proof.Machine.execSkg tag station s
  | .ldr tag body => Sys2Proof.Machine.execLdr tag body s
  | .drp tag variant => Sys2Proof.Machine.execDrp tag variant s
  | .pin tag variant pinned => Sys2Proof.Machine.execPin tag variant pinned s
  | .tbl tag => Sys2Proof.Machine.execTbl tag s
  | .rrs tag variant => Sys2Proof.Machine.execRrs tag variant s
  | .lim tag entries => Sys2Proof.Machine.execLim tag entries s
  | .msk tag settings => Sys2Proof.Machine.execMsk tag settings s
  | .rdm tag scope => Sys2Proof.Machine.execRdm tag scope s
  | .clf tag scope pairs => Sys2Proof.Machine.execClf tag scope pairs s
  | .chn tag f => Sys2Proof.Machine.execChn tag f s
  | .rdr tag selector number => Sys2Proof.Machine.execRdr tag selector number s
  | .rlr tag number => Sys2Proof.Machine.execRlr tag number s
  | .snp tag => Sys2Proof.Machine.execSnp tag s
  | .rdn tag => Sys2Proof.Machine.execRdn tag s
  | .pol tag => Sys2Proof.Machine.execPol tag s
  | .byteArrival b => Sys2Proof.Machine.execByteArrival b s
  | .encoderLine st forward accel => Sys2Proof.Machine.execEncoderLine st forward accel s

end Sys2Proof.Machine
end

