-- ==== Sys2Proof/Machine/Timers.lean ====
section
/-! DEFINITION. What the part does when no command waits (R2): it takes an expiry that is due, or else line time runs on by
1 ms (log entry 1). -/

namespace Sys2Proof.Machine

open Sys2Proof

namespace State

/-- A COMPUTING engine has computed for its longest time, 5 ms (R117). -/
def completionForced (s : State) (e : EngineId) : Bool :=
  match (s.engine e).state with
  | .computing since => 5 ≤ elapsed since s.now
  | .free | .accumulating | .parked => false

/-- The expiries that can be due at a station, each with whether it is. -/
def stationExpiries (s : State) (st : Station) : List (Bool × Instr) :=
  [(s.rampTimeoutDue st, .rampTimeout st),
   (s.dwellExpiryDue st, .dwellDurationExpiry st),
   (s.extendTimeoutDue st, .extendTimeout st),
   (s.gateTimeoutDue st, .gateTimeout st),
   (s.stopTimeoutDue st, .stopTimeout st),
   (s.standstillExpiryDue st, .standstillTimerExpiry st),
   (s.fillExpiryDue st, .fillTimerExpiry st),
   (s.settleExpiryDue st, .settleTimerExpiry st),
   (s.ventExpiryDue st, .ventTimerExpiry st),
   (s.engineWaitDue st, .engineWaitExpiry st)]

/-- All expiries, each with whether it is due. -/
def expiries (s : State) : List (Bool × Instr) :=
  [(s.completionForced .a, .engineCompletion .a), (s.completionForced .b, .engineCompletion .b),
   (s.autoSnapshotDue, .autoSnapshotExpiry), (s.gapTimerDue, .gapTimerExpiry)]
    ++ allStations.flatMap s.stationExpiries

/-- The expiry the part takes next when no command waits: the first due in the order above (log entry 1). -/
def nextDue (s : State) : Option Instr := (s.expiries.find? Prod.fst).map Prod.snd

/-- Line time runs on by 1 ms, modulo 2^32 (R2). -/
def tick (s : State) : State := { s with clock := ⟨s.clock.now + 1, 0⟩ }

end State

end Sys2Proof.Machine
end

