-- ==== Sys2Proof/Machine/Step.lean ====
section
/-! DEFINITION. One step of the AT-6, and the queue of waiting commands. -/

namespace Sys2Proof.Machine

open Sys2Proof

/-- The state with other commands waiting. -/
def State.withPending (s : State) (q : List Instr) : State := { s with pending := q }

/-- One step: the command at the front of the queue, taken from it; with none waiting, a due expiry or the next
millisecond (log entry 1). -/
def step (s : State) : Host.Outcome State Fault Refusal :=
  match s.pending with
  | c :: rest => exec c (s.withPending rest)
  | [] =>
    match s.nextDue with
    | some c => exec c s
    | none => .next s.tick

/-- The state with the command a table word spells at the front of its queue; no word spells one (log entry 30). -/
def State.withFetchWord (s : State) (nbits w : Nat) : State :=
  match decodeTableWord nbits w with
  | some c => s.withPending (c :: s.pending)
  | none => s

end Sys2Proof.Machine
end

