-- ==== Sys2Proof/Safety.lean ====
section
/-! DEFINITION. What the statements speak of: the properties that every step keeps, and the words for what a command does
to a station and to the link. -/

namespace Sys2Proof.Machine

open Sys2Proof

/-! ### Properties every step keeps -/

/-- A station's ten counters lie within 0 to 65,535 (R176). -/
def StationCounters.fits (c : StationCounters) : Prop :=
  c.testsStarted ≤ 65535 ∧ c.passed ≤ 65535 ∧ c.failed ≤ 65535 ∧ c.incomplete ≤ 65535 ∧ c.aborted ≤ 65535
    ∧ c.revsAccepted ≤ 65535 ∧ c.revsDiscarded ≤ 65535 ∧ c.encoderFaults ≤ 65535 ∧ c.fillFaults ≤ 65535
    ∧ c.engineWaitsExpired ≤ 65535

/-- The five global counters lie within 0 to 65,535 (R176). -/
def GlobalCounters.fits (c : GlobalCounters) : Prop :=
  c.framesBad ≤ 65535 ∧ c.noticesLost ≤ 65535 ∧ c.supplyGrants ≤ 65535 ∧ c.retiredTests ≤ 65535
    ∧ c.retiredFails ≤ 65535

/-- All 65 counters of a set lie within 0 to 65,535 (R176). -/
def CounterSet.fits (c : CounterSet) : Prop := (∀ st : Station, c.stations[st].fits) ∧ c.globals.fits

/-- The line configuration lies within its ranges (R197). -/
def LineConfig.inRange (c : LineConfig) : Prop :=
  80000 ≤ c.patm ∧ c.patm ≤ 110000 ∧ 100 ≤ c.stopRate ∧ c.stopRate ≤ 5000 ∧ 1 ≤ c.standstill ∧ c.standstill ≤ 50
    ∧ c.waitLimit ≤ 600000 ∧ c.autoInterval ≤ 3600

/-- The bounds the manual sets on what the part holds: live, snapshot and per-recipe counters (R176), the notice queue
(R187), the store (R165), the line configuration (R197), the global threshold table (R82). -/
structure State.Bounded (s : State) : Prop where
  live : s.counters.live.fits
  snapshot : s.counters.snapshot.counters.fits
  recipes : ∀ (i : Fin 8) (w : Fin 4) (e : Entry), s.table[i][w] = some e → e.tests ≤ 65535 ∧ e.fails ≤ 65535
  notices : s.link.queue.length ≤ 16
  records : s.store.records.length ≤ 48
  config : s.config.inRange
  limits : ∀ q : Quantity, s.mon.globals[q.idx].ordered = true ∧ s.mon.globals[q.idx].inRange q = true

/-- A record number below the next one (R165): with the numbering exhausted, any number issued. -/
def numberIssued (next : Option Nat) (k : Nat) : Prop :=
  1 ≤ k ∧ k ≤ 4294967295 ∧ (match next with | none => True | some n => k < n)

/-- Every stored record is numbered, in strictly increasing number from oldest to newest, and every number was issued
before the next one (R165). -/
structure State.Numbered (s : State) : Prop where
  issued : ∀ r ∈ s.store.records, ∃ k, r.number = some k ∧ numberIssued s.store.next k
  rising : s.store.records.Pairwise (fun a b => ∀ j k, a.number = some j → b.number = some k → j < k)
  next : ∀ n, s.store.next = some n → 1 ≤ n ∧ n ≤ 4294967295

/-- A remark list as R160 and R161 keep it: no remark twice, at most 24, and 24 whenever REMARKS_FULL is set. -/
def Record.remarksKept (r : Record) : Prop :=
  r.remarks.Nodup ∧ r.remarks.length ≤ 24 ∧ (r.remarksFull = true → r.remarks.length = 24)

/-- Every record, in progress, closed or stored, keeps its remark list as R160 and R161 say. -/
structure State.RemarksKept (s : State) : Prop where
  inProgress : ∀ (st : Station) (r : Record), (s.ctx st).record = some r → r.remarksKept
  stored : ∀ r ∈ s.store.records, r.remarksKept

/-- The valves of every leak circuit stand as its phase has them (R123). -/
def State.ValvesFollowPhase (s : State) : Prop :=
  ∀ st : Station, (s.circuit st).fillOpen = (s.circuit st).phase.fillOpen
    ∧ (s.circuit st).ventOpen = (s.circuit st).phase.ventOpen

/-- The valid entries of a set, by way. -/
def RecipeSet.entries (x : RecipeSet) : List Entry := allWays.filterMap (fun w => x[w])

/-- The valid entries of every set carry variants of that set, no variant twice (R37), and the age ranks 0 to n − 1 each
once (R38). -/
def State.RanksDense (s : State) : Prop :=
  ∀ i : Fin 8,
    (∀ e ∈ RecipeSet.entries s.table[i], setIndex e.recipe.variant = i)
    ∧ ((RecipeSet.entries s.table[i]).map (fun e => e.recipe.variant)).Nodup
    ∧ ((RecipeSet.entries s.table[i]).map Entry.rank).Perm (List.range (RecipeSet.entries s.table[i]).length)

/-- Each station is where its state has it: a step in progress in RUNNING alone (R52); a leak phase in a LEAK step of a
RUNNING station, or VENT in STOPPING (R122); the supply granted to the one station in FILL (R123), the supply wait queue the
stations in WAIT_SUPPLY, once each (R127); the deposit queue COMPLETING stations, once each (R165). -/
structure State.StationsInPlace (s : State) : Prop where
  step : ∀ st : Station, (s.ctx st).step ≠ none → s.stateOf st = .running
  leak : ∀ st : Station, (s.circuit st).phase ≠ .none →
    (s.stateOf st = .running ∧ ∃ x, (s.ctx st).step = some x ∧ x.spec = .leak ∧ x.phase = .leak)
    ∨ (s.stateOf st = .stopping ∧ (s.circuit st).phase = .vent)
  grant : ∀ st : Station, s.leak.grant = some st ↔ (s.circuit st).phase = .fill
  supply : ∀ st : Station, st ∈ s.leak.queue ↔ (s.circuit st).phase = .waitSupply
  supplyOnce : s.leak.queue.Nodup
  deposit : ∀ st ∈ s.store.deposit, s.stateOf st = .completing
  depositOnce : s.store.deposit.Nodup

/-- Every entry's lock count is the number of stations in RUNNING, STOPPING or COMPLETING whose TABLE recipe reference names
it, and no such reference names an invalid way (R40). -/
def State.LocksCounted (s : State) : Prop :=
  ∀ (i : Fin 8) (w : Fin 4), ((s.table[i][w]).map Entry.lock).getD 0 =
    (allStations.filter (fun st => (s.stateOf st).testing
      && (s.ctx st).test.any (fun c => c.ref == .table i w))).length

/-- Each engine is FREE exactly when no station holds it, with group and K present exactly when one does, and no station holds
both engines (R97). -/
structure State.EnginesHeld (s : State) : Prop where
  free : ∀ e : EngineId, (s.engine e).state = .free ↔ (s.engine e).holder = none
  group : ∀ e : EngineId, (s.engine e).group.isSome = (s.engine e).holder.isSome
  k : ∀ e : EngineId, (s.engine e).k.isSome = (s.engine e).holder.isSome
  once : ∀ st : Station, ¬((s.engine .a).holder = some st ∧ (s.engine .b).holder = some st)

/-! ### Words for what a command does -/

/-- The thresholds that R84's table gives a quantity: each the more restrictive of the global one and the override's, where
there is an override that carries it, and else the global one. -/
def State.resolvedThresholds (s : State) (r : Recipe) (q : StQuantity) : Thresholds :=
  let g := s.mon.globals[(Quantity.station q).idx]
  let o := r.overrides.find? (fun o => o.quantity == q)
  { lowAlarm := (o.bind Override.lowAlarm).elim g.lowAlarm (max g.lowAlarm)
    lowWarn := (o.bind Override.lowWarn).elim g.lowWarn (max g.lowWarn)
    highWarn := (o.bind Override.highWarn).elim g.highWarn (min g.highWarn)
    highAlarm := (o.bind Override.highAlarm).elim g.highAlarm (min g.highAlarm) }

/-- The receiver back in HUNTING at the end of a frame. -/
def State.received (s : State) : State := s.modLink Link.hunt

/-- A reply of this kind, tag and payload placed in the slot, and begun by a FREE transmitter (R192, R193). -/
def State.replies (s : State) (kind tag : Byte) (payload : List Byte) : State :=
  s.modLink (fun l => l.place ⟨kind, tag, payload⟩)

/-- Every block that no station's test owns is as it was: line time, pins, configuration, encoders, conditioning. -/
structure State.SameLine (s t : State) : Prop where
  clock : t.clock = s.clock
  pins : t.pins = s.pins
  config : t.config = s.config
  enc : t.enc = s.enc
  cond : t.cond = s.cond

/-- The other five stations' contexts and drives are as they were. -/
def State.OthersKept (s t : State) (st : Station) : Prop :=
  ∀ j : Station, j ≠ st → t.seq[j] = s.seq[j] ∧ t.drive[j] = s.drive[j]

/-- An event gave these notices, in this order, and the transmitter then made its choice (R193 to R195). -/
def State.GivesNotices (s t : State) (bs : List NoticeBody) : Prop :=
  let u := bs.foldl State.giveNotice s
  t.link = (s.afterNotices u).link ∧ t.counters.live.globals.noticesLost = u.counters.live.globals.noticesLost

/-- A request gave these notices, in this order, and was then answered (R192, R195). -/
def State.AnswersWithNotices (s t : State) (bs : List NoticeBody) (kind tag : Byte) (payload : List Byte) : Prop :=
  let u := bs.foldl State.giveNotice s.received
  t.link = (u.replies kind tag payload).link
    ∧ t.counters.live.globals.noticesLost = u.counters.live.globals.noticesLost

/-- A request retired an entry's body and was then answered (R42): a dirty entry's statistics are added to RETIRED_TESTS and
RETIRED_FAILS, saturating, and its NRT is given; a clean entry's are not, and nothing is given. -/
def State.Retires (s t : State) (e : Entry) (kind tag : Byte) (payload : List Byte) : Prop :=
  let dirty := e.tests ≠ 0 ∨ e.fails ≠ 0
  let g := s.counters.live.globals
  s.AnswersWithNotices t
      (if dirty then [.nrt e.recipe.variant e.recipe.revision e.tests e.fails] else []) kind tag payload
    ∧ t.counters.live.globals.retiredTests = (if dirty then min (g.retiredTests + e.tests) 65535 else g.retiredTests)
    ∧ t.counters.live.globals.retiredFails = (if dirty then min (g.retiredFails + e.fails) 65535 else g.retiredFails)
    ∧ t.counters.live.stations = s.counters.live.stations

/-- The result that a group's line adds to the record when its station leaves RUNNING, if any (R119). -/
def State.exitResult (s : State) (l : GroupLine) : Option GroupResult :=
  let n := match l.engine with
    | some e => ((s.engine e).accepted, (s.engine e).discarded)
    | none => (0, 0)
  match l.status with
  | .pending => none
  | .opened => some (if l.engine.isSome then ⟨l.spec.group, .notCompleted, none, n.1, n.2, none⟩
      else ⟨l.spec.group, .notMeasured, none, 0, 0, none⟩)
  | .closed => if l.entered then none else some ⟨l.spec.group, .incomplete, some .short, n.1, n.2, none⟩

/-- The leak result that a phase adds to the record when its station leaves RUNNING: none once it is decided (R141, R143). -/
def LeakPhase.exitResult : LeakPhase → List LeakResult
  | .none | .vent => []
  | .standstillWait | .waitSupply | .fill | .settle | .measure => [⟨.incomplete, some .notCompleted, Option.none⟩]

/-- The entry that closes a step in progress when its station leaves RUNNING (R54). -/
def State.exitEntry (s : State) (st : Station) (x : StepCtx) : StepEntry :=
  if x.spec = .leak ∧ (s.circuit st).phase = .vent then ⟨x.index, .leak, .done, none⟩
  else ⟨x.index, x.spec.kind, .failed, some .cutShort⟩

/-- Station `st` goes from RUNNING to STOPPING with this abort cause or without one (R7, R8, R10, R71): no step in
progress, the stopping start time this event's, the change-of-state flag set; the drive brought to 0 at the stop rate, or
dropped; the store, the recipes and the Monitor as they were. It gives up what it held (R10): its place in the engine wait
queue and a deferred claim; its engine, but one that still computes, whose result will be discarded; its groups, none left
open or unentered (R119); and, for a station in place in the supply's queue and grant, those and its leak phase, all but a
VENT (R141). -/
structure State.EntersStopping (s t : State) (st : Station) (cause : Option AbortCause) (dropped : Bool) : Prop where
  state : t.stateOf st = .stopping
  start : (t.ctx st).stopStart = some s.now
  step : (t.ctx st).step = none
  test : (t.ctx st).test = (s.ctx st).test.map (fun c => { c with cause := cause })
  cause : (t.ctx st).record.map Record.cause = (s.ctx st).record.map (fun _ => cause)
  drive : t.drive[st] =
    if dropped then Drive.off else { s.drive[st] with target := 0, rate := s.config.stopRate, standstill := 0 }
  changed : t.counters.changed[st] = true
  others : s.OthersKept t st
  line : s.SameLine t
  store : t.store = s.store
  table : t.table = s.table
  monitor : t.mon = s.mon
  engineQueue : ∀ w ∈ t.noise.queue, w.station ≠ st
  deferred : t.noise.deferred[st] = none
  engine : ∀ e : EngineId, s.heldEngine st = some e → (t.engine e).holder = some st →
    (t.engine e).isComputing = true ∧ (t.engine e).abandoned = true
  groups : ∀ l ∈ t.noise.groups[st], l.status ≠ .opened ∧ (l.status = .closed → l.entered = true)
  supply : (s.leak.grant = some st → (s.circuit st).phase = .fill) → (st ∈ s.leak.queue → (s.circuit st).phase = .waitSupply) →
    t.leak.grant ≠ some st ∧ st ∉ t.leak.queue
    ∧ (t.circuit st).phase = (match (s.circuit st).phase with
      | .none | .standstillWait | .waitSupply => .none
      | .fill | .settle | .measure | .vent => .vent)
    ∧ ((s.circuit st).phase ≠ .none → (s.circuit st).phase ≠ .vent →
        (t.circuit st).fillOpen = false ∧ (t.circuit st).ventOpen = true)

/-- The store takes the closed record `r` of station `st`, verdict `v`, behind the records `kept` (R13, R167): it is given
the number `n` and appended, the station goes to DONE, its recipe reference and its verdict counter are settled. -/
structure State.TakesRecord (s t : State) (st : Station) (kept : List Record) (n : Nat) (c : TestCtx) (r : Record)
    (v : Verdict) : Prop where
  records : t.store.records = kept ++ [{ r with number := some n }]
  next : t.store.next = if n = 4294967295 then none else some (n + 1)
  state : t.stateOf st = .done
  record : (t.ctx st).record = none
  test : (t.ctx st).test = some { c with number := some n }
  changed : t.counters.changed[st] = true
  counted : t.counters.live.stations[st] =
    (let k := s.counters.live.stations[st]
     match v with
     | .pass => { k with passed := min (k.passed + 1) 65535 }
     | .fail => { k with failed := min (k.failed + 1) 65535 }
     | .incomplete => { k with incomplete := min (k.incomplete + 1) 65535 }
     | .aborted => { k with aborted := min (k.aborted + 1) 65535 })
  entry : ∀ i w e, c.ref = .table i w → s.table[i][w] = some e → t.table[i][w] = some { e with
    lock := e.lock - 1, tests := min (e.tests + 1) 65535
    fails := if v = .fail then min (e.fails + 1) 65535 else e.fails }
  slot : c.ref = .transient → (t.ctx st).privateSlot = none ∧ t.table = s.table
  others : s.OthersKept t st

/-- The store is offered the closed record `r` of station `st` (R166): with room, nobody waiting and a number left it takes
the record at once; otherwise the station waits in COMPLETING at the tail of the deposit queue, with its record and its
recipe held. -/
structure State.OffersRecord (s t : State) (st : Station) (c : TestCtx) (r : Record) : Prop where
  taken : ∀ n, s.store.next = some n → s.store.records.length < 48 → s.store.deposit = [] →
    s.TakesRecord t st s.store.records n c r r.compose ∧ t.store.deposit = []
  waits : s.store.next = none ∨ 48 ≤ s.store.records.length ∨ s.store.deposit ≠ [] →
    t.store = { s.store with deposit := s.store.deposit ++ [st] } ∧ t.stateOf st = .completing
      ∧ (t.ctx st).record = some r ∧ (t.ctx st).test = some c ∧ (t.ctx st).privateSlot = (s.ctx st).privateSlot
      ∧ t.table = s.table ∧ t.counters.live.stations = s.counters.live.stations

/-- A record but for its lists: identity, recipe, times, verdict and cause. -/
def Record.heading (r : Record) : Record :=
  { r with steps := [], groups := [], leaks := [], checks := [], remarks := [], remarksFull := false }

/-- Station `st` enters COMPLETING, and is DONE when its record is deposited at once (R12, R13, R70): the record is closed,
with its end time and its composed verdict, and offered to the store (R162, R166). -/
structure State.EntersCompleting (s t : State) (st : Station) : Prop where
  state : t.stateOf st = .completing ∨ t.stateOf st = .done
  step : (t.ctx st).step = none
  drive : t.drive[st] = Drive.off
  changed : t.counters.changed[st] = true
  others : s.OthersKept t st
  line : s.SameLine t
  monitor : t.mon = s.mon
  filed : ∀ c r, (s.ctx st).test = some c → (s.ctx st).record = some r → ∃ k : Record,
    k.heading = { r.heading with endTime := some s.now, verdict := some k.compose } ∧ s.OffersRecord t st c k

/-- The step outcomes of the station's record in progress. -/
def State.stepEntries (s : State) (st : Station) : Option (List StepEntry) := (s.ctx st).record.map Record.steps

/-- The remarks of the station's record in progress. -/
def State.remarks (s : State) (st : Station) : Option (List Remark) := (s.ctx st).record.map Record.remarks

/-- The index of the station's step in progress. -/
def State.stepIndex (s : State) (st : Station) : Option Nat := (s.ctx st).step.map StepCtx.index

/-- Station `st` is RUNNING this step of its chain, with a record in progress. -/
structure State.RunsStep (s : State) (st : Station) (x : StepCtx) (r : Record) : Prop where
  running : s.stateOf st = .running
  step : (s.ctx st).step = some x
  record : (s.ctx st).record = some r

/-- The chain of station `st` has a step `spec` after step `index`. -/
def State.nextIs (s : State) (st : Station) (index : Nat) (spec : StepSpec) : Prop :=
  (s.recipe st).bind (fun r => r.steps[index]?) = some spec

/-- The drive as the beginning of a step leaves it (R56, R59, R68): a RAMP gives its target, in 0.01 rpm, its rate and its torque
limit, the setpoint where it is; a step of another kind leaves all as it was. -/
def Drive.begun (d : Drive) : StepSpec → Drive
  | .ramp target rate torque _ _ _ => { d with target := 100 * target, rate := rate, torqueLimit := torque }
  | .dwell .. | .gate .. | .check .. | .leak => d

/-- A leak circuit at the start of LEAK step `index` (R67, R123, R124): STANDSTILL_WAIT from the step's start, vented, counts
and sums 0, no result. -/
def LeakCircuit.begun (index : Nat) (now : LineTime) : LeakCircuit :=
  { phase := .standstillWait, fillOpen := false, ventOpen := true, phaseStart := some now, settleStart := none
    stepIndex := some index, pCount := 0, tCount := 0, pStart := 0, tStart := 0, pEnd := 0, tEnd := 0, result := none }

/-- A leak circuit after a sample of MEASURE that leaves the held value `x` (R133): the quantity's next number `k` of `n`
counts it, 1 to 16 into the start block sum, n − 15 to n into the end block sum; beyond `n` it takes none. -/
def LeakCircuit.measured (c : LeakCircuit) (n : Nat) (q : StQuantity) (x : Int) : LeakCircuit :=
  let adds := fun (k : Nat) (z : Int) (block : Bool) => if k ≤ n ∧ block then z + x else z
  let count := fun (k : Nat) => if k ≤ n then k else k - 1
  match q with
  | .leakPress =>
    let k := c.pCount + 1
    { c with pCount := count k, pStart := adds k c.pStart (k ≤ 16), pEnd := adds k c.pEnd (n - 15 ≤ k) }
  | .airTemp =>
    let k := c.tCount + 1
    { c with tCount := count k, tStart := adds k c.tStart (k ≤ 16), tEnd := adds k c.tEnd (n - 15 ≤ k) }
  | .oilTemp | .speed | .torque | .vib => c

/-- An engine granted to a station for a group, its sums and counts 0 (R97, R99). -/
structure Engine.Granted (x : Engine) (st : Station) (g : GroupSpec) : Prop where
  state : x.state = .accumulating
  holder : x.holder = some st
  group : x.group = some g.group
  k : x.k = some g.k
  bins : ∀ b : Fin 128, x.bins[b] = 0
  accepted : x.accepted = 0
  discarded : x.discarded = 0

/-- Engine `e`, given up, is FREE when nobody waits, and otherwise granted to the head of the wait queue, a station that holds
no engine, for its group (R100). -/
structure State.PassesEngine (s t : State) (e : EngineId) : Prop where
  free : s.noise.queue = [] → (t.engine e).state = .free ∧ (t.engine e).holder = none ∧ t.noise.queue = []
  head : ∀ w rest k, s.noise.queue = w :: rest → s.line w.station w.group = some k → s.heldEngine w.station = none →
    (t.engine e).Granted w.station k.spec ∧ t.noise.queue = rest

/-- The wait for an engine in window `index` of group `g`, whose line was `l`, has ended without one (R103): the record `r` has
taken the ENGINE_WAIT remark, and at the group's last window its result NOT_MEASURED, the group closed. -/
structure State.EndsWait (t : State) (st : Station) (index g : Nat) (l : GroupLine) (r : Record) : Prop where
  remark : t.remarks st = some (r.addRemark .engineWait).remarks
  goesOn : index ≠ l.windows.last → (t.ctx st).record.map Record.groups = some r.groups ∧ t.line st g = some l
  closes : index = l.windows.last →
    (t.ctx st).record.map Record.groups = some (r.groups ++ [⟨g, .notMeasured, none, 0, 0, none⟩])
    ∧ t.line st g = some { l with status := .closed, outcome := some .notMeasured, cause := none, engine := none,
                                  entered := true }

/-- The start of window `index` of group `g`, whose line was `l`, with the record `r` in progress (R60, R99). -/
structure State.StartsWindow (s t : State) (st : Station) (index g : Nat) (l : GroupLine) (r : Record) : Prop where
  /-- A closed group: a plain timed hold. -/
  closed : l.status = .closed → t.noise = s.noise
  /-- The group's engine is PARKED: it resumes. -/
  resumes : ∀ e, l.status ≠ .closed → l.engine = some e → (s.engine e).state = .parked →
    t.engine e = { s.engine e with state := .accumulating, revOpen := false } ∧ (∀ d, d ≠ e → t.engine d = s.engine d)
    ∧ t.noise.queue = s.noise.queue ∧ t.noise.deferred = s.noise.deferred
    ∧ t.line st g = some { l with status := .opened }
  /-- The group's engine is COMPUTING: a plain timed hold. -/
  computes : ∀ e, l.status ≠ .closed → l.engine = some e → (s.engine e).isComputing = true →
    t.noise = { s.noise with groups := t.noise.groups } ∧ t.line st g = some { l with status := .opened }
  /-- The station holds an engine COMPUTING for another group: the claim is deferred (R101). -/
  defers : ∀ e, l.status ≠ .closed → l.engine = none → s.heldEngine st = some e → (s.engine e).isComputing = true →
    t.noise = { s.noise with groups := t.noise.groups, deferred := s.noise.deferred.upd st (fun _ => some g) }
    ∧ t.line st g = some { l with status := .opened }
  /-- The station claims: engine A when it is FREE, else B when it is FREE. -/
  claims : l.status ≠ .closed → l.engine = none → s.heldEngine st = none → ∀ e : EngineId, (s.engine e).state = .free →
    (e = .b → s.noise.engineA.state ≠ .free) →
    (t.engine e).Granted st l.spec ∧ (∀ d, d ≠ e → t.engine d = s.engine d) ∧ t.noise.queue = s.noise.queue
    ∧ t.noise.deferred = s.noise.deferred ∧ t.line st g = some { l with status := .opened, engine := some e }
  /-- No engine FREE: the tail of the wait queue with the limit as it stands, or with a limit of 0 no wait (R102). -/
  waits : l.status ≠ .closed → l.engine = none → s.heldEngine st = none → (∀ e, (s.engine e).state ≠ .free) →
    (∀ e, t.engine e = s.engine e) ∧ t.noise.deferred = s.noise.deferred
    ∧ (s.config.waitLimit ≠ 0 → t.noise.queue = s.noise.queue ++ [⟨st, g, s.now, s.config.waitLimit⟩]
        ∧ t.line st g = some { l with status := .opened })
    ∧ (s.config.waitLimit = 0 → t.noise.queue = s.noise.queue ∧ (t.ctx st).step.map StepCtx.unmeasured = some true
        ∧ t.counters.live.stations[st].engineWaitsExpired =
            min (s.counters.live.stations[st].engineWaitsExpired + 1) 65535
        ∧ t.EndsWait st index g { l with status := .opened } r)
  /-- Without an end of a wait the record and the window's mark stay. -/
  kept : s.config.waitLimit ≠ 0 ∨ l.status = .closed ∨ (∃ e, (s.engine e).state = .free)
      ∨ (∃ e, l.engine = some e ∧ ((s.engine e).state = .parked ∨ (s.engine e).isComputing = true))
      ∨ (∃ e, l.engine = none ∧ s.heldEngine st = some e ∧ (s.engine e).isComputing = true) →
    t.remarks st = some r.remarks ∧ (t.ctx st).record.map Record.groups = some r.groups
    ∧ (t.ctx st).step.map StepCtx.unmeasured = some false
  others : ∀ j : Station, j ≠ st → t.noise.groups[j] = s.noise.groups[j]

/-- What the beginning of step `index`, `spec`, does to the Noise Analyser and to the record `r` in progress, at an event that
touches neither otherwise: a window starts, and a step of another kind leaves both. -/
structure State.BeginsStep (s t : State) (st : Station) (index : Nat) (spec : StepSpec) (r : Record) : Prop where
  window : ∀ d g b k l, spec = .dwell d (some g) b k → s.line st g = some l → s.StartsWindow t st index g l r
  plain : (∀ d g b k, spec ≠ .dwell d (some g) b k) → t.noise = s.noise ∧ t.remarks st = some r.remarks
    ∧ (t.ctx st).record.map Record.groups = some r.groups

/-- The step in progress has ended with this entry, and the next step of the chain, `spec`, has begun at this event (R52,
R53): the station still RUNNING, its drive and, for a LEAK step, its leak circuit as the step's start has them (R56, R59, R67),
the other stations and the line as they were. -/
structure State.StepsOn (s t : State) (st : Station) (e : StepEntry) (spec : StepSpec) : Prop where
  state : t.stateOf st = .running
  steps : t.stepEntries st = (s.stepEntries st).map (fun l => l ++ [e])
  next : ∃ x, (t.ctx st).step = some x ∧ x.index = e.index + 1 ∧ x.spec = spec ∧ x.start = s.now
    ∧ x.phase = State.firstPhase spec
  drive : t.drive[st] = s.drive[st].begun spec
  leak : spec = .leak → t.circuit st = LeakCircuit.begun (e.index + 1) s.now
  others : s.OthersKept t st
  line : s.SameLine t
  store : t.store = s.store
  monitor : t.mon = s.mon

/-- Everything but the clock's microseconds, the encoder, the engines and what the Monitor gathers for the station's VIB is
as it was. -/
def State.OnlyShaft (s t : State) (st : Station) : Prop :=
  t = { s with clock := t.clock, enc := t.enc, noise := t.noise
               mon := { s.mon with vib := s.mon.vib.upd st (fun _ => t.mon.vib[st]) } }

/-- A sample of `x` makes no flag of its quantity latch that was clear (R86). -/
def State.latchesNothing (s : State) (st : Station) (q : StQuantity) (v : Option Int) : Prop :=
  let m := s.quantity st q
  newLatches (s.watched st q) (m.sample (v.map (Quantity.station q).clamp) (s.reference st q) (s.watched st q)).current
    m.latched = []

/-! ### SPEED and the revolution speed -/

/-- `v` is the speed of a revolution of `period` µs and this net line count (R77, R106): 60,000,000 ÷ the period, rounded to
nearest with an exact half away from zero (R1), taking the sign of the net line count. The manual states none for a period of 0:
the free value of log entry 7. -/
abbrev RevolutionSpeed (period : Nat) (net v : Int) : Prop :=
  if period = 0 then v = Config.zeroPeriodSpeed net
  else v = net.sign * v.natAbs ∧ 2 * ((v.natAbs * period : Nat) - 60000000 : Int).natAbs ≤ period
    ∧ (2 * ((v.natAbs * period : Nat) - 60000000 : Int).natAbs = period → 60000000 ≤ v.natAbs * period)

/-! ### What a recipe body carries (R28 to R36, R205), said of its bytes and not of the part's reading of them -/

/-- The range of a station quantity (R29, R76). -/
def spanOf : StQuantity → Int × Int
  | .oilTemp => (-4000, 15000)
  | .speed => (-4000, 4000)
  | .torque => (-40000, 40000)
  | .vib => (0, 32767)
  | .leakPress => (-50000, 250000)
  | .airTemp => (-2000, 8000)

/-- The value lies in the quantity's range (R29). -/
def Spans (q : StQuantity) (x : Int) : Prop := (spanOf q).1 ≤ x ∧ x ≤ (spanOf q).2

/-- The number of a station quantity in a body (R203). -/
def numberOf : StQuantity → Nat
  | .oilTemp => 1
  | .speed => 2
  | .torque => 3
  | .vib => 4
  | .leakPress => 5
  | .airTemp => 6

/-- The length of a body agrees with its header (R204, R205). -/
abbrev LengthAgrees (body : List Byte) : Prop :=
  9 ≤ body.length ∧ body.length = 9 + 16 * natAt body 5 + 33 * natAt body 6 + (if natAt body 7 = 0 then 0 else 30)
    + 18 * natAt body 8

/-- A step record carries this step, every field in the range R29 gives it. -/
def StepSpec.CarriedBy (p : List Byte) : StepSpec → Prop
  | .ramp target rate torque tolerance inBand timeout =>
    natAt p 0 = 1 ∧ (u16At p 1).toInt = target ∧ -3000 ≤ target ∧ target ≤ 3000
    ∧ nat16At p 3 = rate ∧ 1 ≤ rate ∧ rate ≤ 5000 ∧ nat16At p 5 = torque ∧ torque ≤ 30000
    ∧ natAt p 7 = tolerance ∧ 1 ≤ tolerance ∧ tolerance ≤ 200 ∧ nat16At p 8 = inBand ∧ inBand ≤ 10000
    ∧ nat32At p 10 = timeout ∧ 100 ≤ timeout ∧ timeout ≤ 600000
  | .dwell duration window extend ext =>
    natAt p 0 = 2 ∧ nat32At p 1 = duration ∧ 100 ≤ duration ∧ duration ≤ 3600000
    ∧ (match window with | none => natAt p 5 = 0xFF | some g => natAt p 5 = g ∧ g ≤ 3)
    ∧ natAt p 6 = (if extend then 1 else 0) ∧ nat32At p 7 = ext ∧ (extend = true → 100 ≤ ext ∧ ext ≤ 600000)
  | .gate q rel value hold timeout action =>
    natAt p 0 = 3 ∧ natAt p 1 = numberOf q ∧ q ≠ .vib ∧ natAt p 2 = (match rel with | .atLeast => 0 | .atMost => 1)
    ∧ (u32At p 3).toInt = value ∧ Spans q value ∧ nat16At p 7 = hold ∧ hold ≤ 60000
    ∧ nat32At p 9 = timeout ∧ 100 ≤ timeout ∧ timeout ≤ 3600000
    ∧ natAt p 13 = (match action with | .fail => 0 | .proceed => 1)
  | .check q averaging mode reference tolerance =>
    natAt p 0 = 4 ∧ natAt p 1 = numberOf q ∧ nat16At p 2 = averaging ∧ 100 ≤ averaging ∧ averaging ≤ 10000
    ∧ averaging % 10 = 0 ∧ natAt p 4 = (match mode with | .within => 0 | .atLeast => 1 | .atMost => 2)
    ∧ (u32At p 5).toInt = reference ∧ Spans q reference ∧ nat16At p 9 = tolerance
  | .leak => natAt p 0 = 5

/-- A group record carries this specification, every field in the range R30 gives it, no order twice. -/
structure GroupSpec.CarriedBy (p : List Byte) (g : GroupSpec) : Prop where
  group : natAt p 0 = g.group ∧ g.group ≤ 3
  k : nat16At p 1 = g.k ∧ 16 ≤ g.k ∧ g.k ≤ 1024
  flank : natAt p 3 = (match g.flank with | .drive => 0 | .coast => 1)
  flankMin : nat16At p 4 = g.flankMin ∧ g.flankMin ≤ 30000
  tolerance : natAt p 6 = g.tolerance ∧ 1 ≤ g.tolerance ∧ g.tolerance ≤ 200
  discardLimit : nat16At p 7 = g.discardLimit ∧ 1 ≤ g.discardLimit ∧ g.discardLimit ≤ 4096
  count : natAt p 9 = g.orders.length ∧ 1 ≤ g.orders.length ∧ g.orders.length ≤ 4
  orders : ∀ i o, g.orders[i]? = some o → natAt p (13 + 5 * i) = o.order ∧ 1 ≤ o.order ∧ o.order ≤ 63
    ∧ nat32At p (14 + 5 * i) = o.limit ∧ 1 ≤ o.limit ∧ o.limit ≤ 999999
  once : (g.orders.map OrderLimit.order).Nodup
  peakLimit : match g.peakLimit with
    | none => natAt p 10 = 0
    | some x => natAt p 10 = 1 ∧ nat16At p 11 = x ∧ 1 ≤ x

/-- The leak record carries this specification, every field in the range R31 gives it. -/
structure LeakSpec.CarriedBy (p : List Byte) (l : LeakSpec) : Prop where
  testPressure : nat32At p 0 = l.testPressure ∧ 5000 ≤ l.testPressure ∧ l.testPressure ≤ 200000
  fillTolerance : nat16At p 4 = l.fillTolerance ∧ 100 ≤ l.fillTolerance ∧ l.fillTolerance ≤ 20000
  fillTime : nat16At p 6 = l.fillTime ∧ 500 ≤ l.fillTime ∧ l.fillTime ≤ 60000
  settleTime : nat32At p 8 = l.settleTime ∧ 1000 ≤ l.settleTime ∧ l.settleTime ≤ 120000
  grossDrop : nat16At p 12 = l.grossDrop ∧ 100 ≤ l.grossDrop ∧ l.grossDrop ≤ 50000
  measureTime : nat16At p 14 = l.measureTime ∧ 1000 ≤ l.measureTime ∧ l.measureTime ≤ 60000 ∧ l.measureTime % 10 = 0
  volume : nat32At p 16 = l.volume ∧ 100 ≤ l.volume ∧ l.volume ≤ 100000
  leakLimit : nat32At p 20 = l.leakLimit ∧ 1 ≤ l.leakLimit ∧ l.leakLimit ≤ 999999
  riseLimit : nat32At p 24 = l.riseLimit ∧ l.riseLimit ≤ 999999
  ventTime : nat16At p 28 = l.ventTime ∧ 200 ≤ l.ventTime ∧ l.ventTime ≤ 10000

/-- A threshold of an override: present, and then in its quantity's range, exactly when its presence bit is set (R32, R205). -/
def ThresholdCarried (p : List Byte) (bit offset : Nat) (q : StQuantity) (t : Option Int) : Prop :=
  if (byteAt p 1).getLsbD bit then t = some (u32At p offset).toInt ∧ Spans q (u32At p offset).toInt else t = none

/-- An override record carries this override (R32, R205). -/
structure Override.CarriedBy (p : List Byte) (o : Override) : Prop where
  quantity : natAt p 0 = numberOf o.quantity
  presence : natAt p 1 < 16
  lowAlarm : ThresholdCarried p 0 2 o.quantity o.lowAlarm
  lowWarn : ThresholdCarried p 1 6 o.quantity o.lowWarn
  highWarn : ThresholdCarried p 2 10 o.quantity o.highWarn
  highAlarm : ThresholdCarried p 3 14 o.quantity o.highAlarm

/-- The header's fields lie in their ranges, the list lengths with them (R28, R33 stage 1). -/
structure HeaderFits (body : List Byte) : Prop where
  variant : 1 ≤ nat16At body 0
  cls : natAt body 3 ≤ 1
  stopOnFail : natAt body 4 ≤ 1
  steps : 1 ≤ natAt body 5 ∧ natAt body 5 ≤ 24
  groups : natAt body 6 ≤ 4
  leak : natAt body 7 ≤ 1
  overrides : natAt body 8 ≤ 6

/-- The bytes of step record `i`, counted from 0 (R205). -/
def stepRecord (body : List Byte) (i : Nat) : List Byte := (body.drop (9 + 16 * i)).take 16

/-- The bytes of group record `i`. -/
def groupRecord (body : List Byte) (i : Nat) : List Byte := (body.drop (9 + 16 * natAt body 5 + 33 * i)).take 33

/-- The bytes of the leak record. -/
def leakRecord (body : List Byte) : List Byte := (body.drop (9 + 16 * natAt body 5 + 33 * natAt body 6)).take 30

/-- The bytes of override record `i`. -/
def overrideRecord (body : List Byte) (i : Nat) : List Byte :=
  (body.drop (9 + 16 * natAt body 5 + 33 * natAt body 6 + 30 * natAt body 7 + 18 * i)).take 18

/-- The list is what these `n` records carry, in carried order. -/
def ListCarried {α : Type} (carriedBy : List Byte → α → Prop) (record : Nat → List Byte) (n : Nat) (xs : List α) : Prop :=
  xs.length = n ∧ ∀ (i : Nat) (x : α), xs[i]? = some x → carriedBy (record i) x

/-- Override record `i` carries an override of a quantity that no earlier one names (R32, R33 stage 5). -/
def OverrideFits (body : List Byte) (i : Nat) : Prop :=
  (∃ o, Override.CarriedBy (overrideRecord body i) o)
    ∧ ∀ j, j < i → natAt (overrideRecord body j) 0 ≠ natAt (overrideRecord body i) 0

/-- The step at this place of the chain, counted from 0, is a window of group `g` (R29). -/
def WindowAt (steps : List StepSpec) (i g : Nat) : Prop := ∃ d extend k, steps[i]? = some (.dwell d (some g) extend k)

/-- The cross-checks of R34: by its number in the order made, each check's offending elements, their places counted from 0. -/
inductive Offends (steps : List StepSpec) (groups : List GroupSpec) (leak : Option LeakSpec) : Nat → Element → Nat → Prop
  /-- A window names a group that no specification carries. -/
  | unknownGroup (i g : Nat) : WindowAt steps i g → (∀ x ∈ groups, x.group ≠ g) → Offends steps groups leak 1 .step i
  /-- A specification carries an earlier one's group number. -/
  | repeatedGroup (i j : Nat) (x y : GroupSpec) : j < i → groups[j]? = some x → groups[i]? = some y → x.group = y.group →
      Offends steps groups leak 2 .groupSpec i
  /-- No window names the specification's group. -/
  | unusedGroup (i : Nat) (x : GroupSpec) : groups[i]? = some x → (∀ j, ¬WindowAt steps j x.group) →
      Offends steps groups leak 3 .groupSpec i
  /-- A window follows one of another group that follows one of its own. -/
  | interleaves (i j k g h : Nat) : k < j → j < i → WindowAt steps k g → WindowAt steps j h → h ≠ g → WindowAt steps i g →
      Offends steps groups leak 4 .step i
  /-- A LEAK step without a leak specification. -/
  | noLeakSpec (i : Nat) : steps[i]? = some .leak → leak = none → Offends steps groups leak 5 .step i
  /-- A LEAK step with two before it. -/
  | thirdLeak (i j k : Nat) : k < j → j < i → steps[k]? = some .leak → steps[j]? = some .leak → steps[i]? = some .leak →
      Offends steps groups leak 6 .step i
  /-- A LEAK step whose nearest preceding RAMP has a target other than 0. -/
  | moving (i j : Nat) (target : Int) (rate torque tolerance inBand timeout : Nat) : j < i → steps[i]? = some .leak →
      steps[j]? = some (.ramp target rate torque tolerance inBand timeout) → target ≠ 0 →
      (∀ k a b c d e f, j < k → k < i → steps[k]? ≠ some (.ramp a b c d e f)) → Offends steps groups leak 7 .step i

/-- The body passes every stage of validation and carries the recipe `r` (R28 to R36): its fields as the records carry them, no
cross-check failing, the first and last window of each group's specification, the fingerprint. -/
structure RecipeCarried (body : List Byte) (r : Recipe) : Prop where
  header : HeaderFits body
  carried : r.body = body
  variant : r.variant = nat16At body 0
  revision : r.revision = natAt body 2
  cls : natAt body 3 = (match r.cls with | .production => 0 | .master => 1)
  stopOnFail : natAt body 4 = (if r.stopOnFail then 1 else 0)
  steps : ListCarried StepSpec.CarriedBy (stepRecord body) (natAt body 5) r.steps
  groups : ListCarried GroupSpec.CarriedBy (groupRecord body) (natAt body 6) r.groups
  leak : ListCarried LeakSpec.CarriedBy (fun _ => leakRecord body) (natAt body 7) r.leak.toList
  overrides : ListCarried Override.CarriedBy (overrideRecord body) (natAt body 8) r.overrides
  overridesOnce : ∀ i, i < natAt body 8 → OverrideFits body i
  crossChecks : ∀ n el i, ¬Offends r.steps r.groups r.leak n el i
  windows : r.windows.length = r.groups.length
    ∧ ∀ (i : Nat) (g : GroupSpec) (w : GroupWindows), r.groups[i]? = some g → r.windows[i]? = some w →
    ∃ first last : Nat, w = ⟨first + 1, last + 1⟩ ∧ WindowAt r.steps first g.group ∧ WindowAt r.steps last g.group
      ∧ ∀ j, WindowAt r.steps j g.group → first ≤ j ∧ j ≤ last
  fingerprint : r.fingerprint = crc16 body

/-- Validation fails first at this element and position (R33, R34): every stage before it passes, and within its stage every
element before it. -/
inductive RecipeRefused (body : List Byte) : Element → Nat → Prop
  | header : ¬HeaderFits body → RecipeRefused body .header 0
  | step (i : Nat) : HeaderFits body → i < natAt body 5 →
      (∀ j, j < i → ∃ x, StepSpec.CarriedBy (stepRecord body j) x) → (∀ x, ¬StepSpec.CarriedBy (stepRecord body i) x) →
      RecipeRefused body .step (i + 1)
  | groupSpec (steps : List StepSpec) (i : Nat) : HeaderFits body →
      ListCarried StepSpec.CarriedBy (stepRecord body) (natAt body 5) steps → i < natAt body 6 →
      (∀ j, j < i → ∃ x, GroupSpec.CarriedBy (groupRecord body j) x) → (∀ x, ¬GroupSpec.CarriedBy (groupRecord body i) x) →
      RecipeRefused body .groupSpec (i + 1)
  | leakSpec (steps : List StepSpec) (groups : List GroupSpec) : HeaderFits body →
      ListCarried StepSpec.CarriedBy (stepRecord body) (natAt body 5) steps →
      ListCarried GroupSpec.CarriedBy (groupRecord body) (natAt body 6) groups → natAt body 7 = 1 →
      (∀ x, ¬LeakSpec.CarriedBy (leakRecord body) x) → RecipeRefused body .leakSpec 1
  | override (steps : List StepSpec) (groups : List GroupSpec) (leak : Option LeakSpec) (i : Nat) : HeaderFits body →
      ListCarried StepSpec.CarriedBy (stepRecord body) (natAt body 5) steps →
      ListCarried GroupSpec.CarriedBy (groupRecord body) (natAt body 6) groups →
      ListCarried LeakSpec.CarriedBy (fun _ => leakRecord body) (natAt body 7) leak.toList → i < natAt body 8 →
      (∀ j, j < i → OverrideFits body j) → ¬OverrideFits body i → RecipeRefused body .override (i + 1)
  | crossCheck (steps : List StepSpec) (groups : List GroupSpec) (leak : Option LeakSpec) (n : Nat) (el : Element) (i : Nat) :
      HeaderFits body → ListCarried StepSpec.CarriedBy (stepRecord body) (natAt body 5) steps →
      ListCarried GroupSpec.CarriedBy (groupRecord body) (natAt body 6) groups →
      ListCarried LeakSpec.CarriedBy (fun _ => leakRecord body) (natAt body 7) leak.toList →
      (∀ j, j < natAt body 8 → OverrideFits body j) → Offends steps groups leak n el i →
      (∀ m e j, Offends steps groups leak m e j → n < m ∨ (n = m ∧ i ≤ j)) → RecipeRefused body el (i + 1)

end Sys2Proof.Machine
end

