-- ==== Sys2Proof/Certificates/Slice0/Obligations.lean ====
section
/-! DEFINITION. The statements for the provers. A request's command is the arrival of the last byte of its frame (the model's
choice, log entry 4): the receiver is then in HUNTING (`State.received`) and the reply in the slot (`State.replies`). -/

open Sys2Proof Sys2Proof.Machine

/-! ### The queue of commands -/

/-- A step takes the command at the front of the queue and is that command's effect on the state with the queue's rest. -/
def Obligations.StepTakesFrontCommand : Prop :=
  ∀ (c : Instr) (rest : List Instr) (s : State), s.pending = c :: rest → step s = exec c (s.withPending rest)

/-- With no command waiting, a step takes the first expiry that is due, or else line time runs on by 1 ms: the model's
choice (log entry 1). -/
def Obligations.IdleStepTakesExpiryOrMillisecond : Prop :=
  ∀ s : State, s.pending = [] →
    (∀ c, s.nextDue = some c → step s = exec c s)
    ∧ (s.nextDue = none → step s = .next { s with clock := ⟨s.clock.now + 1, 0⟩ })

/-- Every command answers a next state in every state; it leaves the queue of commands as it is, and no command but
POWER_ON_RESET changes line time. That the part never stops is the model's reading of a manual that describes no stop. -/
def Obligations.EveryCommandCompletes : Prop :=
  ∀ (c : Instr) (s : State), ∃ t, exec c s = .next t ∧ t.pending = s.pending
    ∧ ((∀ pins, c ≠ .powerOnReset pins) → t.clock.now = s.clock.now)

/-! ### Requests and frames -/

/-- A request whose frame completes while the slot holds a reply is discarded: nothing but the receiver changes (R191). With
the slot empty it is taken and puts one reply there: its kind plus 0x80, its own tag, a payload that begins with a status;
and the receiver is in HUNTING (R190, R192). -/
def Obligations.RequestIsTakenOrDiscarded : Prop :=
  ∀ (c : Instr) (kind tag : Byte) (p : List Byte) (s : State), requestParts c = some (kind, tag, p) →
    (s.link.slot ≠ none → exec c s = .next s.received)
    ∧ (s.link.slot = none →
      ∃ t payload, exec c s = .next t ∧ t.link.slot = some ⟨kind + 0x80, tag, payload⟩
        ∧ (∃ x : Status, payload.head? = some x.code)
        ∧ t.link.recv = .hunting ∧ t.link.frame = [] ∧ t.link.expected = none ∧ t.link.gapStart = none)

/-- Reading a request's payload gives the request back, with every field at every value a frame can carry, and the payload
fits a frame. -/
def Obligations.RequestPayloadReadsBack : Prop :=
  ∀ (c : Instr) (kind tag : Byte) (p : List Byte), c.wf = true → requestParts c = some (kind, tag, p) →
    requestOf kind tag p = some c ∧ p.length ≤ 1016

/-- The bytes of a request's frame, arriving one after another at a receiver in HUNTING, do exactly what the request's
command does: framing, length, CRC-16, dispatch and every field agree with the command, in every state of the part. -/
def Obligations.FrameBytesRunTheirCommand : Prop :=
  ∀ (c : Instr) (frame : List Byte) (s : State), c.wf = true → requestFrame c = some frame →
    s.link.recv = .hunting → exec c s = .next (frame.foldl State.receive s)

/-! ### Power-on reset and restart -/

/-- POWER_ON_RESET puts every block in its power-on state, with the levels of the input pins. The recipe table, the store and
the counters are empty (R50, R172, R185): no entry and no record left, numbering from 1, every counter and the snapshot set
0, no timer, no change flag; no write-back and no notice for what is lost. -/
def Obligations.PowerOnResetsEveryBlock : Prop :=
  ∀ (pins : PowerOnPins) (s : State), ∃ t, exec (.powerOnReset pins) s = .next t
    ∧ t.clock.now = 0 ∧ t.pins.estop = pins.estop ∧ t.pins.driveFault = pins.driveFault
    ∧ (∀ st : Station, (t.ctx st).state = .idle ∧ (t.ctx st).enabled = true ∧ (t.ctx st).test = none
        ∧ (t.ctx st).step = none ∧ (t.ctx st).stopStart = none ∧ (t.ctx st).record = none
        ∧ (t.ctx st).privateSlot = none
        ∧ t.drive[st] = Drive.off
        ∧ (t.circuit st).phase = .none ∧ (t.circuit st).fillOpen = false ∧ (t.circuit st).ventOpen = true
        ∧ (t.circuit st).result = none ∧ (t.circuit st).pCount = 0 ∧ (t.circuit st).tCount = 0
        ∧ (t.circuit st).pStart = 0 ∧ (t.circuit st).tStart = 0 ∧ (t.circuit st).pEnd = 0 ∧ (t.circuit st).tEnd = 0
        ∧ t.cond[st] = ⟨.live, false, .live, .live⟩ ∧ t.enc[st].bin = 0
        ∧ t.noise.groups[st] = [] ∧ t.noise.deferred[st] = none
        ∧ (∀ q : StQuantity, (t.quantity st q).held = 0 ∧ (t.quantity st q).invalid = 0
            ∧ (t.quantity st q).lastValid = false ∧ (t.quantity st q).current = .none
            ∧ (t.quantity st q).latched = .none))
    ∧ (t.mon.supply.held = 0 ∧ t.mon.supply.invalid = 0 ∧ t.mon.supply.lastValid = false
        ∧ t.mon.supply.current = .none ∧ t.mon.supply.latched = .none)
    ∧ t.mon.globals = defaultThresholds ∧ (∀ (q : Quantity) (k : FlagKind), (t.mon.masks[q.idx]).has k = !k.isAlarm)
    ∧ (∀ e : EngineId, (t.engine e).state = .free ∧ (t.engine e).holder = none ∧ (t.engine e).group = none
        ∧ (t.engine e).k = none ∧ (t.engine e).accepted = 0 ∧ (t.engine e).discarded = 0
        ∧ (∀ b : Fin 128, (t.engine e).bins[b] = 0))
    ∧ t.noise.queue = [] ∧ t.leak.grant = none ∧ t.leak.queue = []
    ∧ t.config = ⟨.production, 101325, 1000, 5, 60000, 0⟩
    ∧ t.link.recv = .hunting ∧ t.link.frame = [] ∧ t.link.expected = none ∧ t.link.gapStart = none
    ∧ t.link.slot = none ∧ t.link.tx = .free ∧ t.link.queue = [] ∧ t.link.lostPending = false
    ∧ t.link.speed = pins.strap
    ∧ (∀ (i : Fin 8) (w : Fin 4), t.table[i][w] = none)
    ∧ t.store.records = [] ∧ t.store.next = some 1 ∧ t.store.deposit = []
    ∧ (∀ st : Station, t.counters.live.stations[st] = ⟨0, 0, 0, 0, 0, 0, 0, 0, 0, 0⟩
        ∧ t.counters.snapshot.counters.stations[st] = ⟨0, 0, 0, 0, 0, 0, 0, 0, 0, 0⟩
        ∧ t.counters.changed[st] = false)
    ∧ t.counters.live.globals = ⟨0, 0, 0, 0, 0⟩ ∧ t.counters.snapshot.counters.globals = ⟨0, 0, 0, 0, 0⟩
    ∧ t.counters.snapshot.number = 0 ∧ t.counters.snapshot.time = 0 ∧ t.counters.snapshot.length = 0
    ∧ t.counters.snapshot.cause = none ∧ t.counters.intervalStart = 0
    ∧ t.config.autoInterval = 0 ∧ t.counters.autoStart = none

/-- `State.reset` meets every property that every step keeps. -/
def Obligations.ResetMeetsInvariants : Prop :=
  State.reset.Bounded ∧ State.reset.Numbered ∧ State.reset.RemarksKept ∧ State.reset.ValvesFollowPhase
    ∧ State.reset.RanksDense ∧ State.reset.StationsInPlace ∧ State.reset.LocksCounted ∧ State.reset.EnginesHeld

/-- RST is answered OK before it acts; the end of its reply restarts the part: tests discarded and counted ABORTED, drives
off, leak circuits at rest, engines, grant and queues free, locks 0, every change flag set; the Monitor, records, recipes,
conditioning, configuration and line time kept (R25, R26). That RST leaves a mark for that moment, and that RESTART and
TRANSMIT_END under the mark are one event, is the model's choice (log entry 25). -/
def Obligations.RestartFollowsRstReply : Prop :=
  (∀ (tag : Byte) (s : State), s.link.slot = none → exec (.rst tag) s =
    .next ((s.received.modLink (fun l => { l with restartPending := true })).replies 0x95 tag [0x00]))
  ∧ (∀ s : State, s.link.restartPending = true → s.link.tx = .reply → ∃ t,
      exec .restart s = .next t ∧ exec .transmitEnd s = .next t
      ∧ (∀ st : Station, t.stateOf st = (if s.stateOf st = .off then .off else .idle)
          ∧ (t.ctx st).enabled = (s.ctx st).enabled ∧ (t.ctx st).test = none ∧ (t.ctx st).step = none
          ∧ (t.ctx st).stopStart = none ∧ (t.ctx st).record = none ∧ (t.ctx st).privateSlot = none
          ∧ t.drive[st] = Drive.off ∧ t.circuit st = LeakCircuit.rest
          ∧ t.noise.groups[st] = [] ∧ t.noise.deferred[st] = none ∧ t.counters.changed[st] = true
          ∧ t.counters.live.stations[st] =
              (if s.stateOf st = .running ∨ s.stateOf st = .stopping ∨ s.stateOf st = .completing then
                { s.counters.live.stations[st] with aborted := min (s.counters.live.stations[st].aborted + 1) 65535 }
              else s.counters.live.stations[st]))
      ∧ (∀ e : EngineId, (t.engine e).state = .free ∧ (t.engine e).holder = none)
      ∧ t.noise.queue = [] ∧ t.leak.grant = none ∧ t.leak.queue = []
      ∧ t.store.records = s.store.records ∧ t.store.next = s.store.next ∧ t.store.deposit = []
      ∧ (∀ (i : Fin 8) (w : Fin 4), t.table[i][w] = (s.table[i][w]).map (fun e => { e with lock := 0 }))
      ∧ t.counters.live.globals = s.counters.live.globals ∧ t.counters.snapshot = s.counters.snapshot
      ∧ t.counters.intervalStart = s.counters.intervalStart ∧ t.counters.autoStart = s.counters.autoStart
      ∧ s.SameLine t ∧ t.mon = s.mon
      ∧ t.link.recv = .hunting ∧ t.link.slot = none ∧ t.link.tx = .free ∧ t.link.queue = []
      ∧ t.link.speed = s.link.speed
      ∧ t.link.lostPending = (s.link.lostPending || !s.link.queue.isEmpty))

/-! ### Stations -/

/-- The emergency stop takes every RUNNING or STOPPING station to COMPLETING or on to DONE, its drive off and its cause
ESTOP unless it had one, and leaves every other station as it is, in whatever order the event meets them (the order is the
command's, log entry 12). With the stations in place no leak circuit is in a phase then, one that was is at rest with its
fill valve closed and its vent valve open, and the supply is granted to nobody and waited for by nobody (R143). The record
of a RUNNING station, here the only one in a test, is closed and offered to the store (R15, R166) with its open groups
settled (R119), an undecided leak result NOT_COMPLETED (R143) and its step CUT_SHORT, or DONE in VENT (R54). That a station
waiting for an engine, or with a claim deferred, leaves the ENGINE_WAIT remark of a wait that ends is, for the deferred
claim, the model's reading (log entry 14). The release changes the input's level and nothing else. -/
def Obligations.EmergencyStopCompletesTests : Prop :=
  (∀ (order : List Station) (s : State), s.pins.estop = false → ∃ t, exec (.emergencyStop order) s = .next t
    ∧ t.pins.estop = true ∧ t.config = s.config ∧ t.clock = s.clock ∧ t.enc = s.enc ∧ t.cond = s.cond ∧ t.mon = s.mon
    ∧ (∀ st : Station, s.stateOf st = .running ∨ s.stateOf st = .stopping →
        (t.stateOf st = .completing ∨ t.stateOf st = .done) ∧ t.drive[st] = Drive.off ∧ (t.ctx st).step = none
        ∧ t.counters.changed[st] = true
        ∧ (t.ctx st).test.map TestCtx.cause = (s.ctx st).test.map (fun c => some (c.cause.getD .estop)))
    ∧ (∀ st : Station, s.stateOf st ≠ .running → s.stateOf st ≠ .stopping →
        t.seq[st] = s.seq[st] ∧ t.drive[st] = s.drive[st])
    ∧ (s.StationsInPlace → t.leak.grant = none ∧ t.leak.queue = []
        ∧ ∀ st : Station, (t.circuit st).phase = .none ∧ ((s.circuit st).phase ≠ .none → t.circuit st = .rest))
    ∧ (∀ (st : Station) (c : TestCtx) (x : StepCtx) (r : Record), s.StationsInPlace → s.RunsStep st x r →
        (s.ctx st).test = some c → (∀ j, j ≠ st → s.stateOf j ≠ .running ∧ s.stateOf j ≠ .stopping) →
        ∃ (k : Record) (ls : List GroupLine), s.OffersRecord t st { c with cause := some (c.cause.getD .estop) } k
          ∧ k.heading = { r.heading with
              endTime := some s.now, verdict := some .aborted, cause := some (r.cause.getD .estop) }
          ∧ k.steps = r.steps ++ [s.exitEntry st x] ∧ k.checks = r.checks
          ∧ ls.Perm s.noise.groups[st] ∧ ls.Pairwise (fun a b => a.windows.first ≤ b.windows.first)
          ∧ k.groups = r.groups ++ ls.filterMap s.exitResult
          ∧ k.leaks = r.leaks ++ (s.circuit st).phase.exitResult
          ∧ k.remarks = (if s.waiting st then r.addRemark .engineWait else r).remarks))
  ∧ (∀ s : State, exec .emergencyStopRelease s = .next { s with pins := { s.pins with estop := false } })

/-- A drive-fault input becoming active with the enable on is the abort cause of a RUNNING station, whose drive drops, and
drops the drive of a STOPPING station and leaves a remark; with the enable off, or becoming inactive, it changes the level
alone. The entry to STOPPING gives its NST (R8); nothing else gives a notice. -/
def Obligations.DriveFaultDropsDrive : Prop :=
  ∀ (st : Station) (s : State),
    (s.pins.driveFault[st] = false → s.drive[st].enable = true → s.stateOf st = .running →
      ∃ t, exec (.driveFault st true) s = .next t
        ∧ ({ s with pins := { s.pins with driveFault := s.pins.driveFault.upd st (fun _ => true) } } : State).EntersStopping
            t st (some .driveFault) true
        ∧ s.GivesNotices t [.nst st .stopping (some .driveFault) none])
    ∧ (s.pins.driveFault[st] = false → s.drive[st].enable = true → s.stateOf st = .stopping →
      ∃ t, exec (.driveFault st true) s = .next t ∧ t.stateOf st = .stopping
        ∧ t.drive[st] = ⟨0, 0, 0, 0, false, s.drive[st].standstill⟩
        ∧ (t.ctx st).record = (s.ctx st).record.map (fun r => r.addRemark .driveFault)
        ∧ (t.ctx st).test = (s.ctx st).test ∧ t.link = s.link ∧ s.OthersKept t st)
    ∧ (s.drive[st].enable = false → exec (.driveFault st true) s =
        .next { s with pins := { s.pins with driveFault := s.pins.driveFault.upd st (fun _ => true) } })
    ∧ exec (.driveFault st false) s =
        .next { s with pins := { s.pins with driveFault := s.pins.driveFault.upd st (fun _ => false) } }

/-- An STT that passes its nine checks starts the test: the station RUNNING, step 1 begun, the context and the record opened
as R19 has them, its flags cleared, its thresholds resolved by R84 and frozen, the enable on, the recipe kept in the private
slot or its entry locked and at age rank 0, the set's more recent entries one rank down and the other sets as they were
(R38), the test counted, and the start time and fingerprint answered. The recipe is the table's entry of the variant, or the
one an INLINE body carries when every stage of its validation passes (R28 to R36). Step 1 begins on a drive with setpoint,
target, rate and torque limit 0: a RAMP gives its own (R56, R59, R68), a LEAK step enters STANDSTILL_WAIT (R124), a window
finds its group PENDING and starts (R60, R99 to R102; an engine still COMPUTING for an earlier test defers the claim, log
entry 11; the marks of a wait limit of 0 are log entry 14's). The group table has every group PENDING (R98), but for the one
whose window step 1 is; where step 1 is no window, nothing else of the Noise Analyser is touched and the record's noise and
remark lists are empty. Where the drive-fault input is already active, the enable's going on reports it (R73), and the test
goes to STOPPING at the same event with DRIVE_FAULT, its drive dropped and step 1 CUT_SHORT; that the STT is first taken
whole, answered OK and its NST given behind that reply is the model's reading (log entries 24 and 5). That the context holds
the recipe beside its reference is log entry 10. -/
def Obligations.SttStartsTest : Prop :=
  ∀ (tag : Byte) (f : SttFields) (st : Station) (r : Recipe) (ref : RecipeRef) (s : State),
    s.link.slot = none → f.station = stationCode st → (s.ctx st).enabled = true → s.pins.estop = false →
    s.stateOf st = .idle →
    1 ≤ f.text.length → f.text.length ≤ 20 → (∀ b ∈ f.text, 0x20 ≤ b.toNat ∧ b.toNat ≤ 0x7E) → f.variant ≠ 0 →
    ((f.text.map BitVec.toNat).sum + f.variant.toNat % 256 + f.variant.toNat / 256 + f.checkByte.toNat) % 256 = 0 →
    (if f.source = 1 then LengthAgrees f.body else f.body = []) →
    (f.source = 0 ∧ ∃ i w e, s.lookup f.variant.toNat = some (i, w, e) ∧ e.recipe = r ∧ ref = .table i w)
      ∨ (f.source = 1 ∧ RecipeCarried f.body r ∧ r.variant = f.variant.toNat ∧ ref = .transient) →
    (r.cls = .master → s.config.mode = .verify) →
    (s.substituted st = true → s.config.mode = .verify) →
    (∀ q : StQuantity, (s.resolvedThresholds r q).ordered = true) →
    (let cause := if s.pins.driveFault[st] then some AbortCause.driveFault else none
     let pend : List GroupLine := (r.groups.zip r.windows).map (fun y => ⟨y.1, y.2, .pending, none, none, none, false⟩)
     ∃ t thr, exec (.stt tag f) s = .next t ∧ (∀ q : StQuantity, thr[q.idx] = s.resolvedThresholds r q)
      ∧ (t.ctx st).enabled = true
      ∧ (t.ctx st).test = some
          { testTag := f.testTag, text := f.text, variant := f.variant.toNat, ref := ref, recipe := r
            verification := decide (s.config.mode = .verify) || s.substituted st
            thresholds := thr, start := s.now, cause := cause, number := none }
      ∧ (∃ rec, (t.ctx st).record = some rec ∧ rec.number = none ∧ rec.station = st ∧ rec.testTag = f.testTag
          ∧ rec.text = f.text ∧ rec.variant = f.variant.toNat ∧ rec.recipeVariant = r.variant
          ∧ rec.revision = r.revision ∧ rec.fingerprint = r.fingerprint
          ∧ rec.transient = decide (ref = .transient)
          ∧ rec.verification = (decide (s.config.mode = .verify) || s.substituted st)
          ∧ rec.start = s.now ∧ rec.endTime = none ∧ rec.verdict = none ∧ rec.cause = cause ∧ rec.checks = []
          ∧ (s.pins.driveFault[st] = false → rec.steps = [] ∧ rec.leaks = [])
          ∧ (∀ spec, s.pins.driveFault[st] = true → r.steps.head? = some spec →
              rec.steps = [⟨1, spec.kind, .failed, some .cutShort⟩]))
      ∧ (s.pins.driveFault[st] = false → t.stateOf st = .running
          ∧ (∀ spec, r.steps.head? = some spec → ∃ x, (t.ctx st).step = some x ∧ x.index = 1 ∧ x.spec = spec
              ∧ x.phase = State.firstPhase spec ∧ x.start = s.now)
          ∧ t.drive[st].enable = true ∧ t.drive[st].setpoint = 0
          ∧ (∀ spec, r.steps.head? = some spec →
              t.drive[st] = Drive.begun ⟨0, 0, 0, 0, true, 0⟩ spec
              ∧ (spec = .leak → t.circuit st = LeakCircuit.begun 1 s.now)
              ∧ (∀ d g b k spec' w (fresh : Record), spec = .dwell d (some g) b k →
                  (r.groups.zip r.windows).find? (fun y => y.1.group == g) = some (spec', w) →
                  fresh.remarks = [] → fresh.remarksFull = false → fresh.groups = [] →
                  s.StartsWindow t st 1 g ⟨spec', w, .pending, none, none, none, false⟩ fresh)
              ∧ ((∀ d g b k, spec ≠ .dwell d (some g) b k) →
                  t.noise = { s.noise with groups := s.noise.groups.upd st (fun _ => pend) }
                  ∧ (t.ctx st).record.map (fun k => (k.groups, k.remarks, k.remarksFull)) = some ([], [], false))
              ∧ (∀ d g b k, spec = .dwell d (some g) b k → t.noise.groups[st].length = pend.length
                  ∧ ∀ (n : Nat) (l : GroupLine), pend[n]? = some l → l.spec.group ≠ g → t.noise.groups[st][n]? = some l)))
      ∧ (s.pins.driveFault[st] = true → t.stateOf st = .stopping ∧ (t.ctx st).step = none
          ∧ (t.ctx st).stopStart = some s.now ∧ t.drive[st] = Drive.off
          ∧ s.AnswersWithNotices t [.nst st .stopping (some .driveFault) none] 0x90 tag
              (0x00 :: (le32 s.now ++ le16 r.fingerprint)))
      ∧ (∀ q : StQuantity, (t.quantity st q).latched = .none ∧ (t.quantity st q).held = (s.quantity st q).held)
      ∧ t.counters.live.stations[st].testsStarted = min (s.counters.live.stations[st].testsStarted + 1) 65535
      ∧ t.counters.changed[st] = true
      ∧ (ref = .transient → (t.ctx st).privateSlot = some r ∧ t.table = s.table)
      ∧ (∀ i w e, ref = .table i w → s.table[i][w] = some e →
          t.table[i][w] = some { e with lock := e.lock + 1, rank := 0 }
          ∧ (∀ v : Fin 4, v ≠ w → t.table[i][v] = (s.table[i][v]).map
              (fun d => { d with rank := if d.rank < e.rank then d.rank + 1 else d.rank }))
          ∧ (∀ j : Fin 8, j ≠ i → t.table[j] = s.table[j]))
      ∧ t.link.slot = some ⟨0x90, tag, 0x00 :: (le32 s.now ++ le16 r.fingerprint)⟩
      ∧ s.OthersKept t st ∧ s.SameLine t ∧ t.store = s.store)

/-- STT is refused by the first of its checks that fails, and changes nothing but the link: BAD_LENGTH for bytes after the
text that the source does not admit (R204, R206); then checks 1 to 9 of R17 in their order, from the station number to the
limits as R84 resolves them, with the reply's element and position or quantity. An INLINE body is refused RECIPE_INVALID at
the first element, stage by stage, that carries nothing in its ranges or fails a cross-check, and is otherwise the recipe
its records carry (R28 to R35, R49). -/
def Obligations.SttChecksInOrder : Prop :=
  ∀ (tag : Byte) (f : SttFields) (s : State), s.link.slot = none →
    (¬(if f.source = 1 then LengthAgrees f.body else f.body = []) →
      exec (.stt tag f) s = .next (s.received.replies 0x90 tag [0x02]))
    ∧ ((if f.source = 1 then LengthAgrees f.body else f.body = []) →
      ((f.station.toNat = 0 ∨ 6 < f.station.toNat) → exec (.stt tag f) s = .next (s.received.replies 0x90 tag [0x04]))
      ∧ (∀ st : Station, f.station = stationCode st →
        ((s.ctx st).enabled = false → exec (.stt tag f) s = .next (s.received.replies 0x90 tag [0x06]))
        ∧ ((s.ctx st).enabled = true → s.pins.estop = true →
            exec (.stt tag f) s = .next (s.received.replies 0x90 tag [0x07]))
        ∧ ((s.ctx st).enabled = true → s.pins.estop = false → s.stateOf st ≠ .idle →
            exec (.stt tag f) s = .next (s.received.replies 0x90 tag [0x05]))
        ∧ ((s.ctx st).enabled = true → s.pins.estop = false → s.stateOf st = .idle →
          ((f.text.length = 0 ∨ 20 < f.text.length ∨ (∃ b ∈ f.text, b.toNat < 0x20 ∨ 0x7E < b.toNat) ∨ f.variant = 0) →
            exec (.stt tag f) s = .next (s.received.replies 0x90 tag [0x03]))
          ∧ (1 ≤ f.text.length → f.text.length ≤ 20 → (∀ b ∈ f.text, 0x20 ≤ b.toNat ∧ b.toNat ≤ 0x7E) → f.variant ≠ 0 →
            (let sum := ((f.text.map BitVec.toNat).sum + f.variant.toNat % 256 + f.variant.toNat / 256
                + f.checkByte.toNat) % 256
             (sum ≠ 0 → exec (.stt tag f) s = .next (s.received.replies 0x90 tag [0x08]))
             ∧ (sum = 0 → f.source ≠ 0 → f.source ≠ 1 →
                exec (.stt tag f) s = .next (s.received.replies 0x90 tag [0x03]))
             ∧ (sum = 0 → f.source = 0 → s.lookup f.variant.toNat = none →
                exec (.stt tag f) s = .next (s.received.replies 0x90 tag [0x09]))
             ∧ (∀ el pos, sum = 0 → f.source = 1 → RecipeRefused f.body el pos →
                exec (.stt tag f) s = .next (s.received.replies 0x90 tag [0x0A, el.code, byteOf pos]))
             ∧ (∀ r, sum = 0 → f.source = 1 → RecipeCarried f.body r → r.variant ≠ f.variant.toNat →
                exec (.stt tag f) s = .next (s.received.replies 0x90 tag [0x0B]))
             ∧ (∀ r : Recipe, sum = 0 →
                (f.source = 0 ∧ ∃ i w e, s.lookup f.variant.toNat = some (i, w, e) ∧ e.recipe = r)
                  ∨ (f.source = 1 ∧ RecipeCarried f.body r ∧ r.variant = f.variant.toNat) →
                (r.cls = .master → s.config.mode = .production →
                  exec (.stt tag f) s = .next (s.received.replies 0x90 tag [0x0E]))
                ∧ (r.cls = .production → s.substituted st = true → s.config.mode = .production →
                  exec (.stt tag f) s = .next (s.received.replies 0x90 tag [0x0F]))
                ∧ (s.config.mode = .verify ∨ (r.cls = .production ∧ s.substituted st = false) →
                  ∀ (before after : List StQuantity) (q : StQuantity), allStQuantities = before ++ q :: after →
                    (∀ p ∈ before, (s.resolvedThresholds r p).ordered = true) →
                    (s.resolvedThresholds r q).ordered = false →
                    exec (.stt tag f) s = .next (s.received.replies 0x90 tag [0x10, q.code]))))))))

/-- ABT (R21): a RUNNING station takes HOST_ABORT and goes to STOPPING with its NST; a STOPPING one answers OK unchanged; in
any other state STATE; the reply carries the station's state; a station number outside 1 to 6 gives BAD_STATION. That a FREE
transmitter begins the reply ahead of the NST of the same event is the model's reading (log entry 5). -/
def Obligations.AbtStopsRunningStation : Prop :=
  ∀ (tag : Byte) (s : State), s.link.slot = none →
    (∀ b : Byte, b.toNat = 0 ∨ 6 < b.toNat → exec (.abt tag b) s = .next (s.received.replies 0x91 tag [0x04]))
    ∧ (∀ st : Station,
        (s.stateOf st = .running → ∃ t, exec (.abt tag (stationCode st)) s = .next t
          ∧ s.EntersStopping t st (some .hostAbort) false ∧ t.link.slot = some ⟨0x91, tag, [0x00, 0x03]⟩
          ∧ s.AnswersWithNotices t [.nst st .stopping (some .hostAbort) none] 0x91 tag [0x00, 0x03])
        ∧ (s.stateOf st = .stopping →
            exec (.abt tag (stationCode st)) s = .next (s.received.replies 0x91 tag [0x00, 0x03]))
        ∧ (s.stateOf st ≠ .running → s.stateOf st ≠ .stopping →
            exec (.abt tag (stationCode st)) s = .next (s.received.replies 0x91 tag [0x05, (s.stateOf st).code])))

/-- REL (R22): a DONE station goes to IDLE with its test fields absent and its change flag set, OK, the store untouched; in
any other state STATE; a station number outside 1 to 6 gives BAD_STATION. -/
def Obligations.RelReturnsDoneStation : Prop :=
  ∀ (tag : Byte) (s : State), s.link.slot = none →
    (∀ b : Byte, b.toNat = 0 ∨ 6 < b.toNat → exec (.rel tag b) s = .next (s.received.replies 0x92 tag [0x04]))
    ∧ (∀ st : Station,
        (s.stateOf st = .done → ∃ t, exec (.rel tag (stationCode st)) s = .next t
          ∧ t.stateOf st = .idle ∧ (t.ctx st).enabled = (s.ctx st).enabled ∧ (t.ctx st).test = none
          ∧ (t.ctx st).record = none ∧ t.noise.groups[st] = [] ∧ t.counters.changed[st] = true
          ∧ t.counters.live = s.counters.live
          ∧ t.link = (s.received.replies 0x92 tag [0x00]).link ∧ s.OthersKept t st ∧ s.SameLine t
          ∧ t.drive = s.drive ∧ t.store = s.store ∧ t.table = s.table ∧ t.mon = s.mon ∧ t.leak = s.leak)
        ∧ (s.stateOf st ≠ .done →
            exec (.rel tag (stationCode st)) s = .next (s.received.replies 0x92 tag [0x05])))

/-- ENA (R23): OFF to IDLE and IDLE to OFF, taken with the change flag set; OK without change for the state asked for or for
on elsewhere; off elsewhere STATE; no output of the drive changes; and a restart keeps the enabled flag and OFF. -/
def Obligations.EnaMovesBetweenOffAndIdle : Prop :=
  (∀ (tag : Byte) (s : State), s.link.slot = none →
    (∀ b e : Byte, b.toNat = 0 ∨ 6 < b.toNat → exec (.ena tag b e) s = .next (s.received.replies 0x93 tag [0x04]))
    ∧ (∀ (st : Station) (e : Byte),
        (s.stateOf st = .off → e ≠ 0 → exec (.ena tag (stationCode st) e) s =
          .next ((s.received.modCtx st (fun c => { c with enabled := true, state := .idle })).markChanged st
            |>.replies 0x93 tag [0x00]))
        ∧ (s.stateOf st = .idle → e = 0 → exec (.ena tag (stationCode st) e) s =
          .next ((s.received.modCtx st (fun c => { c with enabled := false, state := .off })).markChanged st
            |>.replies 0x93 tag [0x00]))
        ∧ ((s.stateOf st = .off ∧ e = 0) ∨ (s.stateOf st ≠ .off ∧ e ≠ 0) →
            exec (.ena tag (stationCode st) e) s = .next (s.received.replies 0x93 tag [0x00]))
        ∧ (s.stateOf st ≠ .off → s.stateOf st ≠ .idle → e = 0 →
            exec (.ena tag (stationCode st) e) s = .next (s.received.replies 0x93 tag [0x05]))))
  ∧ (∀ s : State, s.link.restartPending = true → s.link.tx = .reply → ∃ t, exec .restart s = .next t
      ∧ ∀ st : Station, (t.ctx st).enabled = (s.ctx st).enabled ∧ (s.stateOf st = .off → t.stateOf st = .off))

/-- IDN, RDS, TBL, RDM, RDR and RDN answer OK with what they read at the arrival, or are refused, and change nothing but the
link. RDS refuses a station number outside 1 to 6 with BAD_STATION (R24); RDM a scope of 7 to 127 so, and one of 128 to 255
with BAD_VALUE (R93, R204); RDR a selector that is neither with BAD_VALUE, an empty store with EMPTY, a number the store does
not hold with NOT_FOUND, each with the occupancy (R169). That the unnamed selector goes before the empty store is the model's
reading (log entry 34), and so is a mask set being that of the masked kinds (log entry 21). -/
def Obligations.ReadsChangeNothing : Prop :=
  ∀ (tag : Byte) (s : State), s.link.slot = none →
    exec (.idn tag) s = .next (s.received.replies 0x81 tag (0x00 :: s.identity))
    ∧ (∀ st : Station, exec (.rds tag (stationCode st)) s = .next (s.received.replies 0x94 tag (0x00 :: s.stationView st)))
    ∧ exec (.tbl tag) s =
        .next (s.received.replies 0xA3 tag (0x00 :: byteOf s.tableLines.length :: s.tableLines.flatten))
    ∧ (∀ st : Station, exec (.rdm tag (stationCode st)) s =
        .next (s.received.replies 0xB2 tag (0x00 :: stationCode st :: allStQuantities.flatMap (s.stationLine st))))
    ∧ exec (.rdm tag 0) s = .next (s.received.replies 0xB2 tag (0x00 :: 0x00 ::
        (monitorLine s.mon.supply true s.mon.globals[(Quantity.supply).idx] 0 ++ globalTableBytes s.mon.globals
          ++ maskTableBytes s.mon.masks)))
    ∧ (∀ (n : Word32) (oldest : Record) (rest : List Record), s.store.records = oldest :: rest →
        exec (.rdr tag 0 n) s =
          .next (s.received.replies 0xC0 tag (0x00 :: byteOf (rest.length + 1) :: oldest.bytes)))
    ∧ (∀ (n : Word32) (r : Record), s.store.records.find? (fun r => r.number == some n.toNat) = some r →
        exec (.rdr tag 1 n) s =
          .next (s.received.replies 0xC0 tag (0x00 :: byteOf s.store.records.length :: r.bytes)))
    ∧ exec (.rdn tag) s = .next (s.received.replies 0xC9 tag (0x00 :: s.counters.snapshot.bytes))
    ∧ (∀ b : Byte, b.toNat = 0 ∨ 6 < b.toNat → exec (.rds tag b) s = .next (s.received.replies 0x94 tag [0x04]))
    ∧ (∀ b : Byte, (6 < b.toNat → b.toNat < 128 → exec (.rdm tag b) s = .next (s.received.replies 0xB2 tag [0x04]))
        ∧ (128 ≤ b.toNat → exec (.rdm tag b) s = .next (s.received.replies 0xB2 tag [0x03])))
    ∧ (∀ (sel : Byte) (n : Word32),
        (sel ≠ 0 → sel ≠ 1 → exec (.rdr tag sel n) s =
          .next (s.received.replies 0xC0 tag [0x03, byteOf s.store.records.length]))
        ∧ (sel = 0 ∨ sel = 1 → s.store.records = [] → exec (.rdr tag sel n) s =
          .next (s.received.replies 0xC0 tag [0x12, 0x00]))
        ∧ (sel = 1 → s.store.records ≠ [] → (∀ r ∈ s.store.records, r.number ≠ some n.toNat) → exec (.rdr tag sel n) s =
          .next (s.received.replies 0xC0 tag [0x14, byteOf s.store.records.length])))

/-! ### Step chains and the drive -/

/-- A drive update moves the setpoint toward the target by the rate, takes the target when that is as near, stays there, and
touches nothing else; it never oversteps the target. The ports of every station then give the setpoint divided by 100,
truncated toward zero, and the torque limit, both 0 while the enable is off (R68). -/
def Obligations.DriveUpdateRampsSetpoint : Prop :=
  ∀ (st : Station) (s : State), ∃ t, exec (.driveUpdate st) s = .next t
    ∧ (let d := s.drive[st]
       t = { s with drive := s.drive.upd st (fun _ => { d with setpoint :=
          if d.target - d.setpoint > d.rate then d.setpoint + d.rate
          else if d.setpoint - d.target > d.rate then d.setpoint - d.rate
          else d.target }) })
    ∧ (t.drive[st].setpoint - t.drive[st].target).natAbs ≤ (s.drive[st].setpoint - s.drive[st].target).natAbs
    ∧ (∀ j : Station, (let d := t.drive[j]
        (0 ≤ d.setpoint → 0 ≤ d.rpm ∧ 100 * d.rpm ≤ d.setpoint ∧ d.setpoint < 100 * d.rpm + 100)
        ∧ (d.setpoint ≤ 0 → d.rpm ≤ 0 ∧ d.setpoint ≤ 100 * d.rpm ∧ 100 * d.rpm - 100 < d.setpoint)
        ∧ d.setpointOut = (if d.enable then d.rpm else 0) ∧ d.torqueOut = (if d.enable then d.torqueLimit else 0)))

/-- The timeouts that fail a step, taken while it is in progress: a RAMP's, a GATE's whose action is FAIL, and a DWELL
extension's. The step ends FAILED with its cause, and the station goes to STOPPING without an abort cause, which gives no
notice. -/
def Obligations.StepTimeoutsFailStep : Prop :=
  ∀ (st : Station) (x : StepCtx) (r : Record) (s : State), s.RunsStep st x r →
    (∀ target rate torque tolerance inBand timeout, x.spec = .ramp target rate torque tolerance inBand timeout →
      timeout ≤ elapsed x.start s.now → ∃ t, exec (.rampTimeout st) s = .next t ∧ s.EntersStopping t st none false ∧ t.link = s.link
        ∧ t.stepEntries st = some (r.steps ++ [⟨x.index, .ramp, .failed, some .rampTimeout⟩]))
    ∧ (∀ q rel value hold timeout, x.spec = .gate q rel value hold timeout .fail →
      timeout ≤ elapsed x.start s.now → ∃ t, exec (.gateTimeout st) s = .next t ∧ s.EntersStopping t st none false ∧ t.link = s.link
        ∧ t.stepEntries st = some (r.steps ++ [⟨x.index, .gate, .failed, some .gateTimeout⟩]))
    ∧ (∀ duration g extend ext since, x.spec = .dwell duration (some g) extend ext → x.phase = .extended since →
      ext ≤ elapsed since s.now → ∃ t, exec (.extendTimeout st) s = .next t ∧ s.EntersStopping t st none false ∧ t.link = s.link
        ∧ t.stepEntries st = some (r.steps ++ [⟨x.index, .dwell, .failed, some .extendTimeout⟩]))

/-- The events that end a step and let the chain go on, when it has a next step: a DWELL's duration without a window, with
its window ended, or with its group closed or the window unmeasured; a GATE's timeout whose action is CONTINUE; SKG. A
window with extend, its group open and the window not unmeasured, goes to EXTENDED instead and nothing else changes (R61).
SKG for a station number outside 1 to 6 is refused BAD_STATION, and for a station that is not RUNNING a GATE, NO_GATE (R64).
The next step begins with its drive or leak circuit (R56, R67); a window starts as R60 and R99 to R102 have it (with a wait
limit of 0 as log entry 14 has it), here where the event ends no window in which an engine accumulates or the station waits;
a step of another kind leaves engines and groups. The record takes GATE_TIMEOUT or GATE_SKIPPED (R63, R64). -/
def Obligations.StepEndsBeginNextStep : Prop :=
  (∀ (st : Station) (x : StepCtx) (r : Record) (s : State) (duration g ext : Nat), s.RunsStep st x r →
    x.spec = .dwell duration (some g) true ext → x.phase = .timed → x.unmeasured = false →
    s.groupClosed st g = false → duration ≤ elapsed x.start s.now →
    exec (.dwellDurationExpiry st) s = .next (s.modStep st (fun y => { y with phase := .extended s.now })))
  ∧ (∀ (tag : Byte) (s : State), s.link.slot = none →
    (∀ b : Byte, b.toNat = 0 ∨ 6 < b.toNat → exec (.skg tag b) s = .next (s.received.replies 0x96 tag [0x04]))
    ∧ (∀ st : Station, s.stateOf st ≠ .running
        ∨ (∀ x q rel value hold timeout action, (s.ctx st).step = some x → x.spec ≠ .gate q rel value hold timeout action) →
        exec (.skg tag (stationCode st)) s = .next (s.received.replies 0x96 tag [0x11])))
  ∧ ∀ (st : Station) (x : StepCtx) (r : Record) (spec : StepSpec) (s : State), s.RunsStep st x r →
    s.nextIs st x.index spec →
    (∀ duration window extend ext, x.spec = .dwell duration window extend ext → x.phase = .timed →
      duration ≤ elapsed x.start s.now →
      (∀ g, window = some g → extend = true → s.groupClosed st g = true ∨ x.unmeasured = true) →
      ∃ t, exec (.dwellDurationExpiry st) s = .next t ∧ s.StepsOn t st ⟨x.index, .dwell, .done, none⟩ spec
        ∧ (window = none ∨ extend = true ∨ (s.waiting st = false ∧ ∀ g l, window = some g → s.line st g = some l →
            l.status = .closed ∨ ∀ e, l.engine = some e → (s.engine e).state ≠ .accumulating) →
          s.BeginsStep t st (x.index + 1) spec r))
    ∧ (∀ q rel value hold timeout, x.spec = .gate q rel value hold timeout .proceed →
      timeout ≤ elapsed x.start s.now →
      ∃ t, exec (.gateTimeout st) s = .next t ∧ s.StepsOn t st ⟨x.index, .gate, .timedOut, none⟩ spec
        ∧ s.BeginsStep t st (x.index + 1) spec (r.addRemark .gateTimeout))
    ∧ (∀ (tag : Byte) q rel value hold timeout action, x.spec = .gate q rel value hold timeout action →
      s.link.slot = none →
      ∃ t, exec (.skg tag (stationCode st)) s = .next t ∧ s.StepsOn t st ⟨x.index, .gate, .skipped, none⟩ spec
        ∧ s.BeginsStep t st (x.index + 1) spec (r.addRemark .gateSkipped) ∧ t.link.slot = some ⟨0x96, tag, [0x00, byteOf x.index]⟩)

/-- The chain's last step ends: with the setpoint 0 and the axle at standstill the station goes to COMPLETING, otherwise to
STOPPING without an abort cause (R6), here at the end of a DWELL without a window. -/
def Obligations.ChainEndDecidesState : Prop :=
  ∀ (st : Station) (x : StepCtx) (r : Record) (s : State) (duration ext : Nat) (extend : Bool), s.RunsStep st x r →
    x.spec = .dwell duration none extend ext → x.phase = .timed → duration ≤ elapsed x.start s.now →
    (s.recipe st).bind (fun c => c.steps[x.index]?) = none →
    ((s.drive[st].setpoint = 0 ∧ (s.quantity st .speed).held.natAbs ≤ s.config.standstill) →
      ∃ t, exec (.dwellDurationExpiry st) s = .next t ∧ s.EntersCompleting t st)
    ∧ (¬(s.drive[st].setpoint = 0 ∧ (s.quantity st .speed).held.natAbs ≤ s.config.standstill) →
      ∃ t, exec (.dwellDurationExpiry st) s = .next t ∧ s.EntersStopping t st none false ∧ t.link = s.link
        ∧ t.stepEntries st = some (r.steps ++ [⟨x.index, .dwell, .done, none⟩]))

/-- The verdict of a closed record (R164): ABORTED with a cause; else FAIL with a failed step, group, leak or check; else
INCOMPLETE with any other group or leak result than PASS; else PASS. -/
def Obligations.VerdictFollowsRecord : Prop :=
  ∀ r : Record,
    (r.compose = .aborted ↔ r.cause ≠ none)
    ∧ (r.compose = .fail ↔ r.cause = none ∧ ((∃ x ∈ r.steps, x.outcome = .failed) ∨ (∃ x ∈ r.groups, x.outcome = .fail)
        ∨ (∃ x ∈ r.leaks, x.outcome = .failFill ∨ x.outcome = .failGross ∨ x.outcome = .failLeak ∨ x.outcome = .rise)
        ∨ (∃ x ∈ r.checks, x.pass = false)))
    ∧ (r.compose = .pass ↔ r.cause = none ∧ (∀ x ∈ r.steps, x.outcome ≠ .failed) ∧ (∀ x ∈ r.groups, x.outcome = .pass)
        ∧ (∀ x ∈ r.leaks, x.outcome = .pass) ∧ (∀ x ∈ r.checks, x.pass = true))

/-! ### Monitoring -/

/-- A monitor sample of any quantity (R80, R85, R86): a valid one is clamped and held and zeroes the invalid count, an
invalid one leaves the held value and counts, saturating; the conditions compare the held value strictly with the reference
thresholds; a watched sample latches what holds; every other quantity, the thresholds and the masks stay. SUPPLY is always
watched, against the global thresholds; each kind that latches unmasked gives its NFL, in the order of R87 (R91); and with
no grant held its sample is where the head of the supply queue is granted, when neither LOW_ALARM nor LOST holds (R128). A
station's latches give their NFLs too, and where the station stays in its state and its step, a warning leaves its remark in
RUNNING and STOPPING (R89), an alarm its own in STOPPING (R9, R88), in that order; elsewhere a latch leaves none. -/
def Obligations.SampleHoldsAndJudges : Prop :=
  (∀ (st : Station) (q : StQuantity) (x : SensorInput) (s : State), x.target = some (st, q) →
    ∃ t, exec (.monitorSample x) s = .next t
      ∧ (let v := ((s.gather x).sampleValue x).map (Quantity.station q).clamp
         let m := s.quantity st q
         let n := t.quantity st q
         let thr := s.reference st q
         n.held = v.getD m.held ∧ n.lastValid = v.isSome
         ∧ n.invalid = (if v.isSome then 0 else min (m.invalid + 1) 65535)
         ∧ (n.current.highAlarm = true ↔ n.held > thr.highAlarm) ∧ (n.current.highWarn = true ↔ n.held > thr.highWarn)
         ∧ (n.current.lowWarn = true ↔ n.held < thr.lowWarn) ∧ (n.current.lowAlarm = true ↔ n.held < thr.lowAlarm)
         ∧ (n.current.lost = true ↔ 10 ≤ n.invalid)
         ∧ (∀ k : FlagKind, n.latched.has k = (m.latched.has k || (s.watched st q && n.current.has k))))
      ∧ (∀ (j : Station) (p : StQuantity), (j, p) ≠ (st, q) → t.quantity j p = s.quantity j p)
      ∧ t.mon.supply = s.mon.supply ∧ t.mon.globals = s.mon.globals ∧ t.mon.masks = s.mon.masks ∧ s.SameLine t
      ∧ s.OthersKept t st
      ∧ (let n := t.quantity st q
         let latched := [FlagKind.highAlarm, .lowAlarm, .lost, .highWarn, .lowWarn].filter (fun k =>
           s.watched st q && n.current.has k && !(s.quantity st q).latched.has k)
         t.stateOf st = s.stateOf st → t.stepIndex st = s.stepIndex st →
           s.GivesNotices t ((latched.filter (fun k => !(s.mon.masks[(Quantity.station q).idx]).has k)).map
             (fun k => .nfl (some st) (.station q) k n.held s.now))
           ∧ t.remarks st = (s.ctx st).record.map (fun r => (latched.foldl (fun r k =>
               match s.stateOf st, k.isAlarm with
               | .stopping, true => r.addRemark (.alarm q k)
               | .running, false | .stopping, false => r.addRemark (.warning q k)
               | _, _ => r) r).remarks)))
  ∧ (∀ (r : Reading) (s : State), ∃ t, exec (.monitorSample (.supply r)) s = .next t
      ∧ (let v := (Reading.valid r).map Quantity.supply.clamp
         let m := s.mon.supply
         let n := t.mon.supply
         let thr := s.mon.globals[Quantity.supply.idx]
         n.held = v.getD m.held ∧ n.lastValid = v.isSome
         ∧ n.invalid = (if v.isSome then 0 else min (m.invalid + 1) 65535)
         ∧ (n.current.highAlarm = true ↔ n.held > thr.highAlarm) ∧ (n.current.highWarn = true ↔ n.held > thr.highWarn)
         ∧ (n.current.lowWarn = true ↔ n.held < thr.lowWarn) ∧ (n.current.lowAlarm = true ↔ n.held < thr.lowAlarm)
         ∧ (n.current.lost = true ↔ 10 ≤ n.invalid)
         ∧ (∀ k : FlagKind, n.latched.has k = (m.latched.has k || n.current.has k))
         ∧ s.GivesNotices t (([.highAlarm, .lowAlarm, .lost, .highWarn, .lowWarn].filter (fun k =>
              n.current.has k && !m.latched.has k && !(s.mon.masks[Quantity.supply.idx]).has k)).map
                (fun k => .nfl none .supply k n.held s.now))
         ∧ (∀ st rest, s.leak.queue = st :: rest → s.leak.grant = none → n.current.lowAlarm = false → n.current.lost = false →
              t.leak.grant = some st ∧ t.leak.queue = rest ∧ (t.circuit st).phase = .fill
              ∧ (∀ j, j ≠ st → t.circuit j = s.circuit j))
         ∧ (s.leak.queue = [] ∨ n.current.lowAlarm = true ∨ n.current.lost = true → s.leak.grant = none → t.leak = s.leak))
      ∧ t.mon.stations = s.mon.stations ∧ t.mon.globals = s.mon.globals ∧ t.mon.masks = s.mon.masks ∧ t.mon.vib = s.mon.vib
      ∧ s.SameLine t ∧ t.drive = s.drive ∧ t.store = s.store ∧ t.table = s.table
      ∧ (s.leak.grant = none → t.seq = s.seq))

/-- A sample that makes an alarm kind latch first on a RUNNING station is its abort cause, and takes it to STOPPING at that
sample with the drive ramping down (R87, R88). The kind's NFL goes before the NST of that entry, each NFL when unmasked
(R91, R195). That the NFLs of the kinds latched after it at the same sample follow the NST is the model's reading (log entry
16). So is that the latch goes before the step in progress reads the sample: a sample that would also end the step, or fail
a CHECK under stop-on-fail, aborts the test with the standstill count 0 (log entry 17). -/
def Obligations.AlarmLatchCutsTest : Prop :=
  ∀ (st : Station) (q : StQuantity) (x : SensorInput) (s : State) (k : FlagKind) (rest : List FlagKind),
    x.target = some (st, q) → s.stateOf st = .running → k.isAlarm = true →
    (let m := s.quantity st q
     newLatches (s.watched st q)
       (m.sample (((s.gather x).sampleValue x).map (Quantity.station q).clamp) (s.reference st q) (s.watched st q)).current
       m.latched = k :: rest) →
    ∃ t, exec (.monitorSample x) s = .next t ∧ t.stateOf st = .stopping ∧ (t.ctx st).stopStart = some s.now
      ∧ (t.ctx st).step = none
      ∧ (t.ctx st).test = (s.ctx st).test.map (fun c => { c with cause := some (.monitorAlarm q k) })
      ∧ t.drive[st] = { s.drive[st] with target := 0, rate := s.config.stopRate, standstill := 0 }
      ∧ s.OthersKept t st ∧ t.store = s.store
      ∧ (let nfl := fun k : FlagKind => if (s.mon.masks[(Quantity.station q).idx]).has k then []
           else [NoticeBody.nfl (some st) (.station q) k (t.quantity st q).held s.now]
         s.GivesNotices t (nfl k ++ .nst st .stopping (some (.monitorAlarm q k)) none :: rest.flatMap nfl))

/-- The tenth invalid sample in a row of any quantity makes its LOST condition hold, with the held value kept (R81). That
QUANTITY_LOST is that very MONITOR_SAMPLE is the model's reading (log entry 3). -/
def Obligations.TenthInvalidSampleLoses : Prop :=
  ∀ (x : SensorInput) (s : State), (s.sampled x).invalid = 9 → (s.gather x).sampleValue x = none →
    ∃ t, exec (.quantityLost x) s = .next t ∧ exec (.monitorSample x) s = .next t
      ∧ (t.sampled x).invalid = 10 ∧ (t.sampled x).current.lost = true ∧ (t.sampled x).lastValid = false
      ∧ (t.sampled x).held = (s.sampled x).held

/-- The n-th sample of a CHECK, when it latches nothing: the mean of the n held values is judged by the mode, the result
appended, the step DONE and the next step begun (R65, R66); but a failed one under stop-on-fail takes the station to
STOPPING without an abort cause and without a notice, its step DONE (R7, R66). That a sample at the line time of the step
start counts among the n is the model's reading (log entry 35), and so are that CHECK_AVERAGED is that very sample's event
(log entry 3) and the marks of a next window begun with a wait limit of 0 (log entry 14). -/
def Obligations.CheckJudgesMean : Prop :=
  ∀ (st : Station) (x : StepCtx) (r : Record) (s : State) (y : SensorInput) (q : StQuantity)
    (averaging : Nat) (mode : CheckMode) (reference : Int) (tolerance : Nat) (sum : Int) (count : Nat),
    s.RunsStep st x r → y.target = some (st, q) →
    x.spec = .check q averaging mode reference tolerance → x.phase = .averaging sum count →
    count + 1 = averaging / 10 → s.latchesNothing st q ((s.gather y).sampleValue y) →
    (let u := s.takeSample y
     let mean := roundDiv (sum + (u.quantity st q).held) (averaging / 10)
     let pass := match mode with
       | .within => decide ((mean - reference).natAbs ≤ tolerance)
       | .atLeast => decide (reference ≤ mean)
       | .atMost => decide (mean ≤ reference)
     (∀ spec, s.nextIs st x.index spec → (pass = true ∨ s.stopOnFail st = false) →
       ∃ t, exec (.checkAveraged y) s = .next t ∧ u.StepsOn t st ⟨x.index, .check, .done, none⟩ spec
         ∧ u.BeginsStep t st (x.index + 1) spec r
         ∧ (t.ctx st).record.map Record.checks = some (r.checks ++ [⟨x.index, q, mean, pass⟩]))
     ∧ (pass = false → s.stopOnFail st = true →
       ∃ t, exec (.checkAveraged y) s = .next t ∧ u.EntersStopping t st none false ∧ t.link = s.link
         ∧ t.stepEntries st = some (r.steps ++ [⟨x.index, .check, .done, none⟩])
         ∧ (t.ctx st).record.map Record.checks = some (r.checks ++ [⟨x.index, q, mean, pass⟩])))

/-- A sample that latches nothing and is read by the step in progress of its station. A RAMP reads SPEED (R57): out of band
it is RAMPING; in band its hold begins or goes on, and at the in-band time the step ends DONE. A GATE reads its quantity
(R62): without the condition it is WAITING; with it its hold begins or goes on, and at the hold time the step ends DONE. A
CHECK sums its quantity up to the last sample but one (R65). A sample the step does not read leaves it as it is. That a
sample at the line time of the CHECK's start is summed is the model's reading (log entry 35). A window begun with a wait
limit of 0 is log entry 14's. -/
def Obligations.SampleMovesStep : Prop :=
  ∀ (st : Station) (x : StepCtx) (r : Record) (y : SensorInput) (q : StQuantity) (s u : State),
    s.RunsStep st x r → y.target = some (st, q) → s.latchesNothing st q ((s.gather y).sampleValue y) → u = s.takeSample y →
    (let m := u.quantity st q
     (∀ target rate torque tolerance inBand timeout, x.spec = .ramp target rate torque tolerance inBand timeout → q = .speed →
        (let ok := s.drive[st].setpoint = s.drive[st].target ∧ (m.held - target).natAbs ≤ tolerance
         let since := match x.phase with | .inBand since => since | _ => s.now
         (¬ok → exec (.monitorSample y) s = .next (u.modStep st (fun x => { x with phase := .ramping })))
         ∧ (ok → elapsed since s.now < inBand →
            exec (.monitorSample y) s = .next (u.modStep st (fun x => { x with phase := .inBand since })))
         ∧ (∀ spec, ok → inBand ≤ elapsed since s.now → s.nextIs st x.index spec →
            ∃ t, exec (.monitorSample y) s = .next t ∧ u.StepsOn t st ⟨x.index, .ramp, .done, none⟩ spec
              ∧ u.BeginsStep t st (x.index + 1) spec r)))
     ∧ (∀ rel value hold timeout action, x.spec = .gate q rel value hold timeout action →
        (let ok := m.lastValid = true ∧ (match rel with | .atLeast => value ≤ m.held | .atMost => m.held ≤ value)
         let since := match x.phase with | .holding since => since | _ => s.now
         (¬ok → exec (.monitorSample y) s = .next (u.modStep st (fun x => { x with phase := .waiting })))
         ∧ (ok → elapsed since s.now < hold →
            exec (.monitorSample y) s = .next (u.modStep st (fun x => { x with phase := .holding since })))
         ∧ (∀ spec, ok → hold ≤ elapsed since s.now → s.nextIs st x.index spec →
            ∃ t, exec (.monitorSample y) s = .next t ∧ u.StepsOn t st ⟨x.index, .gate, .done, none⟩ spec
              ∧ u.BeginsStep t st (x.index + 1) spec r)))
     ∧ (∀ averaging mode reference tolerance sum count, x.spec = .check q averaging mode reference tolerance →
        x.phase = .averaging sum count → count + 1 ≠ averaging / 10 → exec (.monitorSample y) s =
          .next (u.modStep st (fun x => { x with phase := .averaging (sum + m.held) (count + 1) })))
     ∧ ((match x.spec with
          | .ramp .. => q ≠ .speed
          | .dwell .. => True
          | .gate p .. | .check p .. => q ≠ p
          | .leak => match (s.circuit st).phase with
            | .none | .waitSupply | .fill | .vent => True
            | .standstillWait => q ≠ .speed
            | .settle => q ≠ .leakPress
            | .measure => q ≠ .leakPress ∧ q ≠ .airTemp) → exec (.monitorSample y) s = .next u))

/-- STOPPING ends in COMPLETING at the stop timeout, 30,000 ms after the stopping start time, with the enable dropped and a
STOP_TIMEOUT remark (R11, R72), and at the twentieth SPEED sample in a row at standstill with the setpoint 0 (R71). At that
event, here with no leak phase but VENT, the record is closed, the end time and then the composed verdict written, and it is
offered to the store (R12, R162, R166): with room, an empty deposit queue and a number left it is numbered and appended, and
the station is DONE with its NST given (R13, R167); otherwise the station waits at the tail of the deposit queue, and
nothing is given. That STANDSTILL_CONFIRMED is that very MONITOR_SAMPLE is the model's reading (log entry 3). -/
def Obligations.StoppingEndsAtStandstillOrTimeout : Prop :=
  ∀ (st : Station) (c : TestCtx) (r : Record) (s : State), s.stateOf st = .stopping → (s.ctx st).test = some c →
    (s.ctx st).record = some r → (s.circuit st).phase = .none ∨ (s.circuit st).phase = .vent →
    (let ends := fun (t : State) (x : Record) =>
      let k := { x with endTime := some s.now, verdict := some x.compose }
      s.OffersRecord t st c k ∧ (t.circuit st).phase = .none ∧ t.drive[st] = Drive.off
      ∧ (∀ n, s.store.next = some n → s.store.records.length < 48 → s.store.deposit = [] →
          s.GivesNotices t [.nst st .done c.cause (some (k.compose, n))])
      ∧ (s.store.next = none ∨ 48 ≤ s.store.records.length ∨ s.store.deposit ≠ [] → s.GivesNotices t [])
     (∀ since, (s.ctx st).stopStart = some since → 30000 ≤ elapsed since s.now →
        ∃ t, exec (.stopTimeout st) s = .next t ∧ s.EntersCompleting t st ∧ ends t (r.addRemark .stopTimeout))
     ∧ (∀ fault : Bool, s.drive[st].setpoint = 0 → s.drive[st].standstill = 19 →
        s.latchesNothing st .speed (s.sampleValue (.speed st fault)) →
        (s.takeSample (.speed st fault)).atStandstill st = true →
        ∃ t, exec (.standstillConfirmed st fault) s = .next t ∧ exec (.monitorSample (.speed st fault)) s = .next t
          ∧ (s.takeSample (.speed st fault)).EntersCompleting t st ∧ ends t r))

/-- LIM (R83): a list of 1 to 7 entries of known quantities, none twice, each in range and in order, replaces the thresholds of
the quantities it names; any other list is refused BAD_VALUE and changes nothing. MSK (R92): a list of 1 to 35 settings of
known quantities and kinds, mask values 0 or 1 and no pair twice, sets the named masks; any other list is refused BAD_VALUE
and changes nothing. That the set a mask table sends is that of the masked kinds is the model's reading (log entry 21). -/
def Obligations.LimAndMskSetWhatTheyName : Prop :=
  (∀ (tag : Byte) (es : List LimEntry) (s : State), s.link.slot = none →
    (∀ xs : List (Quantity × Thresholds), 1 ≤ xs.length → xs.length ≤ 7 → (xs.map Prod.fst).Nodup →
      List.Forall₂ (fun e x => quantityOf e.quantity = some x.1
        ∧ x.2 = ⟨e.lowAlarm.toInt, e.lowWarn.toInt, e.highWarn.toInt, e.highAlarm.toInt⟩
        ∧ x.2.ordered = true ∧ x.2.inRange x.1 = true) es xs →
      ∃ g : ThresholdTable,
        exec (.lim tag es) s = .next
          (({ s.received with mon := { s.mon with globals := g } } : State).replies 0xB0 tag (0x00 :: globalTableBytes g))
        ∧ ∀ q : Quantity, g[q.idx] = ((xs.find? (fun x => x.1 == q)).map Prod.snd).getD s.mon.globals[q.idx])
    ∧ ((es = [] ∨ 7 < es.length
        ∨ (∃ e ∈ es, quantityOf e.quantity = none)
        ∨ ¬(es.map (fun e => quantityOf e.quantity)).Nodup
        ∨ (∃ e ∈ es, ∃ q, quantityOf e.quantity = some q ∧
            ((⟨e.lowAlarm.toInt, e.lowWarn.toInt, e.highWarn.toInt, e.highAlarm.toInt⟩ : Thresholds).ordered = false
              ∨ (⟨e.lowAlarm.toInt, e.lowWarn.toInt, e.highWarn.toInt, e.highAlarm.toInt⟩ : Thresholds).inRange q = false)))
        → exec (.lim tag es) s = .next (s.received.replies 0xB0 tag [0x03])))
  ∧ (∀ (tag : Byte) (es : List MskSetting) (s : State), s.link.slot = none →
    (∀ xs : List (Quantity × FlagKind × Bool), 1 ≤ xs.length → xs.length ≤ 35 →
      (xs.map (fun x => (x.1, x.2.1))).Nodup →
      List.Forall₂ (fun (e : MskSetting) x => quantityOf e.quantity = some x.1 ∧ flagKindOf e.kind = some x.2.1
        ∧ e.mask = yesNo x.2.2) es xs →
      ∃ g : MaskTable,
        exec (.msk tag es) s = .next
          (({ s.received with mon := { s.mon with masks := g } } : State).replies 0xB1 tag (0x00 :: maskTableBytes g))
        ∧ ∀ (q : Quantity) (k : FlagKind), g[q.idx].has k =
            ((xs.find? (fun x => x.1 == q && x.2.1 == k)).map (fun x => x.2.2)).getD (s.mon.masks[q.idx].has k))
    ∧ ((es = [] ∨ 35 < es.length
        ∨ (∃ e ∈ es, quantityOf e.quantity = none ∨ flagKindOf e.kind = none ∨ (e.mask ≠ 0 ∧ e.mask ≠ 1))
        ∨ ¬(es.map (fun e => (quantityOf e.quantity, flagKindOf e.kind))).Nodup)
        → exec (.msk tag es) s = .next (s.received.replies 0xB1 tag [0x03])))

/-- CLF with a station's scope or GLOBAL and a list of its scope without repeats clears the named latched flags, all of them
for an empty list, and nothing else of the Monitor. It is refused, and clears nothing: BAD_STATION for a scope of 7 to 127,
BAD_VALUE for one of 128 to 255; BAD_VALUE for a pair with an unknown quantity or kind, SUPPLY under a station, a station
quantity under GLOBAL, or a pair named twice (R94, R204). -/
def Obligations.ClfClearsNamedFlags : Prop :=
  (∀ (tag : Byte) (ps : List FlagPair) (xs : List (Quantity × FlagKind)) (s : State), s.link.slot = none → xs.Nodup →
    List.Forall₂ (fun (p : FlagPair) x => quantityOf p.quantity = some x.1 ∧ flagKindOf p.kind = some x.2) ps xs →
    (∀ st : Station, (∀ x ∈ xs, x.1 ≠ .supply) → ∃ t, exec (.clf tag (stationCode st) ps) s = .next t
      ∧ (∀ (q : StQuantity) (k : FlagKind), (t.quantity st q).latched.has k =
          ((s.quantity st q).latched.has k && !(xs = [] || xs.contains (.station q, k))))
      ∧ (∀ q : StQuantity, { t.quantity st q with latched := (s.quantity st q).latched } = s.quantity st q)
      ∧ (∀ j : Station, j ≠ st → t.mon.stations[j] = s.mon.stations[j])
      ∧ t.mon.supply = s.mon.supply ∧ t.mon.globals = s.mon.globals ∧ t.mon.masks = s.mon.masks ∧ t.seq = s.seq
      ∧ t.link.slot = some ⟨0xB3, tag,
          0x00 :: stationCode st :: allStQuantities.map (fun q => (t.quantity st q).latched.code)⟩)
    ∧ ((∀ x ∈ xs, x.1 = .supply) → ∃ t, exec (.clf tag 0 ps) s = .next t
      ∧ (∀ k : FlagKind, t.mon.supply.latched.has k =
          (s.mon.supply.latched.has k && !(xs = [] || xs.contains (.supply, k))))
      ∧ { t.mon.supply with latched := s.mon.supply.latched } = s.mon.supply
      ∧ t.mon.stations = s.mon.stations ∧ t.mon.globals = s.mon.globals ∧ t.mon.masks = s.mon.masks ∧ t.seq = s.seq
      ∧ t.link.slot = some ⟨0xB3, tag, [0x00, 0x00, t.mon.supply.latched.code]⟩))
  ∧ (∀ (tag scope : Byte) (ps : List FlagPair) (s : State), s.link.slot = none →
    (6 < scope.toNat → scope.toNat < 128 → exec (.clf tag scope ps) s = .next (s.received.replies 0xB3 tag [0x04]))
    ∧ (128 ≤ scope.toNat → exec (.clf tag scope ps) s = .next (s.received.replies 0xB3 tag [0x03]))
    ∧ (scope.toNat ≤ 6 →
        (∃ p ∈ ps, quantityOf p.quantity = none ∨ flagKindOf p.kind = none
            ∨ (scope ≠ 0 ∧ quantityOf p.quantity = some .supply)
            ∨ (scope = 0 ∧ ∃ q, quantityOf p.quantity = some (.station q)))
          ∨ ¬(ps.map (fun p => (quantityOf p.quantity, flagKindOf p.kind))).Nodup →
        exec (.clf tag scope ps) s = .next (s.received.replies 0xB3 tag [0x03])))

/-! ### Noise analysis -/

/-- An index event keeps the two latest stamps and the net count between them and starts the count and the shaft position
again; a line moves them by one, modulo 512, once an index has been seen. An ACCUMULATING engine opens a revolution at an
index with bin 0's sample, and takes each bin's sample at the first crossing of its position. The Monitor gathers for VIB,
at an index and at a line, the greater magnitude of the conditioned value at the shaft bin and a reported fault (R78, R79).
Nothing but the encoder, the clock's microseconds, that engine and what is gathered for the station's VIB is touched, by an
index that closes no judged revolution or by a line. That the microseconds come with the index and never run backward is the
model's choice (log entry 6). -/
def Obligations.EncoderEventsTrackTheShaft : Prop :=
  (∀ (st : Station) (us : Fin 1000) (r : AccelReading) (s : State), ∃ t, exec (.encoderIndex st us r) s = .next t
    ∧ (let e := s.enc[st]
       t.enc = s.enc.upd st (fun _ =>
        { last := some ⟨s.now, max s.clock.us us⟩, prev := e.last
          latestNet := if e.last.isSome then e.net else e.latestNet, net := 0, pos := 0 }))
    ∧ t.clock = ⟨s.now, max s.clock.us us⟩
    ∧ (let g := s.mon.vib[st]
       t.mon = { s.mon with vib := s.mon.vib.upd st (fun _ =>
         ⟨max g.peak (s.cond[st].accelValue 0 r).natAbs,
           g.fault || (match r with | .value _ => false | .openCircuit | .shortCircuit | .noData => true)⟩) })
    ∧ (s.accumulating st = none → s.OnlyShaft t st ∧ t.noise = s.noise)
    ∧ (∀ e, s.accumulating st = some e → (s.engine e).revOpen = false → s.OnlyShaft t st
        ∧ t.noise.queue = s.noise.queue ∧ t.noise.groups = s.noise.groups ∧ t.noise.deferred = s.noise.deferred
        ∧ (∀ d, d ≠ e → t.engine d = s.engine d)
        ∧ t.engine e = { s.engine e with
            revOpen := true
            samples := (Vector.replicate 128 none).set 0 (some (s.cond[st].accelValue 0 r)) }))
  ∧ (∀ (st : Station) (forward : Bool) (r : AccelReading) (s : State), ∃ t, exec (.encoderLine st forward r) s = .next t
    ∧ (let e := s.enc[st]
       t.enc = s.enc.upd st (fun _ =>
        if e.last = none then e
        else { e with net := if forward then e.net + 1 else e.net - 1, pos := if forward then e.pos + 1 else e.pos - 1 }))
    ∧ t.clock = s.clock ∧ s.OnlyShaft t st
    ∧ (let g := s.mon.vib[st]
       t.mon.vib[st] = ⟨max g.peak (s.cond[st].accelValue (t.enc[st].pos.val / 4) r).natAbs,
         g.fault || (match r with | .value _ => false | .openCircuit | .shortCircuit | .noData => true)⟩)
    ∧ (s.accumulating st = none → t.noise = s.noise)
    ∧ (∀ e, s.accumulating st = some e → (s.engine e).revOpen = false → t.noise = s.noise)
    ∧ (∀ (e : EngineId) (b : Fin 128), s.accumulating st = some e → (s.engine e).revOpen = true →
        { t.engine e with samples := (s.engine e).samples } = s.engine e ∧ (∀ d, d ≠ e → t.engine d = s.engine d)
        ∧ (t.engine e).samples[b] =
          if (s.engine e).samples[b] = none ∧ t.enc[st].pos.val = 4 * b.val
          then some (s.cond[st].accelValue b r) else (s.engine e).samples[b]))

/-- A judged revolution that passes the four checks of R106 adds its samples to the bin sums and 1 to the accepted count and
to REVS_ACCEPTED; the K-th takes the engine to COMPUTING, any other opens the next revolution (R107). Its speed is
60,000,000 over its period in µs, rounded to nearest, with the sign of the net line count; of a period of 0 the manual
states none, and the model's is a free value (log entry 7); the microsecond of the closing index is the command's (log entry
6). That K_REACHED is the K-th one's ENCODER_INDEX is the model's reading (log entry 3). -/
def Obligations.AcceptedRevolutionIsAdded : Prop :=
  ∀ (st : Station) (us : Fin 1000) (r : AccelReading) (s : State) (e : EngineId) (g : Nat) (l : GroupLine) (t0 : Stamp),
    s.accumulating st = some e → (s.engine e).revOpen = true → (s.engine e).group = some g → s.line st g = some l →
    s.enc[st].last = some t0 →
    (s.enc[st].net = 512 ∨ s.enc[st].net = -512) →
    (∃ v, RevolutionSpeed (elapsed t0.ms s.now * 1000 + max s.clock.us us - t0.us) s.enc[st].net v
      ∧ (v - s.drive[st].target.tdiv 100).natAbs ≤ l.spec.tolerance) →
    (l.spec.flank = .drive → 0 < (s.quantity st .torque).held ∧ l.spec.flankMin ≤ (s.quantity st .torque).held) →
    (l.spec.flank = .coast → (s.quantity st .torque).held < 0 ∧ l.spec.flankMin ≤ -(s.quantity st .torque).held) →
    (∀ b : Fin 128, (s.engine e).samples[b] ≠ some (-32768) ∧ (s.engine e).samples[b] ≠ some 32767) →
    ∃ t, exec (.encoderIndex st us r) s = .next t
      ∧ ((s.engine e).k = some ((s.engine e).accepted + 1) → exec (.kReached st us r) s = .next t
          ∧ (t.engine e).state = .computing s.now)
      ∧ ((s.engine e).k ≠ some ((s.engine e).accepted + 1) →
          (t.engine e).state = .accumulating ∧ (t.engine e).revOpen = true)
      ∧ (t.engine e).accepted = (s.engine e).accepted + 1 ∧ (t.engine e).discarded = (s.engine e).discarded
      ∧ (∀ b : Fin 128, (t.engine e).bins[b] = (s.engine e).bins[b] + ((s.engine e).samples[b]).getD 0)
      ∧ t.counters.live.stations[st].revsAccepted = min (s.counters.live.stations[st].revsAccepted + 1) 65535
      ∧ t.counters.live.stations[st].revsDiscarded = s.counters.live.stations[st].revsDiscarded
      ∧ t.seq = s.seq ∧ t.link = s.link

/-- A judged revolution that fails a check of R106 is counted discarded, and in ENCODER_FAULTS when the line count is wrong;
its samples are not added. The checks that can fail: the net line count is that of no one turn; the speed, 60,000,000 over
the period in µs rounded to nearest with the count's sign (a free value for a period of 0: log entry 7; the closing index's
microsecond: log entry 6), is off the target by more than the tolerance; the torque is not on the flank with at least the
flank minimum; a bin sample stands at an end of the range. The one that reaches the discard limit closes the group UNSTEADY
with its result in the record, and the engine goes to the head of the wait queue or is FREE (R100, R106, R108); a window of
the group in EXTENDED ends its step DONE and the next step begins (R61), after the engine has passed on (log entry 19). That
GROUP_UNSTEADY is that one's ENCODER_INDEX is the model's reading (log entry 3). -/
def Obligations.DiscardedRevolutionIsCounted : Prop :=
  ∀ (st : Station) (us : Fin 1000) (a : AccelReading) (s : State) (e : EngineId) (g : Nat) (l : GroupLine) (t0 : Stamp)
    (r : Record),
    s.accumulating st = some e → (s.engine e).revOpen = true → (s.engine e).group = some g → s.line st g = some l →
    s.enc[st].last = some t0 →
    (s.enc[st].net ≠ 512 ∧ s.enc[st].net ≠ -512)
      ∨ (∃ v, RevolutionSpeed (elapsed t0.ms s.now * 1000 + max s.clock.us us - t0.us) s.enc[st].net v
          ∧ l.spec.tolerance < (v - s.drive[st].target.tdiv 100).natAbs)
      ∨ (l.spec.flank = .drive ∧ ¬(0 < (s.quantity st .torque).held ∧ l.spec.flankMin ≤ (s.quantity st .torque).held))
      ∨ (l.spec.flank = .coast ∧ ¬((s.quantity st .torque).held < 0 ∧ l.spec.flankMin ≤ -(s.quantity st .torque).held))
      ∨ (∃ b : Fin 128, (s.engine e).samples[b] = some (-32768) ∨ (s.engine e).samples[b] = some 32767) →
    (s.ctx st).record = some r →
    ∃ t, exec (.encoderIndex st us a) s = .next t
      ∧ (let old := s.counters.live.stations[st]
         let discards := min (old.revsDiscarded + 1) 65535
         let faults := if s.enc[st].net = 512 ∨ s.enc[st].net = -512 then old.encoderFaults
           else min (old.encoderFaults + 1) 65535
         t.counters.live.stations[st].revsDiscarded = discards ∧ t.counters.live.stations[st].encoderFaults = faults
         ∧ ((s.engine e).discarded + 1 < l.spec.discardLimit ∨ s.inExtended st g = false →
             t.counters.live.stations[st] = { old with revsDiscarded := discards, encoderFaults := faults }))
      ∧ ((s.engine e).discarded + 1 < l.spec.discardLimit ∨ (s.inExtended st g = false ∧ s.noise.queue = []) →
          (t.engine e).bins = (s.engine e).bins)
      ∧ ((s.engine e).discarded + 1 < l.spec.discardLimit →
          (t.engine e).discarded = (s.engine e).discarded + 1 ∧ (t.engine e).state = .accumulating
          ∧ t.seq = s.seq)
      ∧ (l.spec.discardLimit ≤ (s.engine e).discarded + 1 →
          exec (.groupUnsteady st us a) s = .next t
          ∧ (let closes := s.PassesEngine t e
               ∧ (t.line st g).any (fun l => decide (l.status = .closed ∧ l.outcome = some .incomplete
                  ∧ l.cause = some .unsteady)) = true
               ∧ (t.ctx st).record.map Record.groups = some (r.groups ++ [⟨g, .incomplete, some .unsteady,
                  (s.engine e).accepted, (s.engine e).discarded + 1, none⟩])
             (s.inExtended st g = false → closes ∧ (t.ctx st).step = (s.ctx st).step
               ∧ (t.ctx st).record.map (fun k => { k with groups := r.groups }) = some r)
             ∧ (∀ x spec, s.RunsStep st x r → s.inExtended st g = true → s.nextIs st x.index spec →
                 (s.takeIndex st us a).StepsOn t st ⟨x.index, .dwell, .done, none⟩ spec
                 ∧ ((∀ d h b k, spec ≠ .dwell d (some h) b k) → closes))))

/-- The completion of an engine: with its holder RUNNING the test that began it, an open group closes PASS or FAIL by its
figures and a group closed SHORT keeps INCOMPLETE SHORT; the result enters the record with them, and the engine goes to the
head of the wait queue or is FREE (R116, R117). A window of the group in EXTENDED ends its step DONE and the next step
begins (R61). A FAIL under stop-on-fail takes the station to STOPPING without an abort cause, a step in EXTENDED DONE, the
other groups settled (R7, R61, R119). With the holder gone from RUNNING, or RUNNING a later test, the result is discarded
(R120; log entry 11). A claim the holder has deferred is made after the engine has passed on: it takes an engine, or the
tail of the queue (R101). That the queue's head comes before the deferred claim and the step's end is the model's reading
(log entry 19). -/
def Obligations.CompletionDeliversOrDiscards : Prop :=
  ∀ (e : EngineId) (since : LineTime) (st : Station) (g : Nat) (s : State),
    (s.engine e).state = .computing since → 1 ≤ elapsed since s.now → (s.engine e).holder = some st →
    (s.engine e).group = some g → (∀ d, d ≠ e → (s.engine d).holder ≠ some st) →
    (let figures := fun l : GroupLine => groupFigures (s.engine e).bins (s.engine e).accepted l.spec.orders
     let outcome := fun l : GroupLine => if l.status = .closed then GroupOutcome.incomplete
       else if figuresPass l.spec (figures l) then .pass else .fail
     let result := fun l : GroupLine => GroupResult.mk g (outcome l) (if l.status = .closed then some .short else none)
       (s.engine e).accepted (s.engine e).discarded (some (figures l))
    (∀ (l : GroupLine) (r : Record), s.stateOf st = .running → (s.engine e).abandoned = false → s.line st g = some l →
      l.status ≠ .pending → (s.ctx st).record = some r → s.waiting st = false →
      (let closes := fun t : State => (t.line st g).any (fun k => decide (k.status = .closed ∧ k.outcome = some (outcome l)
         ∧ k.entered = true)) = true
       (outcome l ≠ .fail ∨ s.stopOnFail st = false →
        (s.inExtended st g = false → ∃ t, exec (.engineCompletion e) s = .next t ∧ s.PassesEngine t e ∧ closes t
          ∧ (t.ctx st).record = some { r with groups := r.groups ++ [result l] } ∧ (t.ctx st).step = (s.ctx st).step
          ∧ t.stateOf st = .running ∧ s.OthersKept t st ∧ s.SameLine t ∧ t.link = s.link)
        ∧ (∀ x spec, s.inExtended st g = true → (s.ctx st).step = some x → s.nextIs st x.index spec →
            ∃ t, exec (.engineCompletion e) s = .next t ∧ s.StepsOn t st ⟨x.index, .dwell, .done, none⟩ spec
              ∧ ((∀ d h b k, spec ≠ .dwell d (some h) b k) → s.PassesEngine t e ∧ closes t
                  ∧ (t.ctx st).record.map Record.groups = some (r.groups ++ [result l]))))
       ∧ (∀ x, outcome l = .fail → s.stopOnFail st = true → (s.ctx st).step = some x →
            ∃ (t : State) (ls : List GroupLine), exec (.engineCompletion e) s = .next t ∧ s.EntersStopping t st none false
              ∧ s.PassesEngine t e ∧ t.link = s.link
              ∧ t.stepEntries st = some (r.steps ++ [if s.inExtended st g then ⟨x.index, .dwell, .done, none⟩
                  else s.exitEntry st x])
              ∧ ls.Perm (s.noise.groups[st].filter (fun m => m.spec.group != g))
              ∧ ls.Pairwise (fun a b => a.windows.first ≤ b.windows.first)
              ∧ (t.ctx st).record.map Record.groups = some (r.groups ++ result l :: ls.filterMap s.exitResult)
              ∧ (t.ctx st).record.map Record.leaks = some (r.leaks ++ (s.circuit st).phase.exitResult))))
    ∧ (s.stateOf st ≠ .running ∨ (s.engine e).abandoned = true → s.noise.deferred[st] = none →
        ∃ t, exec (.engineCompletion e) s = .next t ∧ s.PassesEngine t e
          ∧ t.seq = s.seq ∧ t.counters = s.counters ∧ t.link = s.link)
    ∧ (∀ (h : Nat) (k : GroupLine), s.noise.deferred[st] = some h → h ≠ g → s.line st h = some k →
        s.inExtended st g = false → (∀ l, s.line st g = some l → outcome l ≠ .fail ∨ s.stopOnFail st = false) →
        ∃ t, exec (.engineCompletion e) s = .next t ∧ t.noise.deferred[st] = none
          ∧ (∀ l r, s.stateOf st = .running → (s.engine e).abandoned = false → s.line st g = some l → l.status ≠ .pending →
              (s.ctx st).record = some r → s.config.waitLimit ≠ 0 →
              (t.ctx st).record = some { r with groups := r.groups ++ [result l] } ∧ (t.ctx st).step = (s.ctx st).step)
          ∧ (s.noise.queue = [] →
              (let d := if e = .a ∨ s.noise.engineA.state = .free then EngineId.a else .b
               (t.engine d).Granted st k.spec ∧ (t.line st h).bind GroupLine.engine = some d))
          ∧ (∀ w rest m, s.noise.queue = w :: rest → s.line w.station w.group = some m → s.heldEngine w.station = none →
              (∀ d, d ≠ e → (s.engine d).state ≠ .free) → s.config.waitLimit ≠ 0 →
              (t.engine e).Granted w.station m.spec
              ∧ t.noise.queue = rest ++ [⟨st, h, s.now, s.config.waitLimit⟩])))

/-- ENGINE_GRANT gives a FREE engine, its sums and counts 0, to the head of the wait queue, a station that holds no engine
(R97), which leaves it (R100). A deferred claim whose station holds no engine takes engine A when it is FREE, or else B, or
else a place at the tail of the queue when both are held and the wait limit is not 0 (R99, R101). With a limit of 0 the
window is unmeasured at once, and a step in EXTENDED ends DONE (R61, R102; what this takes of R103 is log entry 14).
SUPPLY_GRANT, the examination of the supply grant (R128), grants the head of the supply queue, which begins FILL with its
fill valve open, when no grant is held and SUPPLY's current LOW_ALARM and LOST do not hold, which before the first SUPPLY
sample is the model's reading (log entry 32); otherwise it changes nothing. -/
def Obligations.GrantsGoToHeadOfQueue : Prop :=
  (∀ (e : EngineId) (w : EngineWait) (rest : List EngineWait) (l : GroupLine) (s : State),
    (s.engine e).state = .free → s.noise.queue = w :: rest → s.line w.station w.group = some l →
    s.heldEngine w.station = none → ∃ t, exec (.engineGrant e) s = .next t ∧ t.noise.queue = rest
      ∧ (t.engine e).state = .accumulating ∧ (t.engine e).holder = some w.station
      ∧ (t.engine e).group = some l.spec.group ∧ (t.engine e).k = some l.spec.k
      ∧ (∀ b : Fin 128, (t.engine e).bins[b] = 0) ∧ (t.engine e).accepted = 0 ∧ (t.engine e).discarded = 0
      ∧ (∀ d, d ≠ e → t.engine d = s.engine d) ∧ t.seq = s.seq ∧ t.link = s.link ∧ t.counters = s.counters)
  ∧ (∀ (st : Station) (g : Nat) (l : GroupLine) (s : State), s.stateOf st = .running →
      s.noise.deferred[st] = some g → s.heldEngine st = none → s.line st g = some l →
      (s.noise.engineA.state = .free → ∃ t, exec (.deferredClaim st) s = .next t ∧ t.noise.deferred[st] = none
        ∧ t.noise.engineA.state = .accumulating ∧ t.noise.engineA.holder = some st
        ∧ t.noise.engineA.group = some l.spec.group ∧ t.noise.engineB = s.noise.engineB
        ∧ t.noise.queue = s.noise.queue ∧ t.seq = s.seq)
      ∧ (s.noise.engineA.state ≠ .free → s.noise.engineB.state = .free → ∃ t, exec (.deferredClaim st) s = .next t
        ∧ t.noise.deferred[st] = none ∧ t.noise.engineB.Granted st l.spec ∧ t.noise.engineA = s.noise.engineA
        ∧ t.line st g = some { l with engine := some .b } ∧ t.noise.queue = s.noise.queue ∧ t.seq = s.seq)
      ∧ (∀ x r, (s.ctx st).step = some x → (s.ctx st).record = some r → s.noise.engineA.state ≠ .free →
          s.noise.engineB.state ≠ .free → s.config.waitLimit = 0 →
          (let expires := fun t : State => t.noise.deferred[st] = none ∧ t.noise.queue = s.noise.queue
             ∧ t.counters.live.stations[st].engineWaitsExpired =
                min (s.counters.live.stations[st].engineWaitsExpired + 1) 65535
             ∧ t.EndsWait st x.index g l r
           ((∀ since, x.phase ≠ .extended since) → ∃ t, exec (.deferredClaim st) s = .next t ∧ expires t
              ∧ (t.ctx st).step = some { x with unmeasured := true } ∧ t.stateOf st = .running ∧ s.OthersKept t st
              ∧ t.link = s.link)
           ∧ (∀ since spec, x.phase = .extended since → x.unmeasured = false → s.nextIs st x.index spec →
              ∃ t, exec (.deferredClaim st) s = .next t ∧ s.StepsOn t st ⟨x.index, x.spec.kind, .done, none⟩ spec
                ∧ ((∀ d h b k, spec ≠ .dwell d (some h) b k) → expires t))))
      ∧ (s.noise.engineA.state ≠ .free → s.noise.engineB.state ≠ .free → s.config.waitLimit ≠ 0 →
          exec (.deferredClaim st) s = .next { s with noise := { s.noise with
            deferred := s.noise.deferred.upd st (fun _ => none)
            queue := s.noise.queue ++ [⟨st, g, s.now, s.config.waitLimit⟩] } }))
  ∧ ∀ s : State,
    (∀ (st : Station) (rest : List Station), s.leak.queue = st :: rest → s.leak.grant = none →
      s.mon.supply.current.lowAlarm = false → s.mon.supply.current.lost = false →
      ∃ t, exec .supplyGrant s = .next t ∧ t.leak.grant = some st ∧ t.leak.queue = rest
        ∧ t.circuit st = { s.circuit st with phase := .fill, fillOpen := true, ventOpen := false, phaseStart := some s.now }
        ∧ (∀ j, j ≠ st → t.circuit j = s.circuit j)
        ∧ t.counters.live.globals = { s.counters.live.globals with
            supplyGrants := min (s.counters.live.globals.supplyGrants + 1) 65535 }
        ∧ t.seq = s.seq ∧ t.drive = s.drive ∧ t.mon = s.mon ∧ t.link = s.link)
    ∧ (s.leak.queue = [] ∨ s.leak.grant ≠ none ∨ s.mon.supply.current.lowAlarm = true ∨ s.mon.supply.current.lost = true →
        exec .supplyGrant s = .next s)

/-- The wait limit of a queued station expires: the station leaves the queue, the expiry is counted, the record takes the
ENGINE_WAIT remark, the window is unmeasured, and at the group's last window the group closes NOT_MEASURED (R102, R103). A
window in TIMED goes on; one in EXTENDED ends its step DONE and the next step begins (R61, R103). -/
def Obligations.EngineWaitExpires : Prop :=
  ∀ (st : Station) (w : EngineWait) (x : StepCtx) (r : Record) (l : GroupLine) (s : State), s.RunsStep st x r →
    s.noise.queue.find? (fun v => v.station == st) = some w → w.limit ≤ elapsed w.since s.now →
    s.line st w.group = some l →
    (let expires := fun t : State => t.noise.queue = s.noise.queue.filter (fun v => v.station != st)
       ∧ t.counters.live.stations[st] = { s.counters.live.stations[st] with
          engineWaitsExpired := min (s.counters.live.stations[st].engineWaitsExpired + 1) 65535 }
       ∧ t.EndsWait st x.index w.group l r
     ((∀ since, x.phase ≠ .extended since) → ∃ t, exec (.engineWaitExpiry st) s = .next t ∧ expires t
        ∧ (t.ctx st).step = some { x with unmeasured := true }
        ∧ (x.index ≠ l.windows.last → (t.ctx st).record = some (r.addRemark .engineWait))
        ∧ t.stateOf st = .running ∧ (t.ctx st).test = (s.ctx st).test ∧ s.OthersKept t st ∧ t.link = s.link)
     ∧ (∀ since spec, x.phase = .extended since → s.nextIs st x.index spec →
        ∃ t, exec (.engineWaitExpiry st) s = .next t ∧ s.StepsOn t st ⟨x.index, x.spec.kind, .done, none⟩ spec
          ∧ ((∀ d h b k, spec ≠ .dwell d (some h) b k) → expires t)))

/-- A window without extend that ends at its duration, its group OPEN, with a next step that is no window. With its engine
ACCUMULATING: before the group's last window the engine parks with its sums and counts (R109); at the last one the group
closes INCOMPLETE SHORT, its levels to be computed for 16 or more accepted revolutions, and entered at once with the engine
passed on for fewer (R110). Still waiting for an engine: the wait ends with an ENGINE_WAIT remark and the window is
unmeasured, which at the group's last window closes the group NOT_MEASURED (R103), a deferred claim's wait as one in the queue
(log entry 14). Where the next step is another window of the same group, the parked engine resumes at the same event (R99). -/
def Obligations.WindowEndParksOrCloses : Prop :=
  ∀ (st : Station) (x : StepCtx) (r : Record) (spec : StepSpec) (duration g ext : Nat) (l : GroupLine) (s : State),
    s.RunsStep st x r → s.nextIs st x.index spec → x.spec = .dwell duration (some g) false ext → x.phase = .timed →
    duration ≤ elapsed x.start s.now → s.line st g = some l → l.status = .opened →
    ∃ t, exec (.dwellDurationExpiry st) s = .next t ∧ s.StepsOn t st ⟨x.index, .dwell, .done, none⟩ spec
      ∧ ((∀ d h b k, spec ≠ .dwell d (some h) b k) →
        (∀ e, s.waiting st = false → l.engine = some e → (s.engine e).state = .accumulating →
          (∀ d, d ≠ e → t.engine d = s.engine d)
          ∧ (x.index ≠ l.windows.last → t.engine e = { s.engine e with state := .parked, revOpen := false }
              ∧ t.noise.groups = s.noise.groups ∧ t.noise.queue = s.noise.queue
              ∧ (t.ctx st).record.map Record.groups = some r.groups)
          ∧ (x.index = l.windows.last → 16 ≤ (s.engine e).accepted →
              t.engine e = { s.engine e with state := .computing s.now, revOpen := false }
              ∧ t.line st g = some { l with status := .closed, outcome := some .incomplete, cause := some .short,
                                            engine := some e, entered := false }
              ∧ t.noise.queue = s.noise.queue ∧ (t.ctx st).record.map Record.groups = some r.groups)
          ∧ (x.index = l.windows.last → (s.engine e).accepted < 16 →
              (t.ctx st).record.map Record.groups = some (r.groups ++
                [⟨g, .incomplete, some .short, (s.engine e).accepted, (s.engine e).discarded, none⟩])
              ∧ t.line st g = some { l with status := .closed, outcome := some .incomplete, cause := some .short,
                                            engine := none, entered := true }
              ∧ (s.noise.queue = [] → (t.engine e).state = .free ∧ (t.engine e).holder = none)
              ∧ (∀ w rest k, s.noise.queue = w :: rest → s.line w.station w.group = some k →
                  s.heldEngine w.station = none → t.noise.queue = rest
                  ∧ (t.engine e).state = .accumulating ∧ (t.engine e).holder = some w.station
                  ∧ (t.engine e).accepted = 0 ∧ (t.engine e).discarded = 0)))
        ∧ (s.waiting st = true →
          t.noise.queue = s.noise.queue.filter (fun w => w.station != st) ∧ t.noise.deferred[st] = none
          ∧ t.remarks st = some (r.addRemark .engineWait).remarks
          ∧ (x.index ≠ l.windows.last → (t.ctx st).record.map Record.groups = some r.groups ∧ t.line st g = some l)
          ∧ (x.index = l.windows.last →
              (t.ctx st).record.map Record.groups = some (r.groups ++ [⟨g, .notMeasured, none, 0, 0, none⟩])
              ∧ t.line st g = some { l with status := .closed, outcome := some .notMeasured, cause := none,
                                            engine := none, entered := true })))
      ∧ (∀ e d b k, spec = .dwell d (some g) b k → s.waiting st = false → l.engine = some e →
          (s.engine e).state = .accumulating → x.index ≠ l.windows.last →
          t.engine e = { s.engine e with state := .accumulating, revOpen := false } ∧ t.noise.queue = s.noise.queue
          ∧ (t.ctx st).record.map Record.groups = some r.groups)

/-- A RUNNING station's exit, here by ABT, settles its noise groups and its leak step before anything else (R119, R141): in
the order of first windows an OPEN group with an engine is entered NOT_COMPLETED with the counts as they stand, one without
an engine NOT_MEASURED, and a SHORT group still computing as INCOMPLETE SHORT without levels; groups PENDING or already
entered add nothing. A wait in the queue leaves the ENGINE_WAIT remark, and so does a deferred claim, which is the model's
reading (log entry 14). An engine ACCUMULATING or PARKED goes to the head of the queue or is FREE, and one COMPUTING goes
on, its result to be discarded. A LEAK step not yet decided is entered INCOMPLETE NOT_COMPLETED. The step in progress is
closed FAILED CUT_SHORT, or DONE in VENT (R54). -/
def Obligations.ExitFromRunningSettlesTest : Prop :=
  ∀ (tag : Byte) (st : Station) (x : StepCtx) (r : Record) (s : State), s.link.slot = none → s.RunsStep st x r →
    ∃ t, exec (.abt tag (stationCode st)) s = .next t
      ∧ (∃ ls : List GroupLine, ls.Perm s.noise.groups[st] ∧ ls.Pairwise (fun a b => a.windows.first ≤ b.windows.first)
          ∧ (t.ctx st).record.map Record.groups = some (r.groups ++ ls.filterMap s.exitResult))
      ∧ t.remarks st = some (if s.waiting st then r.addRemark .engineWait else r).remarks
      ∧ (∀ e, s.heldEngine st = some e →
          ((s.engine e).isComputing = true → t.engine e = { s.engine e with abandoned := true })
          ∧ ((s.engine e).isComputing = false → s.noise.queue.filter (fun w => w.station != st) = [] →
              (t.engine e).state = .free ∧ (t.engine e).holder = none)
          ∧ (∀ w rest k, (s.engine e).isComputing = false → s.noise.queue.filter (fun w => w.station != st) = w :: rest →
              s.line w.station w.group = some k → s.heldEngine w.station = none →
              (t.engine e).state = .accumulating ∧ (t.engine e).holder = some w.station ∧ t.noise.queue = rest))
      ∧ (t.ctx st).record.map Record.leaks = some (r.leaks ++ (s.circuit st).phase.exitResult)
      ∧ t.stepEntries st = some (r.steps ++ [s.exitEntry st x])

/-- The averaged revolution (R112): each average is the bin sum divided by N, rounded to nearest with an exact half away
from zero; when each sum is a sum of N samples in −32,768 to 32,767 it lies in that range; and the figures of the
computation depend on the bin sums through the averages alone. The amplitude of an order (R114): the floor of the square
root of Re² + Im², where Re and Im are the exact sums over the 128 bins of avg[b] × C[(m × b) mod 128] and avg[b] × S[(m ×
b) mod 128]; Re 3 and Im 4 give 5, Re 5 and Im 5 give 7. The level of each order, in the order of the list (R115): A × 100
divided by 2,097,088, rounded to nearest; above 999,999 it is that, with the CLAMPED mark. The peak-to-peak is the greatest
average less the least. The group passes when every level is at most its order's limit and the peak-to-peak at most its
limit, where there is one (R116). -/
def Obligations.NoiseFiguresAreExact : Prop :=
  (∀ (bins : Vector Int 128) (n : Nat) (b : Fin 128), 0 < n → ∃ a : Int, (averages bins n)[b.val]? = some a
    ∧ 2 * (a * n - bins[b]).natAbs ≤ n ∧ (2 * (a * n - bins[b]).natAbs = n → bins[b].natAbs ≤ (a * n).natAbs)
    ∧ (-32768 * n ≤ bins[b] → bins[b] ≤ 32767 * n → -32768 ≤ a ∧ a ≤ 32767))
  ∧ (∀ (p q : Vector Int 128) (m n : Nat) (orders : List OrderLimit), averages p m = averages q n →
      groupFigures p m orders = groupFigures q n orders)
  ∧ (∀ (m : Nat) (avg : List Int), avg.length = 128 →
    let re := ∑ b : Fin 128, avg.getD b 0 * cosine (m * b % 128)
    let im := ∑ b : Fin 128, avg.getD b 0 * sine (m * b % 128)
    (amplitude m avg : Int) ^ 2 ≤ re ^ 2 + im ^ 2 ∧ re ^ 2 + im ^ 2 < ((amplitude m avg : Int) + 1) ^ 2)
  ∧ (∀ (bins : Vector Int 128) (n : Nat) (orders : List OrderLimit),
    let f := groupFigures bins n orders
    let avg := averages bins n
    f.levels.length = orders.length
    ∧ (∀ (i : Nat) (o : OrderLimit), orders[i]? = some o → ∃ level : Nat,
        (let gap := (2097088 * (level : Int) - 100 * amplitude o.order avg).natAbs
         2 * gap ≤ 2097088 ∧ (2 * gap = 2097088 → 100 * amplitude o.order avg ≤ 2097088 * level))
        ∧ f.levels[i]? = some ⟨o.order, min level 999999, decide (999999 < level)⟩)
    ∧ (∃ least ∈ avg, ∃ greatest ∈ avg, (∀ a ∈ avg, least ≤ a ∧ a ≤ greatest) ∧ (f.peakToPeak : Int) = greatest - least)
    ∧ (0 < n → (∀ b : Fin 128, -32768 * n ≤ bins[b] ∧ bins[b] ≤ 32767 * n) → f.peakToPeak ≤ 65535))
  ∧ (∀ (g : GroupSpec) (f : GroupFigures), f.levels.length = g.orders.length → (figuresPass g f = true ↔
      (∀ (i : Nat) (o : OrderLimit) (v : Level), g.orders[i]? = some o → f.levels[i]? = some v → v.level ≤ o.limit)
      ∧ (∀ p, g.peakLimit = some p → f.peakToPeak ≤ p)))
  ∧ isqrt (3 ^ 2 + 4 ^ 2) = 5 ∧ isqrt (5 ^ 2 + 5 ^ 2) = 7

/-! ### Leak testing -/

/-- The standstill timer's expiry decides INCOMPLETE NOT_STANDSTILL without a VENT and ends the step DONE; the settle
timer's begins MEASURE with counts and sums 0; the vent timer's ends the step of a RUNNING station, and of a STOPPING one
only the phase (R126, R132, R140). The fill timer's, at the holder of the grant (R130): below the band FAIL_FILL, counted in
FILL_FAULTS; above it INCOMPLETE OVERPRESSURE; within it SETTLE; in each case the fill valve closes and the grant is
released, and a fill that failed leads to VENT. FAIL_FILL under stop-on-fail takes a RUNNING station to STOPPING without an
abort cause, its step DONE and the VENT going on (R7, R54, R67). -/
def Obligations.LeakTimersMoveThePhase : Prop :=
  (∀ (st : Station) (x : StepCtx) (r : Record) (spec : StepSpec) (since : LineTime) (s : State), s.RunsStep st x r →
    x.spec = .leak → s.nextIs st x.index spec → (s.circuit st).phaseStart = some since →
    ((s.circuit st).phase = .standstillWait → 10000 ≤ elapsed since s.now →
      ∃ t, exec (.standstillTimerExpiry st) s = .next t ∧ s.StepsOn t st ⟨x.index, .leak, .done, none⟩ spec
        ∧ (t.ctx st).record.map Record.leaks = some (r.leaks ++ [⟨.incomplete, some .notStandstill, none⟩])
        ∧ (spec ≠ .leak → t.circuit st = .rest))
    ∧ (∀ l, s.leakSpec st = some l → (s.circuit st).phase = .vent → l.ventTime ≤ elapsed since s.now →
      ∃ t, exec (.ventTimerExpiry st) s = .next t ∧ s.StepsOn t st ⟨x.index, .leak, .done, none⟩ spec
        ∧ (t.ctx st).record.map Record.leaks = some r.leaks ∧ (spec ≠ .leak → t.circuit st = .rest)))
  ∧ (∀ (st : Station) (l : LeakSpec) (since : LineTime) (s : State), s.leakSpec st = some l →
      (s.circuit st).phaseStart = some since →
      ((s.circuit st).phase = .settle → l.settleTime ≤ elapsed since s.now →
        exec (.settleTimerExpiry st) s = .next (s.modCircuit st (fun c => { c with
          phase := .measure, fillOpen := false, ventOpen := false, phaseStart := some s.now
          pCount := 0, tCount := 0, pStart := 0, tStart := 0, pEnd := 0, tEnd := 0 })))
      ∧ ((s.circuit st).phase = .vent → s.stateOf st = .stopping → l.ventTime ≤ elapsed since s.now →
        exec (.ventTimerExpiry st) s = .next (s.modCircuit st (fun _ => .rest))))
  ∧ (∀ (st : Station) (l : LeakSpec) (since : LineTime) (r : Record) (s : State), s.leakSpec st = some l →
    (s.circuit st).phase = .fill → (s.circuit st).phaseStart = some since → l.fillTime ≤ elapsed since s.now →
    s.leak.grant = some st → st ∉ s.leak.queue → (s.ctx st).record = some r →
    ∃ t, exec (.fillTimerExpiry st) s = .next t ∧ (t.circuit st).fillOpen = false ∧ t.leak.grant ≠ some st
      ∧ (t.circuit st).phaseStart = some s.now ∧ s.OthersKept t st ∧ t.mon = s.mon
      ∧ (let p := (s.quantity st .leakPress).held
         let faults := s.counters.live.stations[st].fillFaults
         let low := p < (l.testPressure : Int) - l.fillTolerance
         let decides := fun x : LeakResult => (t.circuit st).phase = .vent ∧ (t.circuit st).ventOpen = true
           ∧ (t.ctx st).record.map Record.leaks = some (r.leaks ++ [x])
           ∧ (¬(low ∧ s.stopOnFail st = true ∧ s.stateOf st = .running) →
               (t.ctx st).record = some { r with leaks := r.leaks ++ [x] })
         (if low then decides ⟨.failFill, none, none⟩ ∧ t.counters.live.stations[st].fillFaults = min (faults + 1) 65535
          else if p > (l.testPressure : Int) + l.fillTolerance then decides ⟨.incomplete, some .overpressure, none⟩
            ∧ t.counters.live.stations[st].fillFaults = faults
          else (t.circuit st).phase = .settle ∧ (t.circuit st).settleStart = some s.now ∧ (t.circuit st).ventOpen = false
            ∧ (t.ctx st).record = some r ∧ t.counters.live.stations[st].fillFaults = faults)
         ∧ (¬(low ∧ s.stopOnFail st = true ∧ s.stateOf st = .running) →
             t.stateOf st = s.stateOf st ∧ (t.ctx st).step = (s.ctx st).step)
         ∧ (∀ x, low → s.stopOnFail st = true → s.RunsStep st x r → x.spec = .leak →
             s.EntersStopping t st none false ∧ t.link = s.link
             ∧ t.stepEntries st = some (r.steps ++ [⟨x.index, .leak, .done, none⟩]))))

/-- The sample that ends MEASURE, when it latches nothing and the station holds no grant (as R130 has left it): the block
means, Pa2c, ΔP, Δt and the leak rate of R135 to R137 are entered with the outcome of R138, and the step goes to VENT.
FAIL_LEAK or RISE under stop-on-fail takes the station to STOPPING without an abort cause, its step DONE (R7, R54, R138).
That MEASURE_END is that sample's MONITOR_SAMPLE is the model's reading (log entry 3). -/
def Obligations.MeasureEndComputesLeakRate : Prop :=
  ∀ (st : Station) (x : StepCtx) (r : Record) (l : LeakSpec) (y : SensorInput) (q : StQuantity) (s : State),
    s.RunsStep st x r → x.spec = .leak → s.leakSpec st = some l → y.target = some (st, q) →
    q = .leakPress ∨ q = .airTemp → (s.circuit st).phase = .measure →
    s.latchesNothing st q ((s.gather y).sampleValue y) → s.leak.grant ≠ some st →
    (let c := (s.circuit st).measured (l.measureTime / 10) q ((s.takeSample y).quantity st q).held
     let p1 := roundDiv c.pStart 16
     let p2 := roundDiv c.pEnd 16
     let t1 := roundDiv c.tStart 16
     let t2 := roundDiv c.tEnd 16
     let pa2c := roundDiv ((p2 + s.config.patm) * (t1 + 27315)) (t2 + 27315).toNat
     let dp := p1 + s.config.patm - pa2c
     let dt := (l.measureTime / 10 - 16) * 10
     let q0 := roundDiv (l.volume * dp * 6000000) (101325 * dt)
     let q1 := max (-999999) (min 999999 q0)
     l.measureTime / 10 ≤ c.pCount → l.measureTime / 10 ≤ c.tCount →
     let o : LeakOutcome := if q1 > l.leakLimit then .failLeak else if q1 < -(l.riseLimit : Int) then .rise else .pass
     ∃ t, exec (.measureEnd y) s = .next t ∧ exec (.monitorSample y) s = .next t ∧ (t.circuit st).phase = .vent
      ∧ (t.circuit st).ventOpen = true
      ∧ (t.ctx st).record.map Record.leaks = some (r.leaks ++ [
          { outcome := o, cause := none
            figures := some { p1 := p1, p2 := p2, t1 := t1, t2 := t2, pa2c := pa2c, dp := dp, dt := dt, q := q1
                              clamped := decide (q0 < -999999 ∨ 999999 < q0) } }])
      ∧ (o = .pass ∨ s.stopOnFail st = false → t.stateOf st = .running ∧ (t.ctx st).step = some x
          ∧ (t.ctx st).record.map (fun k => { k with leaks := r.leaks }) = some r)
      ∧ (o ≠ .pass → s.stopOnFail st = true → (s.takeSample y).EntersStopping t st none false ∧ t.link = s.link
          ∧ t.stepEntries st = some (r.steps ++ [⟨x.index, .leak, .done, none⟩])))

/-- What a sample does to a LEAK step before MEASURE ends, at a station whose place in the supply is in order. In
STANDSTILL_WAIT a SPEED sample at standstill puts the station at the tail of the supply queue, and the grant is examined
(R125, R128), which before the first SUPPLY sample may grant it: the model's reading (log entry 32). That the sample may
have the phase start's own line time is log entry 35's. In SETTLE a LEAK_PRESS sample below the gross drop level decides
FAIL_GROSS, counted in FILL_FAULTS, and goes to VENT; stop-on-fail then stops the station with its step DONE (R132, R54). In
MEASURE a LEAK_PRESS or AIR_TEMP sample is counted up to N and enters the block sums by its number, and nothing else changes
while one quantity is short of N (R133); a LOST first to latch on LEAK_PRESS or AIR_TEMP decides INCOMPLETE SENSOR before it
aborts the test (R134), with the latch ahead of the reading of the sample (log entry 17). A SUPPLY sample at which LOW_ALARM
or LOST begins to hold decides INCOMPLETE SUPPLY of the station in FILL, which gives up the grant to nobody (R90, R131). -/
def Obligations.SampleMovesLeakStep : Prop :=
  ∀ (st : Station) (x : StepCtx) (r : Record) (l : LeakSpec) (s : State), s.RunsStep st x r → x.spec = .leak →
    s.leakSpec st = some l → (s.leak.grant = some st ↔ (s.circuit st).phase = .fill) → st ∉ s.leak.queue →
    (∀ fault : Bool, s.latchesNothing st .speed (s.sampleValue (.speed st fault)) → (s.circuit st).phase = .standstillWait →
      (let u := s.takeSample (.speed st fault)
       let healthy := s.mon.supply.current.lowAlarm = false ∧ s.mon.supply.current.lost = false
       (s.config.standstill < (u.quantity st .speed).held.natAbs → exec (.monitorSample (.speed st fault)) s = .next u)
       ∧ ((u.quantity st .speed).held.natAbs ≤ s.config.standstill → ∃ t, exec (.monitorSample (.speed st fault)) s = .next t
          ∧ t.seq = s.seq ∧ t.drive = s.drive ∧ t.mon = u.mon ∧ t.link = s.link ∧ (t.circuit st).phaseStart = some s.now
          ∧ (healthy → s.leak.grant = none → s.leak.queue = [] → t.leak.grant = some st ∧ t.leak.queue = []
              ∧ (t.circuit st).phase = .fill ∧ (t.circuit st).fillOpen = true ∧ (t.circuit st).ventOpen = false
              ∧ t.counters.live.globals.supplyGrants = min (s.counters.live.globals.supplyGrants + 1) 65535)
          ∧ (¬healthy ∨ s.leak.grant ≠ none → t.leak.grant = s.leak.grant ∧ t.leak.queue = s.leak.queue ++ [st]
              ∧ (t.circuit st).phase = .waitSupply ∧ (t.circuit st).fillOpen = false ∧ (t.circuit st).ventOpen = true
              ∧ t.counters = s.counters))))
    ∧ (∀ reading : Reading, (s.circuit st).phase = .settle → s.latchesNothing st .leakPress (s.pressValue st reading) →
      (let u := s.takeSample (.leakPress st reading)
       let held := (u.quantity st .leakPress).held
       ((l.testPressure : Int) - l.grossDrop ≤ held → exec (.monitorSample (.leakPress st reading)) s = .next u)
       ∧ (held < (l.testPressure : Int) - l.grossDrop → ∃ t, exec (.monitorSample (.leakPress st reading)) s = .next t
          ∧ (t.circuit st).phase = .vent ∧ (t.circuit st).fillOpen = false ∧ (t.circuit st).ventOpen = true
          ∧ (t.ctx st).record.map Record.leaks = some (r.leaks ++ [⟨.failGross, none, none⟩])
          ∧ t.counters.live.stations[st].fillFaults = min (s.counters.live.stations[st].fillFaults + 1) 65535
          ∧ t.leak.grant = s.leak.grant ∧ t.leak.queue = s.leak.queue ∧ t.link = s.link ∧ s.OthersKept t st
          ∧ (s.stopOnFail st = false → t.stateOf st = .running ∧ (t.ctx st).step = some x ∧ t.stepEntries st = some r.steps)
          ∧ (s.stopOnFail st = true → t.stateOf st = .stopping ∧ (t.ctx st).test.bind TestCtx.cause = none
              ∧ t.stepEntries st = some (r.steps ++ [⟨x.index, .leak, .done, none⟩])))))
    ∧ (∀ (y : SensorInput) (q : StQuantity), (s.circuit st).phase = .measure → y.target = some (st, q) →
      q = .leakPress ∨ q = .airTemp → s.latchesNothing st q ((s.gather y).sampleValue y) →
      (let u := s.takeSample y
       let n := l.measureTime / 10
       let c := (s.circuit st).measured n q (u.quantity st q).held
       c.pCount < n ∨ c.tCount < n → exec (.monitorSample y) s = .next (u.modCircuit st (fun _ => c))))
    ∧ (∀ (y : SensorInput) (q : StQuantity) (rest : List FlagKind), (s.circuit st).phase = .measure →
      y.target = some (st, q) → q = .leakPress ∨ q = .airTemp →
      (let m := s.quantity st q
       newLatches true (m.sample (((s.gather y).sampleValue y).map (Quantity.station q).clamp) (s.reference st q) true).current
         m.latched = .lost :: rest) →
      ∃ t, exec (.monitorSample y) s = .next t ∧ (t.circuit st).phase = .vent ∧ t.stateOf st = .stopping
        ∧ (t.ctx st).record.map Record.cause = some (some (.monitorAlarm q .lost))
        ∧ (t.ctx st).record.map Record.leaks = some (r.leaks ++ [⟨.incomplete, some .sensor, none⟩])
        ∧ t.stepEntries st = some (r.steps ++ [⟨x.index, .leak, .done, none⟩]) ∧ s.OthersKept t st)
    ∧ (∀ reading : Reading, (s.circuit st).phase = .fill →
      (let n := s.mon.supply.sample ((Reading.valid reading).map Quantity.supply.clamp) s.mon.globals[Quantity.supply.idx] true
       (n.current.lowAlarm = true ∧ s.mon.supply.current.lowAlarm = false)
         ∨ (n.current.lost = true ∧ s.mon.supply.current.lost = false)) →
      ∃ t, exec (.monitorSample (.supply reading)) s = .next t ∧ (t.circuit st).phase = .vent
        ∧ (t.circuit st).fillOpen = false ∧ (t.circuit st).ventOpen = true ∧ (t.circuit st).phaseStart = some s.now
        ∧ t.leak.grant = none ∧ t.leak.queue = s.leak.queue
        ∧ (t.ctx st).record = some { r with leaks := r.leaks ++ [⟨.incomplete, some .supply, none⟩] }
        ∧ (t.ctx st).step = some x ∧ t.stateOf st = .running
        ∧ t.counters.live.stations = s.counters.live.stations ∧ s.OthersKept t st)

/-! ### Channel conditioning -/

/-- CHN (R154): a station number outside 1 to 6 gives BAD_STATION; fields that name no channel or mode, or lie outside the
ranges of R146, or an invert byte that does not fit the channel, BAD_VALUE; at a testing station STATE; a refused CHN
changes nothing. Otherwise the one entry it names takes the mode with its parameters, and the station's entries are
answered, with 0 for a parameter or an invert byte an entry does not have (the model's reading, log entry 20). No command
but CHN and POWER_ON_RESET changes a conditioning entry; a byte can only by completing a CHN's frame (R146). -/
def Obligations.ChnSetsOneEntry : Prop :=
  (∀ (tag : Byte) (f : ChnFields) (s : State), s.link.slot = none →
    (f.station.toNat = 0 ∨ 6 < f.station.toNat → exec (.chn tag f) s = .next (s.received.replies 0xB8 tag [0x04]))
    ∧ (∀ st : Station, f.station = stationCode st →
      (∀ c, s.cond[st].change f = some c →
        (s.stateOf st = .off ∨ s.stateOf st = .idle ∨ s.stateOf st = .done → ∃ t, exec (.chn tag f) s = .next t
          ∧ t.cond = s.cond.upd st (fun _ => c)
          ∧ t.link.slot = some ⟨0xB8, tag, 0x00 :: stationCode st :: (c.bytes ++ [yesNo (t.substituted st)])⟩
          ∧ t.seq = s.seq ∧ t.mon.stations = s.mon.stations ∧ t.enc = s.enc ∧ t.config = s.config)
        ∧ (s.stateOf st = .running ∨ s.stateOf st = .stopping ∨ s.stateOf st = .completing →
            exec (.chn tag f) s = .next (s.received.replies 0xB8 tag [0x05])))
      ∧ (∀ x : Int, x = f.constant.toInt →
          (∀ inv : Bool, f.channel = 1 → f.invert = yesNo inv →
            (f.mode = 0 → s.cond[st].change f = some { s.cond[st] with accel := .live, invert := inv })
            ∧ (f.mode = 1 → -32768 ≤ x → x ≤ 32767 →
                s.cond[st].change f = some { s.cond[st] with accel := .fixed x, invert := inv })
            ∧ (f.mode = 2 → 1 ≤ f.toneOrder.toNat → f.toneOrder.toNat ≤ 63 → 1 ≤ f.toneAmplitude.toNat →
                f.toneAmplitude.toNat ≤ 16000 → f.tonePhase.toNat ≤ 127 → s.cond[st].change f = some { s.cond[st] with
                  accel := .pattern f.toneOrder.toNat f.toneAmplitude.toNat f.tonePhase.toNat, invert := inv }))
          ∧ (f.channel = 2 → f.invert = 0xFF →
            (f.mode = 0 → s.cond[st].change f = some { s.cond[st] with press := .live })
            ∧ (f.mode = 1 → -50000 ≤ x → x ≤ 250000 → s.cond[st].change f = some { s.cond[st] with press := .fixed x })
            ∧ (f.mode = 2 → 1 ≤ f.decayRate.toNat → f.decayRate.toNat ≤ 5000 →
                s.cond[st].change f = some { s.cond[st] with press := .pattern f.decayRate.toNat }))
          ∧ (f.channel = 3 → f.invert = 0xFF →
            (f.mode = 0 → s.cond[st].change f = some { s.cond[st] with temp := .live })
            ∧ (f.mode = 1 → -2000 ≤ x → x ≤ 8000 → s.cond[st].change f = some { s.cond[st] with temp := .fixed x }))
          ∧ ((f.channel ≠ 1 ∧ f.channel ≠ 2 ∧ f.channel ≠ 3)
              ∨ (f.channel = 1 ∧ f.invert ≠ 0 ∧ f.invert ≠ 1) ∨ (f.channel ≠ 1 ∧ f.invert ≠ 0xFF)
              ∨ 2 < f.mode.toNat ∨ (f.mode = 2 ∧ f.channel = 3)
              ∨ (f.mode = 1 ∧ f.channel = 1 ∧ (x < -32768 ∨ 32767 < x))
              ∨ (f.mode = 1 ∧ f.channel = 2 ∧ (x < -50000 ∨ 250000 < x))
              ∨ (f.mode = 1 ∧ f.channel = 3 ∧ (x < -2000 ∨ 8000 < x))
              ∨ (f.mode = 2 ∧ f.channel = 1 ∧ (f.toneOrder.toNat = 0 ∨ 63 < f.toneOrder.toNat ∨ f.toneAmplitude.toNat = 0
                  ∨ 16000 < f.toneAmplitude.toNat ∨ 127 < f.tonePhase.toNat))
              ∨ (f.mode = 2 ∧ f.channel = 2 ∧ (f.decayRate.toNat = 0 ∨ 5000 < f.decayRate.toNat)) →
              exec (.chn tag f) s = .next (s.received.replies 0xB8 tag [0x03])))))
  ∧ (∀ (c : Instr) (s t : State), exec c s = .next t → (∀ pins, c ≠ .powerOnReset pins) → (∀ tag f, c ≠ .chn tag f) →
    (∀ b, c = .byteArrival b → ∀ frame, s.link.completes b = some frame → byteAt frame 2 ≠ 0x38) → t.cond = s.cond)

/-- What the samples take (R77 to R79, R147 to R152), each clamped into its range (R76, R79). SPEED: 0 with fewer than two
index events, with none in the last 500 ms or with a net line count of 0; otherwise 60,000,000 over the µs between the
latest two, rounded to nearest, with the count's sign, of which the manual states none for 0 µs (a free value: log entry 7);
invalid when the encoder interface reports a fault. That a sample falls at the microsecond the clock has reached is the
model's choice (log entry 6). OIL_TEMP, TORQUE and SUPPLY: the sensor's value, or an invalid sample for open, short or no
data. LEAK_PRESS and AIR_TEMP: LIVE as those; FIXED the constant, whatever the sensor reports; LEAK_PRESS in PATTERN the
value of its leak phase, in SETTLE and MEASURE the test pressure less decay rate times the ms since the SETTLE start over
1,000, rounded to nearest (an exact half away from zero: log entry 22). ACCEL, at the bin samples of a revolution (R105) and
at the VIB samples, which take the greatest magnitude (R78): LIVE the value, or −32,768 for a reported fault; FIXED the
constant; PATTERN the tone at the shaft bin, to the nearest integer; and with invert the negation, that of −32,768 being
32,767. A VIB sample is invalid when the entry is LIVE and a fault was reported since the one before (R79). -/
def Obligations.ConditionedValuesFollowTheirEntries : Prop :=
  ∀ (st : Station) (s : State),
    (let takes := fun (y : SensorInput) (q : StQuantity) (v : Option Int) => ∃ t, exec (.monitorSample y) s = .next t
        ∧ (t.quantity st q).held = (v.map (fun n => max (spanOf q).1 (min (spanOf q).2 n))).getD (s.quantity st q).held
        ∧ (t.quantity st q).lastValid = v.isSome
        ∧ (t.quantity st q).invalid = if v.isSome then 0 else min ((s.quantity st q).invalid + 1) 65535
     takes (.speed st true) .speed none
     ∧ ((s.enc[st].last = none ∨ s.enc[st].prev = none) → takes (.speed st false) .speed (some 0))
     ∧ (∀ l p, s.enc[st].last = some l → s.enc[st].prev = some p →
        (let since := elapsed l.ms s.clock.now * 1000 + s.clock.us - l.us
         (500000 < since ∨ s.enc[st].latestNet = 0 → takes (.speed st false) .speed (some 0))
         ∧ (since ≤ 500000 → s.enc[st].latestNet ≠ 0 →
            ∃ v, RevolutionSpeed (elapsed p.ms l.ms * 1000 + l.us - p.us) s.enc[st].latestNet v
              ∧ takes (.speed st false) .speed (some v))))
     ∧ (∀ reading : Reading,
        (let given : Option Int := match reading with | .value n => some n | .openCircuit | .shortCircuit | .noData => none
         takes (.oilTemp st reading) .oilTemp given ∧ takes (.torque st reading) .torque given
         ∧ ∃ t, exec (.monitorSample (.supply reading)) s = .next t
            ∧ t.mon.supply.held = (given.map (fun n => max 0 (min 1000000 n))).getD s.mon.supply.held
            ∧ t.mon.supply.lastValid = given.isSome)
        ∧ (s.cond[st].press = .live → takes (.leakPress st reading) .leakPress
          (match reading with | .value n => some n | .openCircuit | .shortCircuit | .noData => none))
        ∧ (∀ c, s.cond[st].press = .fixed c → takes (.leakPress st reading) .leakPress (some c))
        ∧ (∀ rate, s.cond[st].press = .pattern rate → ((s.circuit st).phase = .none
            ∨ (s.circuit st).phase = .standstillWait ∨ (s.circuit st).phase = .vent) →
            takes (.leakPress st reading) .leakPress (some 0))
        ∧ (∀ rate l, s.cond[st].press = .pattern rate → s.leakSpec st = some l →
            ((s.circuit st).phase = .waitSupply ∨ (s.circuit st).phase = .fill →
              takes (.leakPress st reading) .leakPress (some l.testPressure))
            ∧ (∀ since, (s.circuit st).phase = .settle ∨ (s.circuit st).phase = .measure →
                (s.circuit st).settleStart = some since →
                ∃ p : Int, (let d := 1000 * (l.testPressure : Int) - (rate * elapsed since s.now : Nat)
                    2 * (1000 * p - d).natAbs ≤ 1000 ∧ (2 * (1000 * p - d).natAbs = 1000 → d.natAbs ≤ (1000 * p).natAbs))
                  ∧ takes (.leakPress st reading) .leakPress (some p)))
        ∧ (s.cond[st].temp = .live → takes (.airTemp st reading) .airTemp
          (match reading with | .value n => some n | .openCircuit | .shortCircuit | .noData => none))
        ∧ (∀ c, s.cond[st].temp = .fixed c → takes (.airTemp st reading) .airTemp (some c)))
     ∧ (let gives := fun (b : Nat) (reading : AccelReading) (x : Int) => ∃ raw : Int,
          (match s.cond[st].accel with
            | .live => raw = (match reading with | .value n => n.toInt | .openCircuit | .shortCircuit | .noData => -32768)
            | .fixed c => raw = c
            | .pattern order amplitude phase =>
              2 * (32767 * raw - amplitude * sine ((order * b + phase) % 128)).natAbs ≤ 32767)
          ∧ x = if s.cond[st].invert then (if raw = -32768 then 32767 else -raw) else raw
        (∀ (us : Fin 1000) (reading : AccelReading) (e : EngineId) (x : Int), s.accumulating st = some e →
            (s.engine e).revOpen = false → gives 0 reading x →
            ∃ t, exec (.encoderIndex st us reading) s = .next t ∧ (t.engine e).samples[(0 : Fin 128)] = some x)
        ∧ (∀ (forward : Bool) (reading : AccelReading) (e : EngineId) (b : Fin 128) (x : Int), s.accumulating st = some e →
            (s.engine e).revOpen = true → (s.engine e).samples[b] = none → s.enc[st].last ≠ none →
            (s.enc[st].pos + if forward then 1 else -1).val = 4 * b.val → gives b reading x →
            ∃ t, exec (.encoderLine st forward reading) s = .next t ∧ (t.engine e).samples[b] = some x)
        ∧ (∀ (now : AccelReading) (since : List AccelReading) (xs : List Int),
            List.Forall₂ (gives (s.enc[st].pos.val / 4)) (since ++ [now]) xs →
            takes (.vib st now since) .vib
              (if s.cond[st].accel = .live ∧ (s.mon.vib[st].fault = true ∨ ∃ f ∈ since ++ [now], ∀ n, f ≠ .value n) then none
               else some (((xs.map Int.natAbs).foldl max s.mon.vib[st].peak : Nat) : Int)))))

/-! ### Records, counters, recipes -/

/-- A deposit from the queue: the head station's closed record is numbered and appended; the station goes to DONE, its
verdict is counted, its TABLE entry gives up a lock and counts the test, and its NST is given with the verdict and the number.
An RLR that names the oldest record removes that and makes the deposit at the same event, and its reply names it (R13, R167,
R170). DEPOSIT makes it when the store has room, which beside a waiting station stands on no run (R166); the deposit at the
entry to COMPLETING is StoppingEndsAtStandstillOrTimeout's and `EntersCompleting`'s. An RLR with nobody waiting, or with the
numbering EXHAUSTED, only removes the oldest record when it names it, and RLR is refused EMPTY or NOT_OLDEST otherwise; a
DEPOSIT with nobody waiting, no room or no number left changes nothing (R167, R170). -/
def Obligations.DepositNumbersRecord : Prop :=
  (∀ (st : Station) (waiting : List Station) (n : Nat) (r : Record) (c : TestCtx) (v : Verdict) (s : State),
    s.store.deposit = st :: waiting → s.store.next = some n → (s.ctx st).record = some r → (s.ctx st).test = some c →
    r.verdict = some v →
    (∀ (kept : List Record) (t : State),
      (s.store.records.length < 48 ∧ kept = s.store.records ∧ exec .deposit s = .next t)
      ∨ (∃ (tag : Byte) (k : Word32) (oldest : Record), s.link.slot = none ∧ s.store.records = oldest :: kept
          ∧ oldest.number = some k.toNat ∧ exec (.rlr tag k) s = .next t) →
      s.TakesRecord t st kept n c r v ∧ t.store.deposit = waiting ∧ t.drive = s.drive ∧ t.mon = s.mon)
    ∧ (s.store.records.length < 48 → ∃ t, exec .deposit s = .next t
        ∧ s.GivesNotices t [.nst st .done c.cause (some (v, n))])
    ∧ (∀ (tag : Byte) (k : Word32) (oldest : Record) (kept : List Record), s.link.slot = none →
        s.store.records = oldest :: kept → oldest.number = some k.toNat → ∃ t, exec (.rlr tag k) s = .next t
        ∧ s.AnswersWithNotices t [.nst st .done c.cause (some (v, n))] 0xC1 tag
            (0x00 :: (le32 k ++ byteOf (kept.length + 1) :: stationCode st :: nat32 n))))
  ∧ (∀ s : State, s.store.deposit = [] ∨ s.store.next = none ∨ 48 ≤ s.store.records.length → exec .deposit s = .next s)
  ∧ (∀ (tag : Byte) (k : Word32) (s : State), s.link.slot = none →
    (s.store.records = [] → exec (.rlr tag k) s = .next (s.received.replies 0xC1 tag [0x12]))
    ∧ (∀ (oldest : Record) (rest : List Record), s.store.records = oldest :: rest →
        (oldest.number ≠ some k.toNat → exec (.rlr tag k) s = .next (s.received.replies 0xC1 tag [0x13]))
        ∧ (oldest.number = some k.toNat → s.store.deposit = [] ∨ s.store.next = none → exec (.rlr tag k) s =
            .next (({ s.received with store := { s.store with records := rest } } : State).replies 0xC1 tag
              (0x00 :: (le32 k ++ byteOf rest.length :: 0x00 :: [0x00, 0x00, 0x00, 0x00]))))))

/-- A snapshot, by SNP or by the auto-snapshot timer's expiry, copies the live counters, zeroes them, numbers itself, and
starts the timer again; SNP answers it; POL answers the change set, the states and the queues, and clears the set (R178 to
R180, R184). -/
def Obligations.SnapshotCopiesAndZeroes : Prop :=
  (∀ (s : State) (cause : SnapshotCause) (t : State),
    (cause = .auto ∧ (∃ since, s.counters.autoStart = some since ∧ s.config.autoInterval * 1000 ≤ elapsed since s.now)
        ∧ exec .autoSnapshotExpiry s = .next t)
    ∨ (cause = .snp ∧ ∃ tag, s.link.slot = none ∧ exec (.snp tag) s = .next t
        ∧ t.link.slot = some ⟨0xC8, tag, 0x00 :: t.counters.snapshot.bytes⟩) →
    t.counters = { s.counters with
        live := .zero
        snapshot := { counters := s.counters.live
                      number := if s.counters.snapshot.number = 4294967295 then 1 else s.counters.snapshot.number + 1
                      time := s.now, length := s.now - s.counters.intervalStart, cause := some cause }
        intervalStart := s.now
        autoStart := if s.config.autoInterval = 0 then none else some s.now }
    ∧ t.seq = s.seq ∧ t.store = s.store ∧ t.table = s.table ∧ t.mon = s.mon ∧ t.config = s.config)
  ∧ (∀ s : State, (∃ since, s.counters.autoStart = some since ∧ s.config.autoInterval * 1000 ≤ elapsed since s.now) →
      ∃ t, exec .autoSnapshotExpiry s = .next t ∧ t.link = s.link)
  ∧ (∀ (tag : Byte) (s : State), s.link.slot = none → ∃ t, exec (.snp tag) s = .next t
      ∧ t.link.slot = some ⟨0xC8, tag, 0x00 :: t.counters.snapshot.bytes⟩)
  ∧ (∀ (tag : Byte) (s : State), s.link.slot = none → exec (.pol tag) s =
      .next (({ s.received with counters := { s.counters with changed := Vector.replicate 6 false } } : State).replies
        0xCA tag (0x00 :: stationSetCode s.counters.changed :: (allStations.map (fun st => (s.stateOf st).code)
          ++ [byteOf s.store.records.length, byteOf s.store.deposit.length, yesNo s.link.lostPending]))))

/-- RRS (R48) answers an entry's statistics and zeroes them, whatever its lock; variant 0 gives BAD_VALUE, a miss
RECIPE_MISSING; no retirement count and no notice comes of it. -/
def Obligations.RrsReadsAndZeroes : Prop :=
  ∀ (tag : Byte) (v : Word16) (s : State), s.link.slot = none →
    (v = 0 → exec (.rrs tag v) s = .next (s.received.replies 0xA4 tag [0x03]))
    ∧ (v ≠ 0 → s.lookup v.toNat = none → exec (.rrs tag v) s = .next (s.received.replies 0xA4 tag [0x09]))
    ∧ (∀ i w e, v ≠ 0 → s.lookup v.toNat = some (i, w, e) → exec (.rrs tag v) s =
        .next ((s.received.modEntry i w (fun e => { e with tests := 0, fails := 0 })).replies 0xA4 tag
          (0x00 :: (le16 v ++ byteOf e.recipe.revision :: (nat16 e.tests ++ nat16 e.fails)))))

/-- LDR (R43, R44): BAD_LENGTH where the body's length disagrees with its header (R204); RECIPE_INVALID with the first
element and position at which validation fails, stage by stage: the header's ranges, each step, group, leak and override
record's, then the cross-checks in their order (R28 to R34). Any other body is the recipe its records carry, with the first
and last window of each group and the fingerprint (R35, R36); every body is one or the other. A body already held replaces
its entry in place, which stays pinned as it was, or is refused RECIPE_IN_USE when that is locked; a new body goes into the
lowest free way, or over the victim, the unlocked unpinned entry of highest rank, or is refused SET_FULL. The new entry
takes rank 0, and the ranks below the departing one's, or all of a set with a free way, go up by 1; the other sets stay. DRP
(R45) and PIN (R46) change the entry they name, or are refused BAD_VALUE, RECIPE_MISSING or, DRP of a locked entry,
RECIPE_IN_USE. A dirty entry that departs is written back to RETIRED_TESTS and RETIRED_FAILS, saturating, and gives its NRT;
a clean one is not and gives none (R42). That a FREE transmitter begins the reply ahead of that NRT is the model's reading
(log entry 5). -/
def Obligations.RecipesInstallDropAndPin : Prop :=
  (∀ body : List Byte, ((∃ r, RecipeCarried body r) ∨ ∃ el pos, RecipeRefused body el pos)
    ∧ (∀ r, validate body = .ok r ↔ RecipeCarried body r)
    ∧ (∀ e, validate body = .error e ↔ RecipeRefused body e.element e.position))
  ∧ ∀ (tag : Byte) (s : State), s.link.slot = none →
    (∀ body : List Byte,
      (¬LengthAgrees body → exec (.ldr tag body) s = .next (s.received.replies 0xA0 tag [0x02]))
      ∧ (∀ el pos, LengthAgrees body → RecipeRefused body el pos → exec (.ldr tag body) s =
          .next (s.received.replies 0xA0 tag [0x0A, el.code, byteOf pos]))
      ∧ (∀ r : Recipe, LengthAgrees body → RecipeCarried body r →
        (∀ w, s.lookup r.variant = none → RecipeSet.freeWay s.table[setIndex r.variant] = some w →
          ∃ t, exec (.ldr tag body) s = .next t
            ∧ t.table[setIndex r.variant][w] = some ⟨r, false, 0, 0, 0, 0⟩
            ∧ (∀ v : Fin 4, v ≠ w → t.table[setIndex r.variant][v] =
                (s.table[setIndex r.variant][v]).map (fun e => { e with rank := e.rank + 1 }))
            ∧ (∀ i : Fin 8, i ≠ setIndex r.variant → t.table[i] = s.table[i])
            ∧ t.link = (s.received.replies 0xA0 tag (0x00 :: byteOf (setIndex r.variant) :: byteOf w ::
                (le16 (crc16 body) ++ [0x00, 0x00, 0x00, 0x00]))).link
            ∧ t.counters = s.counters ∧ t.seq = s.seq)
        ∧ (∀ i w e, s.lookup r.variant = some (i, w, e) → e.lock ≠ 0 →
            exec (.ldr tag body) s = .next (s.received.replies 0xA0 tag [0x0C]))
        ∧ (∀ w e, s.table[setIndex r.variant][w] = some e →
            (s.lookup r.variant = some (setIndex r.variant, w, e) ∧ e.lock = 0)
              ∨ (s.lookup r.variant = none ∧ RecipeSet.freeWay s.table[setIndex r.variant] = none
                ∧ e.lock = 0 ∧ e.pinned = false ∧ (∀ (v : Fin 4) (d : Entry), s.table[setIndex r.variant][v] = some d →
                    d.lock = 0 → d.pinned = false → v ≠ w → d.rank < e.rank)) →
            ∃ t, exec (.ldr tag body) s = .next t
              ∧ t.table[setIndex r.variant][w] = some ⟨r, e.pinned, 0, 0, 0, 0⟩
              ∧ (∀ v : Fin 4, v ≠ w → t.table[setIndex r.variant][v] = (s.table[setIndex r.variant][v]).map
                  (fun d => { d with rank := if d.rank < e.rank then d.rank + 1 else d.rank }))
              ∧ (∀ i : Fin 8, i ≠ setIndex r.variant → t.table[i] = s.table[i]) ∧ t.seq = s.seq ∧ s.Retires t e 0xA0 tag
                  (0x00 :: byteOf (setIndex r.variant) :: byteOf w :: (le16 (crc16 body)
                    ++ 0x01 :: (nat16 e.recipe.variant ++ [byteOf e.recipe.revision]))))
        ∧ (s.lookup r.variant = none → (∀ v : Fin 4, ∃ d, s.table[setIndex r.variant][v] = some d
              ∧ (d.lock ≠ 0 ∨ d.pinned = true)) →
            exec (.ldr tag body) s = .next (s.received.replies 0xA0 tag [0x0D]))))
    ∧ (∀ v : Word16,
        (v = 0 → exec (.drp tag v) s = .next (s.received.replies 0xA1 tag [0x03])
          ∧ ∀ p : Byte, exec (.pin tag v p) s = .next (s.received.replies 0xA2 tag [0x03]))
        ∧ (∀ p : Byte, p ≠ 0 → p ≠ 1 → exec (.pin tag v p) s = .next (s.received.replies 0xA2 tag [0x03]))
        ∧ (v ≠ 0 → s.lookup v.toNat = none → exec (.drp tag v) s = .next (s.received.replies 0xA1 tag [0x09])
          ∧ ∀ p : Bool, exec (.pin tag v (yesNo p)) s = .next (s.received.replies 0xA2 tag [0x09])))
    ∧ (∀ (v : Word16) i w e, v ≠ 0 → s.lookup v.toNat = some (i, w, e) →
        (e.lock ≠ 0 → exec (.drp tag v) s = .next (s.received.replies 0xA1 tag [0x0C]))
        ∧ (e.lock = 0 → ∃ t, exec (.drp tag v) s = .next t ∧ t.table[i][w] = none
            ∧ (∀ u : Fin 4, u ≠ w → t.table[i][u] =
                (s.table[i][u]).map (fun d => { d with rank := if e.rank < d.rank then d.rank - 1 else d.rank }))
            ∧ (∀ j : Fin 8, j ≠ i → t.table[j] = s.table[j]) ∧ t.seq = s.seq
            ∧ s.Retires t e 0xA1 tag [0x00, byteOf i, byteOf w])
        ∧ (∀ p : Bool, exec (.pin tag v (yesNo p)) s =
            .next ((s.received.modEntry i w (fun e => { e with pinned := p })).replies 0xA2 tag
              [0x00, byteOf i, byteOf w, yesNo p])))

/-! ### The link -/

/-- CFG (R198): an unnamed line mode is refused BAD_VALUE, another mode during a test STATE; otherwise the six fields are
applied, the numeric ones clamped (R197), and answered; a different auto-snapshot interval restarts or stops the timer. -/
def Obligations.CfgAppliesClampedFields : Prop :=
  ∀ (tag : Byte) (f : CfgFields) (s : State), s.link.slot = none →
    (f.mode ≠ 0 → f.mode ≠ 1 → exec (.cfg tag f) s = .next (s.received.replies 0x82 tag [0x03]))
    ∧ (∀ m : LineMode, f.mode = m.code →
        (m ≠ s.config.mode → (∃ st : Station, s.stateOf st = .running ∨ s.stateOf st = .stopping ∨ s.stateOf st = .completing)
          → exec (.cfg tag f) s = .next (s.received.replies 0x82 tag [0x05]))
        ∧ (m = s.config.mode
            ∨ (∀ st : Station, s.stateOf st ≠ .running ∧ s.stateOf st ≠ .stopping ∧ s.stateOf st ≠ .completing) →
            (let c : LineConfig :=
              { mode := m, patm := max 80000 (min 110000 f.patm.toNat), stopRate := max 100 (min 5000 f.stopRate.toNat)
                standstill := max 1 (min 50 f.standstill.toNat), waitLimit := min 600000 f.waitLimit.toNat
                autoInterval := min 3600 f.autoInterval.toNat }
             ∃ t, exec (.cfg tag f) s = .next t ∧ t.config = c ∧ t.link = (s.received.replies 0x82 tag (0x00 :: c.bytes)).link
              ∧ t.counters = { s.counters with autoStart :=
                  if c.autoInterval = s.config.autoInterval then s.counters.autoStart
                  else if c.autoInterval = 0 then none else some s.now }
              ∧ t.seq = s.seq ∧ t.drive = s.drive ∧ t.mon = s.mon ∧ t.table = s.table ∧ t.store = s.store)))

/-- The receiver (R188): in HUNTING a 0xA5 opens a frame and any other byte is lost; in RECEIVING a byte is appended and
starts the gap timer again; the second length byte gives the expected length, or, outside 2 to 1,018, discards the frame,
counted in FRAMES_BAD. That LENGTH_OUT_OF_RANGE is that byte's BYTE_ARRIVAL is the model's reading (log entry 3). The gap
timer's expiry, 20 ms after the last byte, discards the partial frame uncounted (R189). At the end of a frame the slot is
emptied if it was the reply, and the FREE transmitter begins the waiting reply, or else the oldest notice, or nothing;
TRANSMIT_START begins the same for a transmitter already FREE (R191, R193). -/
def Obligations.ReceiverAndTransmitterGoOn : Prop :=
  (∀ (b : Byte) (s : State),
    (s.link.recv = .hunting → b ≠ 0xA5 → exec (.byteArrival b) s = .next s)
    ∧ (s.link.recv = .hunting → b = 0xA5 → exec (.byteArrival b) s = .next (s.modLink (fun l =>
        { l with recv := .receiving, frame := [], expected := none, gapStart := some s.now })))
    ∧ (s.link.recv = .receiving → s.link.expected = none → s.link.frame = [] → exec (.byteArrival b) s =
        .next (s.modLink (fun l => { l with frame := [b], gapStart := some s.now })))
    ∧ (∀ low : Byte, s.link.recv = .receiving → s.link.expected = none → s.link.frame = [low] →
        (2 ≤ low.toNat + 256 * b.toNat → low.toNat + 256 * b.toNat ≤ 1018 → exec (.byteArrival b) s =
          .next (s.modLink (fun l =>
            { l with frame := [low, b], expected := some (low.toNat + 256 * b.toNat), gapStart := some s.now })))
        ∧ (low.toNat + 256 * b.toNat < 2 ∨ 1018 < low.toNat + 256 * b.toNat → ∃ t,
            exec (.byteArrival b) s = .next t ∧ exec (.lengthOutOfRange b) s = .next t
            ∧ t = (s.modLink Link.hunt).countGlobal (fun c => { c with framesBad := min (c.framesBad + 1) 65535 })))
    ∧ (∀ n, s.link.recv = .receiving → s.link.expected = some n → s.link.frame.length + 1 ≠ n + 4 →
        exec (.byteArrival b) s =
          .next (s.modLink (fun l => { l with frame := s.link.frame ++ [b], gapStart := some s.now }))))
  ∧ (∀ (since : LineTime) (s : State), s.link.recv = .receiving → s.link.gapStart = some since →
    20 ≤ elapsed since s.now → exec .gapTimerExpiry s = .next (s.modLink (fun l =>
      { l with recv := .hunting, frame := [], expected := none, gapStart := none })))
  ∧ (∀ s : State, s.link.tx = .reply → s.link.restartPending = false → exec .transmitEnd s = .next (s.modLink (fun l =>
      match l.queue with
      | [] => { l with slot := none, tx := .free }
      | n :: rest => { l with slot := none, tx := .notice n, queue := rest })))
  ∧ (∀ (m : Notice) (s : State), s.link.tx = .notice m → exec .transmitEnd s = .next (s.modLink (fun l =>
      match l.slot, l.queue with
      | some _, _ => { l with tx := .reply }
      | none, [] => { l with tx := .free }
      | none, n :: rest => { l with tx := .notice n, queue := rest })))
  ∧ (∀ s : State, s.link.tx = .free → exec .transmitStart s = .next (s.modLink (fun l =>
      match l.slot, l.queue with
      | some _, _ => { l with tx := .reply }
      | none, [] => l
      | none, n :: rest => { l with tx := .notice n, queue := rest })))

/-- The last byte of a frame (R190 to R192): with a wrong CRC the frame is discarded and counted; a good frame with a reply in
the slot is discarded uncounted; a good frame of no request's kind is answered UNKNOWN_KIND with kind plus 0x80, or its own
kind from 0x80; one of a request's kind whose payload has a length its kind does not admit is answered BAD_LENGTH, the status
alone, and no owner sees it (R204). That CRC_MISMATCH, FRAME_DISCARDED_BUSY and UNKNOWN_KIND are that byte's BYTE_ARRIVAL is
the model's reading (log entry 3), and so is the status alone in RDR's case (log entry 31). -/
def Obligations.CompleteFrameIsJudged : Prop :=
  ∀ (b : Byte) (frame : List Byte) (s : State), s.link.recv = .receiving →
    s.link.expected = some (s.link.frame.length - 3) → 5 ≤ s.link.frame.length → frame = s.link.frame ++ [b] →
    (crc16 (frame.take (frame.length - 2)) ≠ byteAt frame (frame.length - 2) ++ byteAt frame (frame.length - 1) →
      ∃ t, exec (.crcMismatch b) s = .next t ∧ exec (.byteArrival b) s = .next t
        ∧ t = (s.modLink Link.hunt).countGlobal (fun c => { c with framesBad := min (c.framesBad + 1) 65535 }))
    ∧ (crc16 (frame.take (frame.length - 2)) = byteAt frame (frame.length - 2) ++ byteAt frame (frame.length - 1) →
        (s.link.slot ≠ none → exec (.frameDiscardedBusy b) s = .next s.received
          ∧ exec (.byteArrival b) s = .next s.received)
        ∧ (s.link.slot = none →
            byteAt frame 2 ∉ [0x01, 0x02, 0x10, 0x11, 0x12, 0x13, 0x14, 0x15, 0x16, 0x20, 0x21, 0x22, 0x23, 0x24, 0x30,
              0x31, 0x32, 0x33, 0x38, 0x40, 0x41, 0x48, 0x49, (0x4A : Byte)] →
            (let kind := if (byteAt frame 2).toNat < 0x80 then byteAt frame 2 + 0x80 else byteAt frame 2
             exec (.unknownKind b) s = .next (s.received.replies kind (byteAt frame 3) [0x01])
             ∧ exec (.byteArrival b) s = .next (s.received.replies kind (byteAt frame 3) [0x01])))
        ∧ (s.link.slot = none →
            (let kind := byteAt frame 2
             let p := (frame.take (frame.length - 2)).drop 4
             (∃ n : Nat, (kind, n) ∈ [((0x01 : Byte), 0), (0x02, 15), (0x11, 1), (0x12, 1), (0x13, 2), (0x14, 1), (0x15, 0),
                  (0x16, 1), (0x21, 2), (0x22, 3), (0x23, 0), (0x24, 2), (0x32, 1), (0x38, 14), (0x40, 5), (0x41, 4),
                  (0x48, 0), (0x49, 0), (0x4A, 0)] ∧ p.length ≠ n)
              ∨ (kind = 0x10 ∧ (p.length < 10 ∨ p.length < 10 + natAt p 9
                  ∨ (byteAt p 5 ≠ 1 ∧ p.length ≠ 10 + natAt p 9)
                  ∨ (byteAt p 5 = 1 ∧ ¬LengthAgrees (p.drop (10 + natAt p 9)))))
              ∨ (kind = 0x20 ∧ ¬LengthAgrees p)
              ∨ (kind = 0x30 ∧ (p = [] ∨ p.length ≠ 1 + 17 * natAt p 0))
              ∨ (kind = 0x31 ∧ (p = [] ∨ p.length ≠ 1 + 3 * natAt p 0))
              ∨ (kind = 0x33 ∧ (p.length < 2 ∨ p.length ≠ 2 + 2 * natAt p 1)) →
             exec (.byteArrival b) s = .next (s.received.replies (kind + 0x80) (byteAt frame 3) [0x02]))))

/-- A notice given to the Link Interface joins the tail of a queue of fewer than 16, with the LOST mark of earlier drops, or is
dropped, counted in NOTICES_LOST and remembered (R194). At the end of the event a FREE transmitter with no reply to send
begins the oldest notice, which leaves the queue (R193). An emergency stop gives a RUNNING or STOPPING station's NST for
COMPLETING, with ESTOP unless the test had a cause, and when the store takes its record at once the NST for DONE with the
verdict ABORTED and the record number (R15, R166, R195), here with no other station testing. -/
def Obligations.NoticesJoinTheQueueOrAreLost : Prop :=
  (∀ (b : NoticeBody) (s : State),
    (s.link.queue.length < 16 → s.giveNotice b = { s with link := { s.link with
        queue := s.link.queue ++ [⟨s.link.lostPending, b⟩], lostPending := false } })
    ∧ (16 ≤ s.link.queue.length → s.giveNotice b =
        (s.countGlobal (fun c => { c with noticesLost := min (c.noticesLost + 1) 65535 })).modLink
          (fun l => { l with lostPending := true })))
  ∧ (∀ (bs : List NoticeBody) (s t : State), s.GivesNotices t bs → s.link.tx = .free → s.link.slot = none →
      s.link.queue = [] → bs.length ≤ 16 →
      t.link = (match bs with
        | [] => s.link
        | b :: rest => { s.link with
            tx := .notice ⟨s.link.lostPending, b⟩, queue := rest.map (fun b => ⟨false, b⟩), lostPending := false }))
  ∧ (∀ (order : List Station) (st : Station) (c : TestCtx) (r : Record) (s : State), s.pins.estop = false →
      s.stateOf st = .running ∨ s.stateOf st = .stopping →
      (∀ j, j ≠ st → s.stateOf j ≠ .running ∧ s.stateOf j ≠ .stopping) →
      (s.ctx st).test = some c → (s.ctx st).record = some r →
      ∃ t, exec (.emergencyStop order) s = .next t
        ∧ s.GivesNotices t (.nst st .completing (some (c.cause.getD .estop)) none ::
          (match s.store.next with
            | some n => if s.store.records.length < 48 ∧ s.store.deposit = []
                then [.nst st .done (some (c.cause.getD .estop)) (some (.aborted, n))] else []
            | none => [])))

/-! ### What every step keeps -/

/-- Every step keeps the bounds: counters within 0 to 65,535, at most 16 notices and 48 records, the line configuration in
its ranges, the global thresholds ordered and in range. -/
def Obligations.EveryStepKeepsBounds : Prop :=
  ∀ s t : State, s.Bounded → step s = .next t → t.Bounded

/-- Every step keeps the store numbered, in strictly increasing number below the next one (R165). -/
def Obligations.EveryStepKeepsStoreNumbered : Prop :=
  ∀ s t : State, s.Numbered → step s = .next t → t.Numbered

/-- Every step keeps every record's remark list without repeats and within 24, full when REMARKS_FULL is set (R160, R161). -/
def Obligations.EveryStepKeepsRemarksDistinct : Prop :=
  ∀ s t : State, s.RemarksKept → step s = .next t → t.RemarksKept

/-- Every step leaves the valves of every leak circuit as its phase has them (R123). -/
def Obligations.EveryStepKeepsValvesInPhase : Prop :=
  ∀ s t : State, s.ValvesFollowPhase → step s = .next t → t.ValvesFollowPhase

/-- Every step keeps each set's valid entries in their set, one per variant, with age ranks 0 to n − 1 each once (R37, R38). -/
def Obligations.EveryStepKeepsAgeRanksDense : Prop :=
  ∀ s t : State, s.RanksDense → step s = .next t → t.RanksDense

/-- Every step keeps each station where its state has it: steps in progress, leak phases, the supply grant, the supply wait
queue and the deposit queue agree with the stations' states (R52, R122, R123, R127, R165). -/
def Obligations.EveryStepKeepsStationsInPlace : Prop :=
  ∀ s t : State, s.StationsInPlace → step s = .next t → t.StationsInPlace

/-- Every step keeps every entry's lock count the number of stations in RUNNING, STOPPING or COMPLETING that reference it
(R40), with each station where its state has it. -/
def Obligations.EveryStepKeepsLocksCounted : Prop :=
  ∀ s t : State, s.StationsInPlace → s.LocksCounted → step s = .next t → t.LocksCounted

/-- Every step keeps the engines held as R97 has them: FREE with no holder, group and K, or held by one station, and no
station the holder of two. -/
def Obligations.EveryStepKeepsEnginesHeld : Prop :=
  ∀ s t : State, s.EnginesHeld → step s = .next t → t.EnginesHeld
end

