-- ==== Sys2Proof/Laws/State.lean ====
section
/-! SUPPORT. One lemma per field per update, each true by `rfl`: what an update of the state writes and what it leaves. -/

namespace Sys2Proof.Machine

open Sys2Proof

set_option Elab.async false

namespace State

variable (s : State)


/-! ### `modCtx` -/

@[simp] theorem modCtx_clock (st : Station) (f : StationCtx → StationCtx) : (s.modCtx st f).clock = s.clock := rfl
@[simp] theorem modCtx_pins (st : Station) (f : StationCtx → StationCtx) : (s.modCtx st f).pins = s.pins := rfl
@[simp] theorem modCtx_link (st : Station) (f : StationCtx → StationCtx) : (s.modCtx st f).link = s.link := rfl
@[simp] theorem modCtx_config (st : Station) (f : StationCtx → StationCtx) : (s.modCtx st f).config = s.config := rfl
@[simp] theorem modCtx_seq (st : Station) (f : StationCtx → StationCtx) : (s.modCtx st f).seq = s.seq.upd st f := rfl
@[simp] theorem modCtx_drive (st : Station) (f : StationCtx → StationCtx) : (s.modCtx st f).drive = s.drive := rfl
@[simp] theorem modCtx_enc (st : Station) (f : StationCtx → StationCtx) : (s.modCtx st f).enc = s.enc := rfl
@[simp] theorem modCtx_mon (st : Station) (f : StationCtx → StationCtx) : (s.modCtx st f).mon = s.mon := rfl
@[simp] theorem modCtx_table (st : Station) (f : StationCtx → StationCtx) : (s.modCtx st f).table = s.table := rfl
@[simp] theorem modCtx_noise (st : Station) (f : StationCtx → StationCtx) : (s.modCtx st f).noise = s.noise := rfl
@[simp] theorem modCtx_leak (st : Station) (f : StationCtx → StationCtx) : (s.modCtx st f).leak = s.leak := rfl
@[simp] theorem modCtx_cond (st : Station) (f : StationCtx → StationCtx) : (s.modCtx st f).cond = s.cond := rfl
@[simp] theorem modCtx_store (st : Station) (f : StationCtx → StationCtx) : (s.modCtx st f).store = s.store := rfl
@[simp] theorem modCtx_counters (st : Station) (f : StationCtx → StationCtx) : (s.modCtx st f).counters = s.counters := rfl
@[simp] theorem modCtx_pending (st : Station) (f : StationCtx → StationCtx) : (s.modCtx st f).pending = s.pending := rfl

/-! ### `modDrive` -/

@[simp] theorem modDrive_clock (st : Station) (f : Drive → Drive) : (s.modDrive st f).clock = s.clock := rfl
@[simp] theorem modDrive_pins (st : Station) (f : Drive → Drive) : (s.modDrive st f).pins = s.pins := rfl
@[simp] theorem modDrive_link (st : Station) (f : Drive → Drive) : (s.modDrive st f).link = s.link := rfl
@[simp] theorem modDrive_config (st : Station) (f : Drive → Drive) : (s.modDrive st f).config = s.config := rfl
@[simp] theorem modDrive_seq (st : Station) (f : Drive → Drive) : (s.modDrive st f).seq = s.seq := rfl
@[simp] theorem modDrive_drive (st : Station) (f : Drive → Drive) : (s.modDrive st f).drive = s.drive.upd st f := rfl
@[simp] theorem modDrive_enc (st : Station) (f : Drive → Drive) : (s.modDrive st f).enc = s.enc := rfl
@[simp] theorem modDrive_mon (st : Station) (f : Drive → Drive) : (s.modDrive st f).mon = s.mon := rfl
@[simp] theorem modDrive_table (st : Station) (f : Drive → Drive) : (s.modDrive st f).table = s.table := rfl
@[simp] theorem modDrive_noise (st : Station) (f : Drive → Drive) : (s.modDrive st f).noise = s.noise := rfl
@[simp] theorem modDrive_leak (st : Station) (f : Drive → Drive) : (s.modDrive st f).leak = s.leak := rfl
@[simp] theorem modDrive_cond (st : Station) (f : Drive → Drive) : (s.modDrive st f).cond = s.cond := rfl
@[simp] theorem modDrive_store (st : Station) (f : Drive → Drive) : (s.modDrive st f).store = s.store := rfl
@[simp] theorem modDrive_counters (st : Station) (f : Drive → Drive) : (s.modDrive st f).counters = s.counters := rfl
@[simp] theorem modDrive_pending (st : Station) (f : Drive → Drive) : (s.modDrive st f).pending = s.pending := rfl

/-! ### `modCircuit` -/

@[simp] theorem modCircuit_clock (st : Station) (f : LeakCircuit → LeakCircuit) : (s.modCircuit st f).clock = s.clock := rfl
@[simp] theorem modCircuit_pins (st : Station) (f : LeakCircuit → LeakCircuit) : (s.modCircuit st f).pins = s.pins := rfl
@[simp] theorem modCircuit_link (st : Station) (f : LeakCircuit → LeakCircuit) : (s.modCircuit st f).link = s.link := rfl
@[simp] theorem modCircuit_config (st : Station) (f : LeakCircuit → LeakCircuit) : (s.modCircuit st f).config = s.config := rfl
@[simp] theorem modCircuit_seq (st : Station) (f : LeakCircuit → LeakCircuit) : (s.modCircuit st f).seq = s.seq := rfl
@[simp] theorem modCircuit_drive (st : Station) (f : LeakCircuit → LeakCircuit) : (s.modCircuit st f).drive = s.drive := rfl
@[simp] theorem modCircuit_enc (st : Station) (f : LeakCircuit → LeakCircuit) : (s.modCircuit st f).enc = s.enc := rfl
@[simp] theorem modCircuit_mon (st : Station) (f : LeakCircuit → LeakCircuit) : (s.modCircuit st f).mon = s.mon := rfl
@[simp] theorem modCircuit_table (st : Station) (f : LeakCircuit → LeakCircuit) : (s.modCircuit st f).table = s.table := rfl
@[simp] theorem modCircuit_noise (st : Station) (f : LeakCircuit → LeakCircuit) : (s.modCircuit st f).noise = s.noise := rfl
@[simp] theorem modCircuit_leak (st : Station) (f : LeakCircuit → LeakCircuit) : (s.modCircuit st f).leak = { s.leak with circuits := s.leak.circuits.upd st f } := rfl
@[simp] theorem modCircuit_cond (st : Station) (f : LeakCircuit → LeakCircuit) : (s.modCircuit st f).cond = s.cond := rfl
@[simp] theorem modCircuit_store (st : Station) (f : LeakCircuit → LeakCircuit) : (s.modCircuit st f).store = s.store := rfl
@[simp] theorem modCircuit_counters (st : Station) (f : LeakCircuit → LeakCircuit) : (s.modCircuit st f).counters = s.counters := rfl
@[simp] theorem modCircuit_pending (st : Station) (f : LeakCircuit → LeakCircuit) : (s.modCircuit st f).pending = s.pending := rfl

/-! ### `modGroups` -/

@[simp] theorem modGroups_clock (st : Station) (f : List GroupLine → List GroupLine) : (s.modGroups st f).clock = s.clock := rfl
@[simp] theorem modGroups_pins (st : Station) (f : List GroupLine → List GroupLine) : (s.modGroups st f).pins = s.pins := rfl
@[simp] theorem modGroups_link (st : Station) (f : List GroupLine → List GroupLine) : (s.modGroups st f).link = s.link := rfl
@[simp] theorem modGroups_config (st : Station) (f : List GroupLine → List GroupLine) : (s.modGroups st f).config = s.config := rfl
@[simp] theorem modGroups_seq (st : Station) (f : List GroupLine → List GroupLine) : (s.modGroups st f).seq = s.seq := rfl
@[simp] theorem modGroups_drive (st : Station) (f : List GroupLine → List GroupLine) : (s.modGroups st f).drive = s.drive := rfl
@[simp] theorem modGroups_enc (st : Station) (f : List GroupLine → List GroupLine) : (s.modGroups st f).enc = s.enc := rfl
@[simp] theorem modGroups_mon (st : Station) (f : List GroupLine → List GroupLine) : (s.modGroups st f).mon = s.mon := rfl
@[simp] theorem modGroups_table (st : Station) (f : List GroupLine → List GroupLine) : (s.modGroups st f).table = s.table := rfl
@[simp] theorem modGroups_noise (st : Station) (f : List GroupLine → List GroupLine) : (s.modGroups st f).noise = { s.noise with groups := s.noise.groups.upd st f } := rfl
@[simp] theorem modGroups_leak (st : Station) (f : List GroupLine → List GroupLine) : (s.modGroups st f).leak = s.leak := rfl
@[simp] theorem modGroups_cond (st : Station) (f : List GroupLine → List GroupLine) : (s.modGroups st f).cond = s.cond := rfl
@[simp] theorem modGroups_store (st : Station) (f : List GroupLine → List GroupLine) : (s.modGroups st f).store = s.store := rfl
@[simp] theorem modGroups_counters (st : Station) (f : List GroupLine → List GroupLine) : (s.modGroups st f).counters = s.counters := rfl
@[simp] theorem modGroups_pending (st : Station) (f : List GroupLine → List GroupLine) : (s.modGroups st f).pending = s.pending := rfl

/-! ### `setDeferred` -/

@[simp] theorem setDeferred_clock (st : Station) (g : Option Nat) : (s.setDeferred st g).clock = s.clock := rfl
@[simp] theorem setDeferred_pins (st : Station) (g : Option Nat) : (s.setDeferred st g).pins = s.pins := rfl
@[simp] theorem setDeferred_link (st : Station) (g : Option Nat) : (s.setDeferred st g).link = s.link := rfl
@[simp] theorem setDeferred_config (st : Station) (g : Option Nat) : (s.setDeferred st g).config = s.config := rfl
@[simp] theorem setDeferred_seq (st : Station) (g : Option Nat) : (s.setDeferred st g).seq = s.seq := rfl
@[simp] theorem setDeferred_drive (st : Station) (g : Option Nat) : (s.setDeferred st g).drive = s.drive := rfl
@[simp] theorem setDeferred_enc (st : Station) (g : Option Nat) : (s.setDeferred st g).enc = s.enc := rfl
@[simp] theorem setDeferred_mon (st : Station) (g : Option Nat) : (s.setDeferred st g).mon = s.mon := rfl
@[simp] theorem setDeferred_table (st : Station) (g : Option Nat) : (s.setDeferred st g).table = s.table := rfl
@[simp] theorem setDeferred_noise (st : Station) (g : Option Nat) : (s.setDeferred st g).noise = { s.noise with deferred := s.noise.deferred.upd st (fun _ => g) } := rfl
@[simp] theorem setDeferred_leak (st : Station) (g : Option Nat) : (s.setDeferred st g).leak = s.leak := rfl
@[simp] theorem setDeferred_cond (st : Station) (g : Option Nat) : (s.setDeferred st g).cond = s.cond := rfl
@[simp] theorem setDeferred_store (st : Station) (g : Option Nat) : (s.setDeferred st g).store = s.store := rfl
@[simp] theorem setDeferred_counters (st : Station) (g : Option Nat) : (s.setDeferred st g).counters = s.counters := rfl
@[simp] theorem setDeferred_pending (st : Station) (g : Option Nat) : (s.setDeferred st g).pending = s.pending := rfl

/-! ### `modLink` -/

@[simp] theorem modLink_clock (f : Link → Link) : (s.modLink f).clock = s.clock := rfl
@[simp] theorem modLink_pins (f : Link → Link) : (s.modLink f).pins = s.pins := rfl
@[simp] theorem modLink_link (f : Link → Link) : (s.modLink f).link = f s.link := rfl
@[simp] theorem modLink_config (f : Link → Link) : (s.modLink f).config = s.config := rfl
@[simp] theorem modLink_seq (f : Link → Link) : (s.modLink f).seq = s.seq := rfl
@[simp] theorem modLink_drive (f : Link → Link) : (s.modLink f).drive = s.drive := rfl
@[simp] theorem modLink_enc (f : Link → Link) : (s.modLink f).enc = s.enc := rfl
@[simp] theorem modLink_mon (f : Link → Link) : (s.modLink f).mon = s.mon := rfl
@[simp] theorem modLink_table (f : Link → Link) : (s.modLink f).table = s.table := rfl
@[simp] theorem modLink_noise (f : Link → Link) : (s.modLink f).noise = s.noise := rfl
@[simp] theorem modLink_leak (f : Link → Link) : (s.modLink f).leak = s.leak := rfl
@[simp] theorem modLink_cond (f : Link → Link) : (s.modLink f).cond = s.cond := rfl
@[simp] theorem modLink_store (f : Link → Link) : (s.modLink f).store = s.store := rfl
@[simp] theorem modLink_counters (f : Link → Link) : (s.modLink f).counters = s.counters := rfl
@[simp] theorem modLink_pending (f : Link → Link) : (s.modLink f).pending = s.pending := rfl

/-! ### `countStation` -/

@[simp] theorem countStation_clock (st : Station) (f : StationCounters → StationCounters) : (s.countStation st f).clock = s.clock := rfl
@[simp] theorem countStation_pins (st : Station) (f : StationCounters → StationCounters) : (s.countStation st f).pins = s.pins := rfl
@[simp] theorem countStation_link (st : Station) (f : StationCounters → StationCounters) : (s.countStation st f).link = s.link := rfl
@[simp] theorem countStation_config (st : Station) (f : StationCounters → StationCounters) : (s.countStation st f).config = s.config := rfl
@[simp] theorem countStation_seq (st : Station) (f : StationCounters → StationCounters) : (s.countStation st f).seq = s.seq := rfl
@[simp] theorem countStation_drive (st : Station) (f : StationCounters → StationCounters) : (s.countStation st f).drive = s.drive := rfl
@[simp] theorem countStation_enc (st : Station) (f : StationCounters → StationCounters) : (s.countStation st f).enc = s.enc := rfl
@[simp] theorem countStation_mon (st : Station) (f : StationCounters → StationCounters) : (s.countStation st f).mon = s.mon := rfl
@[simp] theorem countStation_table (st : Station) (f : StationCounters → StationCounters) : (s.countStation st f).table = s.table := rfl
@[simp] theorem countStation_noise (st : Station) (f : StationCounters → StationCounters) : (s.countStation st f).noise = s.noise := rfl
@[simp] theorem countStation_leak (st : Station) (f : StationCounters → StationCounters) : (s.countStation st f).leak = s.leak := rfl
@[simp] theorem countStation_cond (st : Station) (f : StationCounters → StationCounters) : (s.countStation st f).cond = s.cond := rfl
@[simp] theorem countStation_store (st : Station) (f : StationCounters → StationCounters) : (s.countStation st f).store = s.store := rfl
@[simp] theorem countStation_counters (st : Station) (f : StationCounters → StationCounters) : (s.countStation st f).counters = { s.counters with live := { s.counters.live with stations := s.counters.live.stations.upd st f } } := rfl
@[simp] theorem countStation_pending (st : Station) (f : StationCounters → StationCounters) : (s.countStation st f).pending = s.pending := rfl

/-! ### `countGlobal` -/

@[simp] theorem countGlobal_clock (f : GlobalCounters → GlobalCounters) : (s.countGlobal f).clock = s.clock := rfl
@[simp] theorem countGlobal_pins (f : GlobalCounters → GlobalCounters) : (s.countGlobal f).pins = s.pins := rfl
@[simp] theorem countGlobal_link (f : GlobalCounters → GlobalCounters) : (s.countGlobal f).link = s.link := rfl
@[simp] theorem countGlobal_config (f : GlobalCounters → GlobalCounters) : (s.countGlobal f).config = s.config := rfl
@[simp] theorem countGlobal_seq (f : GlobalCounters → GlobalCounters) : (s.countGlobal f).seq = s.seq := rfl
@[simp] theorem countGlobal_drive (f : GlobalCounters → GlobalCounters) : (s.countGlobal f).drive = s.drive := rfl
@[simp] theorem countGlobal_enc (f : GlobalCounters → GlobalCounters) : (s.countGlobal f).enc = s.enc := rfl
@[simp] theorem countGlobal_mon (f : GlobalCounters → GlobalCounters) : (s.countGlobal f).mon = s.mon := rfl
@[simp] theorem countGlobal_table (f : GlobalCounters → GlobalCounters) : (s.countGlobal f).table = s.table := rfl
@[simp] theorem countGlobal_noise (f : GlobalCounters → GlobalCounters) : (s.countGlobal f).noise = s.noise := rfl
@[simp] theorem countGlobal_leak (f : GlobalCounters → GlobalCounters) : (s.countGlobal f).leak = s.leak := rfl
@[simp] theorem countGlobal_cond (f : GlobalCounters → GlobalCounters) : (s.countGlobal f).cond = s.cond := rfl
@[simp] theorem countGlobal_store (f : GlobalCounters → GlobalCounters) : (s.countGlobal f).store = s.store := rfl
@[simp] theorem countGlobal_counters (f : GlobalCounters → GlobalCounters) : (s.countGlobal f).counters = { s.counters with live := { s.counters.live with globals := f s.counters.live.globals } } := rfl
@[simp] theorem countGlobal_pending (f : GlobalCounters → GlobalCounters) : (s.countGlobal f).pending = s.pending := rfl

/-! ### `markChanged` -/

@[simp] theorem markChanged_clock (st : Station) : (s.markChanged st).clock = s.clock := rfl
@[simp] theorem markChanged_pins (st : Station) : (s.markChanged st).pins = s.pins := rfl
@[simp] theorem markChanged_link (st : Station) : (s.markChanged st).link = s.link := rfl
@[simp] theorem markChanged_config (st : Station) : (s.markChanged st).config = s.config := rfl
@[simp] theorem markChanged_seq (st : Station) : (s.markChanged st).seq = s.seq := rfl
@[simp] theorem markChanged_drive (st : Station) : (s.markChanged st).drive = s.drive := rfl
@[simp] theorem markChanged_enc (st : Station) : (s.markChanged st).enc = s.enc := rfl
@[simp] theorem markChanged_mon (st : Station) : (s.markChanged st).mon = s.mon := rfl
@[simp] theorem markChanged_table (st : Station) : (s.markChanged st).table = s.table := rfl
@[simp] theorem markChanged_noise (st : Station) : (s.markChanged st).noise = s.noise := rfl
@[simp] theorem markChanged_leak (st : Station) : (s.markChanged st).leak = s.leak := rfl
@[simp] theorem markChanged_cond (st : Station) : (s.markChanged st).cond = s.cond := rfl
@[simp] theorem markChanged_store (st : Station) : (s.markChanged st).store = s.store := rfl
@[simp] theorem markChanged_counters (st : Station) : (s.markChanged st).counters = { s.counters with changed := s.counters.changed.upd st (fun _ => true) } := rfl
@[simp] theorem markChanged_pending (st : Station) : (s.markChanged st).pending = s.pending := rfl

/-! ### `setState` -/

@[simp] theorem setState_clock (st : Station) (x : StationState) : (s.setState st x).clock = s.clock := rfl
@[simp] theorem setState_pins (st : Station) (x : StationState) : (s.setState st x).pins = s.pins := rfl
@[simp] theorem setState_link (st : Station) (x : StationState) : (s.setState st x).link = s.link := rfl
@[simp] theorem setState_config (st : Station) (x : StationState) : (s.setState st x).config = s.config := rfl
@[simp] theorem setState_seq (st : Station) (x : StationState) : (s.setState st x).seq = s.seq.upd st (fun c => { c with state := x }) := rfl
@[simp] theorem setState_drive (st : Station) (x : StationState) : (s.setState st x).drive = s.drive := rfl
@[simp] theorem setState_enc (st : Station) (x : StationState) : (s.setState st x).enc = s.enc := rfl
@[simp] theorem setState_mon (st : Station) (x : StationState) : (s.setState st x).mon = s.mon := rfl
@[simp] theorem setState_table (st : Station) (x : StationState) : (s.setState st x).table = s.table := rfl
@[simp] theorem setState_noise (st : Station) (x : StationState) : (s.setState st x).noise = s.noise := rfl
@[simp] theorem setState_leak (st : Station) (x : StationState) : (s.setState st x).leak = s.leak := rfl
@[simp] theorem setState_cond (st : Station) (x : StationState) : (s.setState st x).cond = s.cond := rfl
@[simp] theorem setState_store (st : Station) (x : StationState) : (s.setState st x).store = s.store := rfl
@[simp] theorem setState_counters (st : Station) (x : StationState) : (s.setState st x).counters = { s.counters with changed := s.counters.changed.upd st (fun _ => true) } := rfl
@[simp] theorem setState_pending (st : Station) (x : StationState) : (s.setState st x).pending = s.pending := rfl

/-! ### `modStep` -/

@[simp] theorem modStep_clock (st : Station) (f : StepCtx → StepCtx) : (s.modStep st f).clock = s.clock := rfl
@[simp] theorem modStep_pins (st : Station) (f : StepCtx → StepCtx) : (s.modStep st f).pins = s.pins := rfl
@[simp] theorem modStep_link (st : Station) (f : StepCtx → StepCtx) : (s.modStep st f).link = s.link := rfl
@[simp] theorem modStep_config (st : Station) (f : StepCtx → StepCtx) : (s.modStep st f).config = s.config := rfl
@[simp] theorem modStep_seq (st : Station) (f : StepCtx → StepCtx) : (s.modStep st f).seq = s.seq.upd st (fun c => { c with step := c.step.map f }) := rfl
@[simp] theorem modStep_drive (st : Station) (f : StepCtx → StepCtx) : (s.modStep st f).drive = s.drive := rfl
@[simp] theorem modStep_enc (st : Station) (f : StepCtx → StepCtx) : (s.modStep st f).enc = s.enc := rfl
@[simp] theorem modStep_mon (st : Station) (f : StepCtx → StepCtx) : (s.modStep st f).mon = s.mon := rfl
@[simp] theorem modStep_table (st : Station) (f : StepCtx → StepCtx) : (s.modStep st f).table = s.table := rfl
@[simp] theorem modStep_noise (st : Station) (f : StepCtx → StepCtx) : (s.modStep st f).noise = s.noise := rfl
@[simp] theorem modStep_leak (st : Station) (f : StepCtx → StepCtx) : (s.modStep st f).leak = s.leak := rfl
@[simp] theorem modStep_cond (st : Station) (f : StepCtx → StepCtx) : (s.modStep st f).cond = s.cond := rfl
@[simp] theorem modStep_store (st : Station) (f : StepCtx → StepCtx) : (s.modStep st f).store = s.store := rfl
@[simp] theorem modStep_counters (st : Station) (f : StepCtx → StepCtx) : (s.modStep st f).counters = s.counters := rfl
@[simp] theorem modStep_pending (st : Station) (f : StepCtx → StepCtx) : (s.modStep st f).pending = s.pending := rfl

/-! ### `modRecord` -/

@[simp] theorem modRecord_clock (st : Station) (f : Record → Record) : (s.modRecord st f).clock = s.clock := rfl
@[simp] theorem modRecord_pins (st : Station) (f : Record → Record) : (s.modRecord st f).pins = s.pins := rfl
@[simp] theorem modRecord_link (st : Station) (f : Record → Record) : (s.modRecord st f).link = s.link := rfl
@[simp] theorem modRecord_config (st : Station) (f : Record → Record) : (s.modRecord st f).config = s.config := rfl
@[simp] theorem modRecord_seq (st : Station) (f : Record → Record) : (s.modRecord st f).seq = s.seq.upd st (fun c => { c with record := c.record.map f }) := rfl
@[simp] theorem modRecord_drive (st : Station) (f : Record → Record) : (s.modRecord st f).drive = s.drive := rfl
@[simp] theorem modRecord_enc (st : Station) (f : Record → Record) : (s.modRecord st f).enc = s.enc := rfl
@[simp] theorem modRecord_mon (st : Station) (f : Record → Record) : (s.modRecord st f).mon = s.mon := rfl
@[simp] theorem modRecord_table (st : Station) (f : Record → Record) : (s.modRecord st f).table = s.table := rfl
@[simp] theorem modRecord_noise (st : Station) (f : Record → Record) : (s.modRecord st f).noise = s.noise := rfl
@[simp] theorem modRecord_leak (st : Station) (f : Record → Record) : (s.modRecord st f).leak = s.leak := rfl
@[simp] theorem modRecord_cond (st : Station) (f : Record → Record) : (s.modRecord st f).cond = s.cond := rfl
@[simp] theorem modRecord_store (st : Station) (f : Record → Record) : (s.modRecord st f).store = s.store := rfl
@[simp] theorem modRecord_counters (st : Station) (f : Record → Record) : (s.modRecord st f).counters = s.counters := rfl
@[simp] theorem modRecord_pending (st : Station) (f : Record → Record) : (s.modRecord st f).pending = s.pending := rfl

/-! ### `remark` -/

@[simp] theorem remark_clock (st : Station) (m : Remark) : (s.remark st m).clock = s.clock := rfl
@[simp] theorem remark_pins (st : Station) (m : Remark) : (s.remark st m).pins = s.pins := rfl
@[simp] theorem remark_link (st : Station) (m : Remark) : (s.remark st m).link = s.link := rfl
@[simp] theorem remark_config (st : Station) (m : Remark) : (s.remark st m).config = s.config := rfl
@[simp] theorem remark_seq (st : Station) (m : Remark) : (s.remark st m).seq = s.seq.upd st (fun c => { c with record := c.record.map (fun r => r.addRemark m) }) := rfl
@[simp] theorem remark_drive (st : Station) (m : Remark) : (s.remark st m).drive = s.drive := rfl
@[simp] theorem remark_enc (st : Station) (m : Remark) : (s.remark st m).enc = s.enc := rfl
@[simp] theorem remark_mon (st : Station) (m : Remark) : (s.remark st m).mon = s.mon := rfl
@[simp] theorem remark_table (st : Station) (m : Remark) : (s.remark st m).table = s.table := rfl
@[simp] theorem remark_noise (st : Station) (m : Remark) : (s.remark st m).noise = s.noise := rfl
@[simp] theorem remark_leak (st : Station) (m : Remark) : (s.remark st m).leak = s.leak := rfl
@[simp] theorem remark_cond (st : Station) (m : Remark) : (s.remark st m).cond = s.cond := rfl
@[simp] theorem remark_store (st : Station) (m : Remark) : (s.remark st m).store = s.store := rfl
@[simp] theorem remark_counters (st : Station) (m : Remark) : (s.remark st m).counters = s.counters := rfl
@[simp] theorem remark_pending (st : Station) (m : Remark) : (s.remark st m).pending = s.pending := rfl

/-! ### `addStepEntry` -/

@[simp] theorem addStepEntry_clock (st : Station) (e : StepEntry) : (s.addStepEntry st e).clock = s.clock := rfl
@[simp] theorem addStepEntry_pins (st : Station) (e : StepEntry) : (s.addStepEntry st e).pins = s.pins := rfl
@[simp] theorem addStepEntry_link (st : Station) (e : StepEntry) : (s.addStepEntry st e).link = s.link := rfl
@[simp] theorem addStepEntry_config (st : Station) (e : StepEntry) : (s.addStepEntry st e).config = s.config := rfl
@[simp] theorem addStepEntry_seq (st : Station) (e : StepEntry) : (s.addStepEntry st e).seq = s.seq.upd st (fun c => { c with record := c.record.map (fun r => { r with steps := r.steps ++ [e] }) }) := rfl
@[simp] theorem addStepEntry_drive (st : Station) (e : StepEntry) : (s.addStepEntry st e).drive = s.drive := rfl
@[simp] theorem addStepEntry_enc (st : Station) (e : StepEntry) : (s.addStepEntry st e).enc = s.enc := rfl
@[simp] theorem addStepEntry_mon (st : Station) (e : StepEntry) : (s.addStepEntry st e).mon = s.mon := rfl
@[simp] theorem addStepEntry_table (st : Station) (e : StepEntry) : (s.addStepEntry st e).table = s.table := rfl
@[simp] theorem addStepEntry_noise (st : Station) (e : StepEntry) : (s.addStepEntry st e).noise = s.noise := rfl
@[simp] theorem addStepEntry_leak (st : Station) (e : StepEntry) : (s.addStepEntry st e).leak = s.leak := rfl
@[simp] theorem addStepEntry_cond (st : Station) (e : StepEntry) : (s.addStepEntry st e).cond = s.cond := rfl
@[simp] theorem addStepEntry_store (st : Station) (e : StepEntry) : (s.addStepEntry st e).store = s.store := rfl
@[simp] theorem addStepEntry_counters (st : Station) (e : StepEntry) : (s.addStepEntry st e).counters = s.counters := rfl
@[simp] theorem addStepEntry_pending (st : Station) (e : StepEntry) : (s.addStepEntry st e).pending = s.pending := rfl

/-! ### `addGroupResult` -/

@[simp] theorem addGroupResult_clock (st : Station) (g : GroupResult) : (s.addGroupResult st g).clock = s.clock := rfl
@[simp] theorem addGroupResult_pins (st : Station) (g : GroupResult) : (s.addGroupResult st g).pins = s.pins := rfl
@[simp] theorem addGroupResult_link (st : Station) (g : GroupResult) : (s.addGroupResult st g).link = s.link := rfl
@[simp] theorem addGroupResult_config (st : Station) (g : GroupResult) : (s.addGroupResult st g).config = s.config := rfl
@[simp] theorem addGroupResult_seq (st : Station) (g : GroupResult) : (s.addGroupResult st g).seq = s.seq.upd st (fun c => { c with record := c.record.map (fun r => { r with groups := r.groups ++ [g] }) }) := rfl
@[simp] theorem addGroupResult_drive (st : Station) (g : GroupResult) : (s.addGroupResult st g).drive = s.drive := rfl
@[simp] theorem addGroupResult_enc (st : Station) (g : GroupResult) : (s.addGroupResult st g).enc = s.enc := rfl
@[simp] theorem addGroupResult_mon (st : Station) (g : GroupResult) : (s.addGroupResult st g).mon = s.mon := rfl
@[simp] theorem addGroupResult_table (st : Station) (g : GroupResult) : (s.addGroupResult st g).table = s.table := rfl
@[simp] theorem addGroupResult_noise (st : Station) (g : GroupResult) : (s.addGroupResult st g).noise = s.noise := rfl
@[simp] theorem addGroupResult_leak (st : Station) (g : GroupResult) : (s.addGroupResult st g).leak = s.leak := rfl
@[simp] theorem addGroupResult_cond (st : Station) (g : GroupResult) : (s.addGroupResult st g).cond = s.cond := rfl
@[simp] theorem addGroupResult_store (st : Station) (g : GroupResult) : (s.addGroupResult st g).store = s.store := rfl
@[simp] theorem addGroupResult_counters (st : Station) (g : GroupResult) : (s.addGroupResult st g).counters = s.counters := rfl
@[simp] theorem addGroupResult_pending (st : Station) (g : GroupResult) : (s.addGroupResult st g).pending = s.pending := rfl

/-! ### `addLeakResult` -/

@[simp] theorem addLeakResult_clock (st : Station) (l : LeakResult) : (s.addLeakResult st l).clock = s.clock := rfl
@[simp] theorem addLeakResult_pins (st : Station) (l : LeakResult) : (s.addLeakResult st l).pins = s.pins := rfl
@[simp] theorem addLeakResult_link (st : Station) (l : LeakResult) : (s.addLeakResult st l).link = s.link := rfl
@[simp] theorem addLeakResult_config (st : Station) (l : LeakResult) : (s.addLeakResult st l).config = s.config := rfl
@[simp] theorem addLeakResult_seq (st : Station) (l : LeakResult) : (s.addLeakResult st l).seq = s.seq.upd st (fun c => { c with record := c.record.map (fun r => { r with leaks := r.leaks ++ [l] }) }) := rfl
@[simp] theorem addLeakResult_drive (st : Station) (l : LeakResult) : (s.addLeakResult st l).drive = s.drive := rfl
@[simp] theorem addLeakResult_enc (st : Station) (l : LeakResult) : (s.addLeakResult st l).enc = s.enc := rfl
@[simp] theorem addLeakResult_mon (st : Station) (l : LeakResult) : (s.addLeakResult st l).mon = s.mon := rfl
@[simp] theorem addLeakResult_table (st : Station) (l : LeakResult) : (s.addLeakResult st l).table = s.table := rfl
@[simp] theorem addLeakResult_noise (st : Station) (l : LeakResult) : (s.addLeakResult st l).noise = s.noise := rfl
@[simp] theorem addLeakResult_leak (st : Station) (l : LeakResult) : (s.addLeakResult st l).leak = s.leak := rfl
@[simp] theorem addLeakResult_cond (st : Station) (l : LeakResult) : (s.addLeakResult st l).cond = s.cond := rfl
@[simp] theorem addLeakResult_store (st : Station) (l : LeakResult) : (s.addLeakResult st l).store = s.store := rfl
@[simp] theorem addLeakResult_counters (st : Station) (l : LeakResult) : (s.addLeakResult st l).counters = s.counters := rfl
@[simp] theorem addLeakResult_pending (st : Station) (l : LeakResult) : (s.addLeakResult st l).pending = s.pending := rfl

/-! ### `addCheckResult` -/

@[simp] theorem addCheckResult_clock (st : Station) (k : CheckResult) : (s.addCheckResult st k).clock = s.clock := rfl
@[simp] theorem addCheckResult_pins (st : Station) (k : CheckResult) : (s.addCheckResult st k).pins = s.pins := rfl
@[simp] theorem addCheckResult_link (st : Station) (k : CheckResult) : (s.addCheckResult st k).link = s.link := rfl
@[simp] theorem addCheckResult_config (st : Station) (k : CheckResult) : (s.addCheckResult st k).config = s.config := rfl
@[simp] theorem addCheckResult_seq (st : Station) (k : CheckResult) : (s.addCheckResult st k).seq = s.seq.upd st (fun c => { c with record := c.record.map (fun r => { r with checks := r.checks ++ [k] }) }) := rfl
@[simp] theorem addCheckResult_drive (st : Station) (k : CheckResult) : (s.addCheckResult st k).drive = s.drive := rfl
@[simp] theorem addCheckResult_enc (st : Station) (k : CheckResult) : (s.addCheckResult st k).enc = s.enc := rfl
@[simp] theorem addCheckResult_mon (st : Station) (k : CheckResult) : (s.addCheckResult st k).mon = s.mon := rfl
@[simp] theorem addCheckResult_table (st : Station) (k : CheckResult) : (s.addCheckResult st k).table = s.table := rfl
@[simp] theorem addCheckResult_noise (st : Station) (k : CheckResult) : (s.addCheckResult st k).noise = s.noise := rfl
@[simp] theorem addCheckResult_leak (st : Station) (k : CheckResult) : (s.addCheckResult st k).leak = s.leak := rfl
@[simp] theorem addCheckResult_cond (st : Station) (k : CheckResult) : (s.addCheckResult st k).cond = s.cond := rfl
@[simp] theorem addCheckResult_store (st : Station) (k : CheckResult) : (s.addCheckResult st k).store = s.store := rfl
@[simp] theorem addCheckResult_counters (st : Station) (k : CheckResult) : (s.addCheckResult st k).counters = s.counters := rfl
@[simp] theorem addCheckResult_pending (st : Station) (k : CheckResult) : (s.addCheckResult st k).pending = s.pending := rfl

/-! ### `enterPhase` -/

@[simp] theorem enterPhase_clock (st : Station) (p : LeakPhase) : (s.enterPhase st p).clock = s.clock := rfl
@[simp] theorem enterPhase_pins (st : Station) (p : LeakPhase) : (s.enterPhase st p).pins = s.pins := rfl
@[simp] theorem enterPhase_link (st : Station) (p : LeakPhase) : (s.enterPhase st p).link = s.link := rfl
@[simp] theorem enterPhase_config (st : Station) (p : LeakPhase) : (s.enterPhase st p).config = s.config := rfl
@[simp] theorem enterPhase_seq (st : Station) (p : LeakPhase) : (s.enterPhase st p).seq = s.seq := rfl
@[simp] theorem enterPhase_drive (st : Station) (p : LeakPhase) : (s.enterPhase st p).drive = s.drive := rfl
@[simp] theorem enterPhase_enc (st : Station) (p : LeakPhase) : (s.enterPhase st p).enc = s.enc := rfl
@[simp] theorem enterPhase_mon (st : Station) (p : LeakPhase) : (s.enterPhase st p).mon = s.mon := rfl
@[simp] theorem enterPhase_table (st : Station) (p : LeakPhase) : (s.enterPhase st p).table = s.table := rfl
@[simp] theorem enterPhase_noise (st : Station) (p : LeakPhase) : (s.enterPhase st p).noise = s.noise := rfl
@[simp] theorem enterPhase_leak (st : Station) (p : LeakPhase) : (s.enterPhase st p).leak = { s.leak with circuits := s.leak.circuits.upd st (fun c => c.enter p s.clock.now) } := rfl
@[simp] theorem enterPhase_cond (st : Station) (p : LeakPhase) : (s.enterPhase st p).cond = s.cond := rfl
@[simp] theorem enterPhase_store (st : Station) (p : LeakPhase) : (s.enterPhase st p).store = s.store := rfl
@[simp] theorem enterPhase_counters (st : Station) (p : LeakPhase) : (s.enterPhase st p).counters = s.counters := rfl
@[simp] theorem enterPhase_pending (st : Station) (p : LeakPhase) : (s.enterPhase st p).pending = s.pending := rfl

/-! ### `leakRest` -/

@[simp] theorem leakRest_clock (st : Station) : (s.leakRest st).clock = s.clock := rfl
@[simp] theorem leakRest_pins (st : Station) : (s.leakRest st).pins = s.pins := rfl
@[simp] theorem leakRest_link (st : Station) : (s.leakRest st).link = s.link := rfl
@[simp] theorem leakRest_config (st : Station) : (s.leakRest st).config = s.config := rfl
@[simp] theorem leakRest_seq (st : Station) : (s.leakRest st).seq = s.seq := rfl
@[simp] theorem leakRest_drive (st : Station) : (s.leakRest st).drive = s.drive := rfl
@[simp] theorem leakRest_enc (st : Station) : (s.leakRest st).enc = s.enc := rfl
@[simp] theorem leakRest_mon (st : Station) : (s.leakRest st).mon = s.mon := rfl
@[simp] theorem leakRest_table (st : Station) : (s.leakRest st).table = s.table := rfl
@[simp] theorem leakRest_noise (st : Station) : (s.leakRest st).noise = s.noise := rfl
@[simp] theorem leakRest_leak (st : Station) : (s.leakRest st).leak = { s.leak with circuits := s.leak.circuits.upd st (fun _ => .rest) } := rfl
@[simp] theorem leakRest_cond (st : Station) : (s.leakRest st).cond = s.cond := rfl
@[simp] theorem leakRest_store (st : Station) : (s.leakRest st).store = s.store := rfl
@[simp] theorem leakRest_counters (st : Station) : (s.leakRest st).counters = s.counters := rfl
@[simp] theorem leakRest_pending (st : Station) : (s.leakRest st).pending = s.pending := rfl

/-! ### `beginLeak` -/

@[simp] theorem beginLeak_clock (st : Station) (i : Nat) : (s.beginLeak st i).clock = s.clock := rfl
@[simp] theorem beginLeak_pins (st : Station) (i : Nat) : (s.beginLeak st i).pins = s.pins := rfl
@[simp] theorem beginLeak_link (st : Station) (i : Nat) : (s.beginLeak st i).link = s.link := rfl
@[simp] theorem beginLeak_config (st : Station) (i : Nat) : (s.beginLeak st i).config = s.config := rfl
@[simp] theorem beginLeak_seq (st : Station) (i : Nat) : (s.beginLeak st i).seq = s.seq := rfl
@[simp] theorem beginLeak_drive (st : Station) (i : Nat) : (s.beginLeak st i).drive = s.drive := rfl
@[simp] theorem beginLeak_enc (st : Station) (i : Nat) : (s.beginLeak st i).enc = s.enc := rfl
@[simp] theorem beginLeak_mon (st : Station) (i : Nat) : (s.beginLeak st i).mon = s.mon := rfl
@[simp] theorem beginLeak_table (st : Station) (i : Nat) : (s.beginLeak st i).table = s.table := rfl
@[simp] theorem beginLeak_noise (st : Station) (i : Nat) : (s.beginLeak st i).noise = s.noise := rfl
@[simp] theorem beginLeak_cond (st : Station) (i : Nat) : (s.beginLeak st i).cond = s.cond := rfl
@[simp] theorem beginLeak_store (st : Station) (i : Nat) : (s.beginLeak st i).store = s.store := rfl
@[simp] theorem beginLeak_counters (st : Station) (i : Nat) : (s.beginLeak st i).counters = s.counters := rfl
@[simp] theorem beginLeak_pending (st : Station) (i : Nat) : (s.beginLeak st i).pending = s.pending := rfl

/-! ### `dropWait` -/

@[simp] theorem dropWait_clock (st : Station) : (s.dropWait st).clock = s.clock := rfl
@[simp] theorem dropWait_pins (st : Station) : (s.dropWait st).pins = s.pins := rfl
@[simp] theorem dropWait_link (st : Station) : (s.dropWait st).link = s.link := rfl
@[simp] theorem dropWait_config (st : Station) : (s.dropWait st).config = s.config := rfl
@[simp] theorem dropWait_seq (st : Station) : (s.dropWait st).seq = s.seq := rfl
@[simp] theorem dropWait_drive (st : Station) : (s.dropWait st).drive = s.drive := rfl
@[simp] theorem dropWait_enc (st : Station) : (s.dropWait st).enc = s.enc := rfl
@[simp] theorem dropWait_mon (st : Station) : (s.dropWait st).mon = s.mon := rfl
@[simp] theorem dropWait_table (st : Station) : (s.dropWait st).table = s.table := rfl
@[simp] theorem dropWait_leak (st : Station) : (s.dropWait st).leak = s.leak := rfl
@[simp] theorem dropWait_cond (st : Station) : (s.dropWait st).cond = s.cond := rfl
@[simp] theorem dropWait_store (st : Station) : (s.dropWait st).store = s.store := rfl
@[simp] theorem dropWait_counters (st : Station) : (s.dropWait st).counters = s.counters := rfl
@[simp] theorem dropWait_pending (st : Station) : (s.dropWait st).pending = s.pending := rfl

/-! ### `modVib` -/

@[simp] theorem modVib_clock (st : Station) (f : VibGather → VibGather) : (s.modVib st f).clock = s.clock := rfl
@[simp] theorem modVib_pins (st : Station) (f : VibGather → VibGather) : (s.modVib st f).pins = s.pins := rfl
@[simp] theorem modVib_link (st : Station) (f : VibGather → VibGather) : (s.modVib st f).link = s.link := rfl
@[simp] theorem modVib_config (st : Station) (f : VibGather → VibGather) : (s.modVib st f).config = s.config := rfl
@[simp] theorem modVib_seq (st : Station) (f : VibGather → VibGather) : (s.modVib st f).seq = s.seq := rfl
@[simp] theorem modVib_drive (st : Station) (f : VibGather → VibGather) : (s.modVib st f).drive = s.drive := rfl
@[simp] theorem modVib_enc (st : Station) (f : VibGather → VibGather) : (s.modVib st f).enc = s.enc := rfl
@[simp] theorem modVib_mon (st : Station) (f : VibGather → VibGather) : (s.modVib st f).mon = { s.mon with vib := s.mon.vib.upd st f } := rfl
@[simp] theorem modVib_table (st : Station) (f : VibGather → VibGather) : (s.modVib st f).table = s.table := rfl
@[simp] theorem modVib_noise (st : Station) (f : VibGather → VibGather) : (s.modVib st f).noise = s.noise := rfl
@[simp] theorem modVib_leak (st : Station) (f : VibGather → VibGather) : (s.modVib st f).leak = s.leak := rfl
@[simp] theorem modVib_cond (st : Station) (f : VibGather → VibGather) : (s.modVib st f).cond = s.cond := rfl
@[simp] theorem modVib_store (st : Station) (f : VibGather → VibGather) : (s.modVib st f).store = s.store := rfl
@[simp] theorem modVib_counters (st : Station) (f : VibGather → VibGather) : (s.modVib st f).counters = s.counters := rfl
@[simp] theorem modVib_pending (st : Station) (f : VibGather → VibGather) : (s.modVib st f).pending = s.pending := rfl

/-! ### `seeAccel` -/

@[simp] theorem seeAccel_clock (st : Station) (r : AccelReading) : (s.seeAccel st r).clock = s.clock := rfl
@[simp] theorem seeAccel_pins (st : Station) (r : AccelReading) : (s.seeAccel st r).pins = s.pins := rfl
@[simp] theorem seeAccel_link (st : Station) (r : AccelReading) : (s.seeAccel st r).link = s.link := rfl
@[simp] theorem seeAccel_config (st : Station) (r : AccelReading) : (s.seeAccel st r).config = s.config := rfl
@[simp] theorem seeAccel_seq (st : Station) (r : AccelReading) : (s.seeAccel st r).seq = s.seq := rfl
@[simp] theorem seeAccel_drive (st : Station) (r : AccelReading) : (s.seeAccel st r).drive = s.drive := rfl
@[simp] theorem seeAccel_enc (st : Station) (r : AccelReading) : (s.seeAccel st r).enc = s.enc := rfl
@[simp] theorem seeAccel_table (st : Station) (r : AccelReading) : (s.seeAccel st r).table = s.table := rfl
@[simp] theorem seeAccel_noise (st : Station) (r : AccelReading) : (s.seeAccel st r).noise = s.noise := rfl
@[simp] theorem seeAccel_leak (st : Station) (r : AccelReading) : (s.seeAccel st r).leak = s.leak := rfl
@[simp] theorem seeAccel_cond (st : Station) (r : AccelReading) : (s.seeAccel st r).cond = s.cond := rfl
@[simp] theorem seeAccel_store (st : Station) (r : AccelReading) : (s.seeAccel st r).store = s.store := rfl
@[simp] theorem seeAccel_counters (st : Station) (r : AccelReading) : (s.seeAccel st r).counters = s.counters := rfl
@[simp] theorem seeAccel_pending (st : Station) (r : AccelReading) : (s.seeAccel st r).pending = s.pending := rfl

/-! ### `modQuantity` -/

@[simp] theorem modQuantity_clock (st : Station) (q : StQuantity) (f : QuantityMon → QuantityMon) : (s.modQuantity st q f).clock = s.clock := rfl
@[simp] theorem modQuantity_pins (st : Station) (q : StQuantity) (f : QuantityMon → QuantityMon) : (s.modQuantity st q f).pins = s.pins := rfl
@[simp] theorem modQuantity_link (st : Station) (q : StQuantity) (f : QuantityMon → QuantityMon) : (s.modQuantity st q f).link = s.link := rfl
@[simp] theorem modQuantity_config (st : Station) (q : StQuantity) (f : QuantityMon → QuantityMon) : (s.modQuantity st q f).config = s.config := rfl
@[simp] theorem modQuantity_seq (st : Station) (q : StQuantity) (f : QuantityMon → QuantityMon) : (s.modQuantity st q f).seq = s.seq := rfl
@[simp] theorem modQuantity_drive (st : Station) (q : StQuantity) (f : QuantityMon → QuantityMon) : (s.modQuantity st q f).drive = s.drive := rfl
@[simp] theorem modQuantity_enc (st : Station) (q : StQuantity) (f : QuantityMon → QuantityMon) : (s.modQuantity st q f).enc = s.enc := rfl
@[simp] theorem modQuantity_mon (st : Station) (q : StQuantity) (f : QuantityMon → QuantityMon) : (s.modQuantity st q f).mon = { s.mon with stations := s.mon.stations.upd st (fun v => v.set q.idx (f v[q.idx])) } := rfl
@[simp] theorem modQuantity_table (st : Station) (q : StQuantity) (f : QuantityMon → QuantityMon) : (s.modQuantity st q f).table = s.table := rfl
@[simp] theorem modQuantity_noise (st : Station) (q : StQuantity) (f : QuantityMon → QuantityMon) : (s.modQuantity st q f).noise = s.noise := rfl
@[simp] theorem modQuantity_leak (st : Station) (q : StQuantity) (f : QuantityMon → QuantityMon) : (s.modQuantity st q f).leak = s.leak := rfl
@[simp] theorem modQuantity_cond (st : Station) (q : StQuantity) (f : QuantityMon → QuantityMon) : (s.modQuantity st q f).cond = s.cond := rfl
@[simp] theorem modQuantity_store (st : Station) (q : StQuantity) (f : QuantityMon → QuantityMon) : (s.modQuantity st q f).store = s.store := rfl
@[simp] theorem modQuantity_counters (st : Station) (q : StQuantity) (f : QuantityMon → QuantityMon) : (s.modQuantity st q f).counters = s.counters := rfl
@[simp] theorem modQuantity_pending (st : Station) (q : StQuantity) (f : QuantityMon → QuantityMon) : (s.modQuantity st q f).pending = s.pending := rfl

/-! ### `setSet` -/

@[simp] theorem setSet_clock (i : Fin 8) (x : RecipeSet) : (s.setSet i x).clock = s.clock := rfl
@[simp] theorem setSet_pins (i : Fin 8) (x : RecipeSet) : (s.setSet i x).pins = s.pins := rfl
@[simp] theorem setSet_link (i : Fin 8) (x : RecipeSet) : (s.setSet i x).link = s.link := rfl
@[simp] theorem setSet_config (i : Fin 8) (x : RecipeSet) : (s.setSet i x).config = s.config := rfl
@[simp] theorem setSet_seq (i : Fin 8) (x : RecipeSet) : (s.setSet i x).seq = s.seq := rfl
@[simp] theorem setSet_drive (i : Fin 8) (x : RecipeSet) : (s.setSet i x).drive = s.drive := rfl
@[simp] theorem setSet_enc (i : Fin 8) (x : RecipeSet) : (s.setSet i x).enc = s.enc := rfl
@[simp] theorem setSet_mon (i : Fin 8) (x : RecipeSet) : (s.setSet i x).mon = s.mon := rfl
@[simp] theorem setSet_table (i : Fin 8) (x : RecipeSet) : (s.setSet i x).table = s.table.set i x := rfl
@[simp] theorem setSet_noise (i : Fin 8) (x : RecipeSet) : (s.setSet i x).noise = s.noise := rfl
@[simp] theorem setSet_leak (i : Fin 8) (x : RecipeSet) : (s.setSet i x).leak = s.leak := rfl
@[simp] theorem setSet_cond (i : Fin 8) (x : RecipeSet) : (s.setSet i x).cond = s.cond := rfl
@[simp] theorem setSet_store (i : Fin 8) (x : RecipeSet) : (s.setSet i x).store = s.store := rfl
@[simp] theorem setSet_counters (i : Fin 8) (x : RecipeSet) : (s.setSet i x).counters = s.counters := rfl
@[simp] theorem setSet_pending (i : Fin 8) (x : RecipeSet) : (s.setSet i x).pending = s.pending := rfl

/-! ### `modEntry` -/

@[simp] theorem modEntry_clock (i : Fin 8) (w : Fin 4) (f : Entry → Entry) : (s.modEntry i w f).clock = s.clock := rfl
@[simp] theorem modEntry_pins (i : Fin 8) (w : Fin 4) (f : Entry → Entry) : (s.modEntry i w f).pins = s.pins := rfl
@[simp] theorem modEntry_link (i : Fin 8) (w : Fin 4) (f : Entry → Entry) : (s.modEntry i w f).link = s.link := rfl
@[simp] theorem modEntry_config (i : Fin 8) (w : Fin 4) (f : Entry → Entry) : (s.modEntry i w f).config = s.config := rfl
@[simp] theorem modEntry_seq (i : Fin 8) (w : Fin 4) (f : Entry → Entry) : (s.modEntry i w f).seq = s.seq := rfl
@[simp] theorem modEntry_drive (i : Fin 8) (w : Fin 4) (f : Entry → Entry) : (s.modEntry i w f).drive = s.drive := rfl
@[simp] theorem modEntry_enc (i : Fin 8) (w : Fin 4) (f : Entry → Entry) : (s.modEntry i w f).enc = s.enc := rfl
@[simp] theorem modEntry_mon (i : Fin 8) (w : Fin 4) (f : Entry → Entry) : (s.modEntry i w f).mon = s.mon := rfl
@[simp] theorem modEntry_table (i : Fin 8) (w : Fin 4) (f : Entry → Entry) : (s.modEntry i w f).table = s.table.set i (s.table[i].set w (s.table[i][w].map f)) := rfl
@[simp] theorem modEntry_noise (i : Fin 8) (w : Fin 4) (f : Entry → Entry) : (s.modEntry i w f).noise = s.noise := rfl
@[simp] theorem modEntry_leak (i : Fin 8) (w : Fin 4) (f : Entry → Entry) : (s.modEntry i w f).leak = s.leak := rfl
@[simp] theorem modEntry_cond (i : Fin 8) (w : Fin 4) (f : Entry → Entry) : (s.modEntry i w f).cond = s.cond := rfl
@[simp] theorem modEntry_store (i : Fin 8) (w : Fin 4) (f : Entry → Entry) : (s.modEntry i w f).store = s.store := rfl
@[simp] theorem modEntry_counters (i : Fin 8) (w : Fin 4) (f : Entry → Entry) : (s.modEntry i w f).counters = s.counters := rfl
@[simp] theorem modEntry_pending (i : Fin 8) (w : Fin 4) (f : Entry → Entry) : (s.modEntry i w f).pending = s.pending := rfl

/-! ### `closeRecord` -/

@[simp] theorem closeRecord_clock (st : Station) : (s.closeRecord st).clock = s.clock := rfl
@[simp] theorem closeRecord_pins (st : Station) : (s.closeRecord st).pins = s.pins := rfl
@[simp] theorem closeRecord_link (st : Station) : (s.closeRecord st).link = s.link := rfl
@[simp] theorem closeRecord_config (st : Station) : (s.closeRecord st).config = s.config := rfl
@[simp] theorem closeRecord_drive (st : Station) : (s.closeRecord st).drive = s.drive := rfl
@[simp] theorem closeRecord_enc (st : Station) : (s.closeRecord st).enc = s.enc := rfl
@[simp] theorem closeRecord_mon (st : Station) : (s.closeRecord st).mon = s.mon := rfl
@[simp] theorem closeRecord_table (st : Station) : (s.closeRecord st).table = s.table := rfl
@[simp] theorem closeRecord_noise (st : Station) : (s.closeRecord st).noise = s.noise := rfl
@[simp] theorem closeRecord_leak (st : Station) : (s.closeRecord st).leak = s.leak := rfl
@[simp] theorem closeRecord_cond (st : Station) : (s.closeRecord st).cond = s.cond := rfl
@[simp] theorem closeRecord_store (st : Station) : (s.closeRecord st).store = s.store := rfl
@[simp] theorem closeRecord_counters (st : Station) : (s.closeRecord st).counters = s.counters := rfl
@[simp] theorem closeRecord_pending (st : Station) : (s.closeRecord st).pending = s.pending := rfl

/-! ### `stopDrive` -/

@[simp] theorem stopDrive_clock (st : Station) : (s.stopDrive st).clock = s.clock := rfl
@[simp] theorem stopDrive_pins (st : Station) : (s.stopDrive st).pins = s.pins := rfl
@[simp] theorem stopDrive_link (st : Station) : (s.stopDrive st).link = s.link := rfl
@[simp] theorem stopDrive_config (st : Station) : (s.stopDrive st).config = s.config := rfl
@[simp] theorem stopDrive_seq (st : Station) : (s.stopDrive st).seq = s.seq := rfl
@[simp] theorem stopDrive_drive (st : Station) : (s.stopDrive st).drive = s.drive.upd st (fun d => { d with target := 0, rate := s.config.stopRate, standstill := 0 }) := rfl
@[simp] theorem stopDrive_enc (st : Station) : (s.stopDrive st).enc = s.enc := rfl
@[simp] theorem stopDrive_mon (st : Station) : (s.stopDrive st).mon = s.mon := rfl
@[simp] theorem stopDrive_table (st : Station) : (s.stopDrive st).table = s.table := rfl
@[simp] theorem stopDrive_noise (st : Station) : (s.stopDrive st).noise = s.noise := rfl
@[simp] theorem stopDrive_leak (st : Station) : (s.stopDrive st).leak = s.leak := rfl
@[simp] theorem stopDrive_cond (st : Station) : (s.stopDrive st).cond = s.cond := rfl
@[simp] theorem stopDrive_store (st : Station) : (s.stopDrive st).store = s.store := rfl
@[simp] theorem stopDrive_counters (st : Station) : (s.stopDrive st).counters = s.counters := rfl
@[simp] theorem stopDrive_pending (st : Station) : (s.stopDrive st).pending = s.pending := rfl

/-! ### `clearLatches` -/

@[simp] theorem clearLatches_clock (st : Station) : (s.clearLatches st).clock = s.clock := rfl
@[simp] theorem clearLatches_pins (st : Station) : (s.clearLatches st).pins = s.pins := rfl
@[simp] theorem clearLatches_link (st : Station) : (s.clearLatches st).link = s.link := rfl
@[simp] theorem clearLatches_config (st : Station) : (s.clearLatches st).config = s.config := rfl
@[simp] theorem clearLatches_seq (st : Station) : (s.clearLatches st).seq = s.seq := rfl
@[simp] theorem clearLatches_drive (st : Station) : (s.clearLatches st).drive = s.drive := rfl
@[simp] theorem clearLatches_enc (st : Station) : (s.clearLatches st).enc = s.enc := rfl
@[simp] theorem clearLatches_table (st : Station) : (s.clearLatches st).table = s.table := rfl
@[simp] theorem clearLatches_noise (st : Station) : (s.clearLatches st).noise = s.noise := rfl
@[simp] theorem clearLatches_leak (st : Station) : (s.clearLatches st).leak = s.leak := rfl
@[simp] theorem clearLatches_cond (st : Station) : (s.clearLatches st).cond = s.cond := rfl
@[simp] theorem clearLatches_store (st : Station) : (s.clearLatches st).store = s.store := rfl
@[simp] theorem clearLatches_counters (st : Station) : (s.clearLatches st).counters = s.counters := rfl
@[simp] theorem clearLatches_pending (st : Station) : (s.clearLatches st).pending = s.pending := rfl

/-! ### `countVerdict` -/

@[simp] theorem countVerdict_clock (st : Station) (v : Verdict) : (s.countVerdict st v).clock = s.clock := rfl
@[simp] theorem countVerdict_pins (st : Station) (v : Verdict) : (s.countVerdict st v).pins = s.pins := rfl
@[simp] theorem countVerdict_link (st : Station) (v : Verdict) : (s.countVerdict st v).link = s.link := rfl
@[simp] theorem countVerdict_config (st : Station) (v : Verdict) : (s.countVerdict st v).config = s.config := rfl
@[simp] theorem countVerdict_seq (st : Station) (v : Verdict) : (s.countVerdict st v).seq = s.seq := rfl
@[simp] theorem countVerdict_drive (st : Station) (v : Verdict) : (s.countVerdict st v).drive = s.drive := rfl
@[simp] theorem countVerdict_enc (st : Station) (v : Verdict) : (s.countVerdict st v).enc = s.enc := rfl
@[simp] theorem countVerdict_mon (st : Station) (v : Verdict) : (s.countVerdict st v).mon = s.mon := rfl
@[simp] theorem countVerdict_table (st : Station) (v : Verdict) : (s.countVerdict st v).table = s.table := rfl
@[simp] theorem countVerdict_noise (st : Station) (v : Verdict) : (s.countVerdict st v).noise = s.noise := rfl
@[simp] theorem countVerdict_leak (st : Station) (v : Verdict) : (s.countVerdict st v).leak = s.leak := rfl
@[simp] theorem countVerdict_cond (st : Station) (v : Verdict) : (s.countVerdict st v).cond = s.cond := rfl
@[simp] theorem countVerdict_store (st : Station) (v : Verdict) : (s.countVerdict st v).store = s.store := rfl
@[simp] theorem countVerdict_pending (st : Station) (v : Verdict) : (s.countVerdict st v).pending = s.pending := rfl

/-! ### `enterGroup` -/

@[simp] theorem enterGroup_clock (st : Station) (r : GroupResult) : (s.enterGroup st r).clock = s.clock := rfl
@[simp] theorem enterGroup_pins (st : Station) (r : GroupResult) : (s.enterGroup st r).pins = s.pins := rfl
@[simp] theorem enterGroup_link (st : Station) (r : GroupResult) : (s.enterGroup st r).link = s.link := rfl
@[simp] theorem enterGroup_config (st : Station) (r : GroupResult) : (s.enterGroup st r).config = s.config := rfl
@[simp] theorem enterGroup_drive (st : Station) (r : GroupResult) : (s.enterGroup st r).drive = s.drive := rfl
@[simp] theorem enterGroup_enc (st : Station) (r : GroupResult) : (s.enterGroup st r).enc = s.enc := rfl
@[simp] theorem enterGroup_mon (st : Station) (r : GroupResult) : (s.enterGroup st r).mon = s.mon := rfl
@[simp] theorem enterGroup_table (st : Station) (r : GroupResult) : (s.enterGroup st r).table = s.table := rfl
@[simp] theorem enterGroup_leak (st : Station) (r : GroupResult) : (s.enterGroup st r).leak = s.leak := rfl
@[simp] theorem enterGroup_cond (st : Station) (r : GroupResult) : (s.enterGroup st r).cond = s.cond := rfl
@[simp] theorem enterGroup_store (st : Station) (r : GroupResult) : (s.enterGroup st r).store = s.store := rfl
@[simp] theorem enterGroup_counters (st : Station) (r : GroupResult) : (s.enterGroup st r).counters = s.counters := rfl
@[simp] theorem enterGroup_pending (st : Station) (r : GroupResult) : (s.enterGroup st r).pending = s.pending := rfl

/-! ### `settleGroups` -/

@[simp] theorem settleGroups_clock (st : Station) : (s.settleGroups st).clock = s.clock := rfl
@[simp] theorem settleGroups_pins (st : Station) : (s.settleGroups st).pins = s.pins := rfl
@[simp] theorem settleGroups_link (st : Station) : (s.settleGroups st).link = s.link := rfl
@[simp] theorem settleGroups_config (st : Station) : (s.settleGroups st).config = s.config := rfl
@[simp] theorem settleGroups_drive (st : Station) : (s.settleGroups st).drive = s.drive := rfl
@[simp] theorem settleGroups_enc (st : Station) : (s.settleGroups st).enc = s.enc := rfl
@[simp] theorem settleGroups_mon (st : Station) : (s.settleGroups st).mon = s.mon := rfl
@[simp] theorem settleGroups_table (st : Station) : (s.settleGroups st).table = s.table := rfl
@[simp] theorem settleGroups_leak (st : Station) : (s.settleGroups st).leak = s.leak := rfl
@[simp] theorem settleGroups_cond (st : Station) : (s.settleGroups st).cond = s.cond := rfl
@[simp] theorem settleGroups_store (st : Station) : (s.settleGroups st).store = s.store := rfl
@[simp] theorem settleGroups_counters (st : Station) : (s.settleGroups st).counters = s.counters := rfl
@[simp] theorem settleGroups_pending (st : Station) : (s.settleGroups st).pending = s.pending := rfl

/-! ### `takeIndex` -/

@[simp] theorem takeIndex_pins (st : Station) (us : Fin 1000) (r : AccelReading) : (s.takeIndex st us r).pins = s.pins := rfl
@[simp] theorem takeIndex_link (st : Station) (us : Fin 1000) (r : AccelReading) : (s.takeIndex st us r).link = s.link := rfl
@[simp] theorem takeIndex_config (st : Station) (us : Fin 1000) (r : AccelReading) : (s.takeIndex st us r).config = s.config := rfl
@[simp] theorem takeIndex_seq (st : Station) (us : Fin 1000) (r : AccelReading) : (s.takeIndex st us r).seq = s.seq := rfl
@[simp] theorem takeIndex_drive (st : Station) (us : Fin 1000) (r : AccelReading) : (s.takeIndex st us r).drive = s.drive := rfl
@[simp] theorem takeIndex_table (st : Station) (us : Fin 1000) (r : AccelReading) : (s.takeIndex st us r).table = s.table := rfl
@[simp] theorem takeIndex_noise (st : Station) (us : Fin 1000) (r : AccelReading) : (s.takeIndex st us r).noise = s.noise := rfl
@[simp] theorem takeIndex_leak (st : Station) (us : Fin 1000) (r : AccelReading) : (s.takeIndex st us r).leak = s.leak := rfl
@[simp] theorem takeIndex_cond (st : Station) (us : Fin 1000) (r : AccelReading) : (s.takeIndex st us r).cond = s.cond := rfl
@[simp] theorem takeIndex_store (st : Station) (us : Fin 1000) (r : AccelReading) : (s.takeIndex st us r).store = s.store := rfl
@[simp] theorem takeIndex_counters (st : Station) (us : Fin 1000) (r : AccelReading) : (s.takeIndex st us r).counters = s.counters := rfl
@[simp] theorem takeIndex_pending (st : Station) (us : Fin 1000) (r : AccelReading) : (s.takeIndex st us r).pending = s.pending := rfl

/-! ### `discardBadFrame` -/

@[simp] theorem discardBadFrame_clock : (s.discardBadFrame).clock = s.clock := rfl
@[simp] theorem discardBadFrame_pins : (s.discardBadFrame).pins = s.pins := rfl
@[simp] theorem discardBadFrame_link : (s.discardBadFrame).link = s.link.hunt := rfl
@[simp] theorem discardBadFrame_config : (s.discardBadFrame).config = s.config := rfl
@[simp] theorem discardBadFrame_seq : (s.discardBadFrame).seq = s.seq := rfl
@[simp] theorem discardBadFrame_drive : (s.discardBadFrame).drive = s.drive := rfl
@[simp] theorem discardBadFrame_enc : (s.discardBadFrame).enc = s.enc := rfl
@[simp] theorem discardBadFrame_mon : (s.discardBadFrame).mon = s.mon := rfl
@[simp] theorem discardBadFrame_table : (s.discardBadFrame).table = s.table := rfl
@[simp] theorem discardBadFrame_noise : (s.discardBadFrame).noise = s.noise := rfl
@[simp] theorem discardBadFrame_leak : (s.discardBadFrame).leak = s.leak := rfl
@[simp] theorem discardBadFrame_cond : (s.discardBadFrame).cond = s.cond := rfl
@[simp] theorem discardBadFrame_store : (s.discardBadFrame).store = s.store := rfl
@[simp] theorem discardBadFrame_pending : (s.discardBadFrame).pending = s.pending := rfl

/-! ### `deliver` -/

@[simp] theorem deliver_clock (st : Station) (r : GroupResult) : (s.deliver st r).clock = s.clock := rfl
@[simp] theorem deliver_pins (st : Station) (r : GroupResult) : (s.deliver st r).pins = s.pins := rfl
@[simp] theorem deliver_link (st : Station) (r : GroupResult) : (s.deliver st r).link = s.link := rfl
@[simp] theorem deliver_config (st : Station) (r : GroupResult) : (s.deliver st r).config = s.config := rfl
@[simp] theorem deliver_drive (st : Station) (r : GroupResult) : (s.deliver st r).drive = s.drive := rfl
@[simp] theorem deliver_enc (st : Station) (r : GroupResult) : (s.deliver st r).enc = s.enc := rfl
@[simp] theorem deliver_mon (st : Station) (r : GroupResult) : (s.deliver st r).mon = s.mon := rfl
@[simp] theorem deliver_table (st : Station) (r : GroupResult) : (s.deliver st r).table = s.table := rfl
@[simp] theorem deliver_leak (st : Station) (r : GroupResult) : (s.deliver st r).leak = s.leak := rfl
@[simp] theorem deliver_cond (st : Station) (r : GroupResult) : (s.deliver st r).cond = s.cond := rfl
@[simp] theorem deliver_store (st : Station) (r : GroupResult) : (s.deliver st r).store = s.store := rfl
@[simp] theorem deliver_counters (st : Station) (r : GroupResult) : (s.deliver st r).counters = s.counters := rfl
@[simp] theorem deliver_pending (st : Station) (r : GroupResult) : (s.deliver st r).pending = s.pending := rfl

/-! ### `tick` -/

@[simp] theorem tick_clock : (s.tick).clock = ⟨s.clock.now + 1, 0⟩ := rfl
@[simp] theorem tick_pins : (s.tick).pins = s.pins := rfl
@[simp] theorem tick_link : (s.tick).link = s.link := rfl
@[simp] theorem tick_config : (s.tick).config = s.config := rfl
@[simp] theorem tick_seq : (s.tick).seq = s.seq := rfl
@[simp] theorem tick_drive : (s.tick).drive = s.drive := rfl
@[simp] theorem tick_enc : (s.tick).enc = s.enc := rfl
@[simp] theorem tick_mon : (s.tick).mon = s.mon := rfl
@[simp] theorem tick_table : (s.tick).table = s.table := rfl
@[simp] theorem tick_noise : (s.tick).noise = s.noise := rfl
@[simp] theorem tick_leak : (s.tick).leak = s.leak := rfl
@[simp] theorem tick_cond : (s.tick).cond = s.cond := rfl
@[simp] theorem tick_store : (s.tick).store = s.store := rfl
@[simp] theorem tick_counters : (s.tick).counters = s.counters := rfl
@[simp] theorem tick_pending : (s.tick).pending = s.pending := rfl

/-! ### `snapshot` -/

@[simp] theorem snapshot_clock (c : SnapshotCause) : (s.snapshot c).clock = s.clock := rfl
@[simp] theorem snapshot_pins (c : SnapshotCause) : (s.snapshot c).pins = s.pins := rfl
@[simp] theorem snapshot_link (c : SnapshotCause) : (s.snapshot c).link = s.link := rfl
@[simp] theorem snapshot_config (c : SnapshotCause) : (s.snapshot c).config = s.config := rfl
@[simp] theorem snapshot_seq (c : SnapshotCause) : (s.snapshot c).seq = s.seq := rfl
@[simp] theorem snapshot_drive (c : SnapshotCause) : (s.snapshot c).drive = s.drive := rfl
@[simp] theorem snapshot_enc (c : SnapshotCause) : (s.snapshot c).enc = s.enc := rfl
@[simp] theorem snapshot_mon (c : SnapshotCause) : (s.snapshot c).mon = s.mon := rfl
@[simp] theorem snapshot_table (c : SnapshotCause) : (s.snapshot c).table = s.table := rfl
@[simp] theorem snapshot_noise (c : SnapshotCause) : (s.snapshot c).noise = s.noise := rfl
@[simp] theorem snapshot_leak (c : SnapshotCause) : (s.snapshot c).leak = s.leak := rfl
@[simp] theorem snapshot_cond (c : SnapshotCause) : (s.snapshot c).cond = s.cond := rfl
@[simp] theorem snapshot_store (c : SnapshotCause) : (s.snapshot c).store = s.store := rfl
@[simp] theorem snapshot_pending (c : SnapshotCause) : (s.snapshot c).pending = s.pending := rfl

/-! ### `configure` -/

@[simp] theorem configure_clock (c : LineConfig) : (s.configure c).clock = s.clock := rfl
@[simp] theorem configure_pins (c : LineConfig) : (s.configure c).pins = s.pins := rfl
@[simp] theorem configure_link (c : LineConfig) : (s.configure c).link = s.link := rfl
@[simp] theorem configure_config (c : LineConfig) : (s.configure c).config = c := rfl
@[simp] theorem configure_seq (c : LineConfig) : (s.configure c).seq = s.seq := rfl
@[simp] theorem configure_drive (c : LineConfig) : (s.configure c).drive = s.drive := rfl
@[simp] theorem configure_enc (c : LineConfig) : (s.configure c).enc = s.enc := rfl
@[simp] theorem configure_mon (c : LineConfig) : (s.configure c).mon = s.mon := rfl
@[simp] theorem configure_table (c : LineConfig) : (s.configure c).table = s.table := rfl
@[simp] theorem configure_noise (c : LineConfig) : (s.configure c).noise = s.noise := rfl
@[simp] theorem configure_leak (c : LineConfig) : (s.configure c).leak = s.leak := rfl
@[simp] theorem configure_cond (c : LineConfig) : (s.configure c).cond = s.cond := rfl
@[simp] theorem configure_store (c : LineConfig) : (s.configure c).store = s.store := rfl
@[simp] theorem configure_pending (c : LineConfig) : (s.configure c).pending = s.pending := rfl

/-! ### `withPending` -/

@[simp] theorem withPending_clock (q : List Instr) : (s.withPending q).clock = s.clock := rfl
@[simp] theorem withPending_pins (q : List Instr) : (s.withPending q).pins = s.pins := rfl
@[simp] theorem withPending_link (q : List Instr) : (s.withPending q).link = s.link := rfl
@[simp] theorem withPending_config (q : List Instr) : (s.withPending q).config = s.config := rfl
@[simp] theorem withPending_seq (q : List Instr) : (s.withPending q).seq = s.seq := rfl
@[simp] theorem withPending_drive (q : List Instr) : (s.withPending q).drive = s.drive := rfl
@[simp] theorem withPending_enc (q : List Instr) : (s.withPending q).enc = s.enc := rfl
@[simp] theorem withPending_mon (q : List Instr) : (s.withPending q).mon = s.mon := rfl
@[simp] theorem withPending_table (q : List Instr) : (s.withPending q).table = s.table := rfl
@[simp] theorem withPending_noise (q : List Instr) : (s.withPending q).noise = s.noise := rfl
@[simp] theorem withPending_leak (q : List Instr) : (s.withPending q).leak = s.leak := rfl
@[simp] theorem withPending_cond (q : List Instr) : (s.withPending q).cond = s.cond := rfl
@[simp] theorem withPending_store (q : List Instr) : (s.withPending q).store = s.store := rfl
@[simp] theorem withPending_counters (q : List Instr) : (s.withPending q).counters = s.counters := rfl
@[simp] theorem withPending_pending (q : List Instr) : (s.withPending q).pending = q := rfl

/-! ### `modEngine` -/

@[simp] theorem modEngine_clock (e : EngineId) (f : Engine → Engine) : (s.modEngine e f).clock = s.clock := by cases e <;> rfl
@[simp] theorem modEngine_pins (e : EngineId) (f : Engine → Engine) : (s.modEngine e f).pins = s.pins := by cases e <;> rfl
@[simp] theorem modEngine_link (e : EngineId) (f : Engine → Engine) : (s.modEngine e f).link = s.link := by cases e <;> rfl
@[simp] theorem modEngine_config (e : EngineId) (f : Engine → Engine) : (s.modEngine e f).config = s.config := by cases e <;> rfl
@[simp] theorem modEngine_seq (e : EngineId) (f : Engine → Engine) : (s.modEngine e f).seq = s.seq := by cases e <;> rfl
@[simp] theorem modEngine_drive (e : EngineId) (f : Engine → Engine) : (s.modEngine e f).drive = s.drive := by cases e <;> rfl
@[simp] theorem modEngine_enc (e : EngineId) (f : Engine → Engine) : (s.modEngine e f).enc = s.enc := by cases e <;> rfl
@[simp] theorem modEngine_mon (e : EngineId) (f : Engine → Engine) : (s.modEngine e f).mon = s.mon := by cases e <;> rfl
@[simp] theorem modEngine_table (e : EngineId) (f : Engine → Engine) : (s.modEngine e f).table = s.table := by cases e <;> rfl
@[simp] theorem modEngine_leak (e : EngineId) (f : Engine → Engine) : (s.modEngine e f).leak = s.leak := by cases e <;> rfl
@[simp] theorem modEngine_cond (e : EngineId) (f : Engine → Engine) : (s.modEngine e f).cond = s.cond := by cases e <;> rfl
@[simp] theorem modEngine_store (e : EngineId) (f : Engine → Engine) : (s.modEngine e f).store = s.store := by cases e <;> rfl
@[simp] theorem modEngine_counters (e : EngineId) (f : Engine → Engine) : (s.modEngine e f).counters = s.counters := by cases e <;> rfl
@[simp] theorem modEngine_pending (e : EngineId) (f : Engine → Engine) : (s.modEngine e f).pending = s.pending := by cases e <;> rfl

@[simp] theorem modEngine_groups (e : EngineId) (f : Engine → Engine) :
    (s.modEngine e f).noise.groups = s.noise.groups := by cases e <;> rfl
@[simp] theorem modEngine_queue (e : EngineId) (f : Engine → Engine) :
    (s.modEngine e f).noise.queue = s.noise.queue := by cases e <;> rfl
@[simp] theorem modEngine_deferred (e : EngineId) (f : Engine → Engine) :
    (s.modEngine e f).noise.deferred = s.noise.deferred := by cases e <;> rfl
@[simp] theorem modEngine_engine (e : EngineId) (f : Engine → Engine) :
    (s.modEngine e f).engine e = f (s.engine e) := by cases e <;> rfl

end State

/-! ### One station's value among the six -/

/-- Reading a per-station value after a change of one station's. -/
@[simp] theorem PerStation.getElem_upd {α : Type} (v : PerStation α) (st j : Station) (f : α → α) :
    (v.upd st f)[j.val] = if st = j then f v[st.val] else v[j.val] := by
  simp only [PerStation.upd, Fin.getElem_fin, Vector.getElem_set, Fin.val_inj]

/-- Two per-station values that agree at every station are equal. -/
theorem PerStation.ext_get {α : Type} {v w : PerStation α} (h : ∀ st : Station, v[st.val] = w[st.val]) : v = w := by
  ext i hi
  exact h ⟨i, hi⟩

/-- Two changes of one station's value are one. -/
theorem PerStation.upd_upd {α : Type} (v : PerStation α) (st : Station) (f g : α → α) :
    (v.upd st f).upd st g = v.upd st (fun x => g (f x)) := by
  apply PerStation.ext_get; intro j; simp only [PerStation.getElem_upd]; split <;> simp_all

/-- A change that changes nothing. -/
theorem PerStation.upd_id {α : Type} (v : PerStation α) (st : Station) : v.upd st (fun x => x) = v := by
  apply PerStation.ext_get; intro j; simp only [PerStation.getElem_upd]; split <;> simp_all

end Sys2Proof.Machine
end

