-- ==== Sys2Proof/Laws/Ops.lean ====
section
/-! SUPPORT. The frames of the shared operations: for each, the blocks it leaves as they are. -/

namespace Sys2Proof.Machine

open Sys2Proof

set_option Elab.async false

namespace State

variable (s : State)


/-! ### `giveNotice` -/

@[simp] theorem giveNotice_clock (b : NoticeBody) : (s.giveNotice b).clock = s.clock := by
  (unfold giveNotice; split) <;> simp
@[simp] theorem giveNotice_pins (b : NoticeBody) : (s.giveNotice b).pins = s.pins := by
  (unfold giveNotice; split) <;> simp
@[simp] theorem giveNotice_config (b : NoticeBody) : (s.giveNotice b).config = s.config := by
  (unfold giveNotice; split) <;> simp
@[simp] theorem giveNotice_seq (b : NoticeBody) : (s.giveNotice b).seq = s.seq := by
  (unfold giveNotice; split) <;> simp
@[simp] theorem giveNotice_drive (b : NoticeBody) : (s.giveNotice b).drive = s.drive := by
  (unfold giveNotice; split) <;> simp
@[simp] theorem giveNotice_enc (b : NoticeBody) : (s.giveNotice b).enc = s.enc := by
  (unfold giveNotice; split) <;> simp
@[simp] theorem giveNotice_mon (b : NoticeBody) : (s.giveNotice b).mon = s.mon := by
  (unfold giveNotice; split) <;> simp
@[simp] theorem giveNotice_table (b : NoticeBody) : (s.giveNotice b).table = s.table := by
  (unfold giveNotice; split) <;> simp
@[simp] theorem giveNotice_noise (b : NoticeBody) : (s.giveNotice b).noise = s.noise := by
  (unfold giveNotice; split) <;> simp
@[simp] theorem giveNotice_leak (b : NoticeBody) : (s.giveNotice b).leak = s.leak := by
  (unfold giveNotice; split) <;> simp
@[simp] theorem giveNotice_cond (b : NoticeBody) : (s.giveNotice b).cond = s.cond := by
  (unfold giveNotice; split) <;> simp
@[simp] theorem giveNotice_store (b : NoticeBody) : (s.giveNotice b).store = s.store := by
  (unfold giveNotice; split) <;> simp
@[simp] theorem giveNotice_pending (b : NoticeBody) : (s.giveNotice b).pending = s.pending := by
  (unfold giveNotice; split) <;> simp

/-! ### `retire` -/

@[simp] theorem retire_clock (e : Entry) : (s.retire e).clock = s.clock := by
  (unfold retire; split) <;> simp
@[simp] theorem retire_pins (e : Entry) : (s.retire e).pins = s.pins := by
  (unfold retire; split) <;> simp
@[simp] theorem retire_config (e : Entry) : (s.retire e).config = s.config := by
  (unfold retire; split) <;> simp
@[simp] theorem retire_seq (e : Entry) : (s.retire e).seq = s.seq := by
  (unfold retire; split) <;> simp
@[simp] theorem retire_drive (e : Entry) : (s.retire e).drive = s.drive := by
  (unfold retire; split) <;> simp
@[simp] theorem retire_enc (e : Entry) : (s.retire e).enc = s.enc := by
  (unfold retire; split) <;> simp
@[simp] theorem retire_mon (e : Entry) : (s.retire e).mon = s.mon := by
  (unfold retire; split) <;> simp
@[simp] theorem retire_table (e : Entry) : (s.retire e).table = s.table := by
  (unfold retire; split) <;> simp
@[simp] theorem retire_noise (e : Entry) : (s.retire e).noise = s.noise := by
  (unfold retire; split) <;> simp
@[simp] theorem retire_leak (e : Entry) : (s.retire e).leak = s.leak := by
  (unfold retire; split) <;> simp
@[simp] theorem retire_cond (e : Entry) : (s.retire e).cond = s.cond := by
  (unfold retire; split) <;> simp
@[simp] theorem retire_store (e : Entry) : (s.retire e).store = s.store := by
  (unfold retire; split) <;> simp
@[simp] theorem retire_pending (e : Entry) : (s.retire e).pending = s.pending := by
  (unfold retire; split) <;> simp

/-! ### `takeRecipe` -/

@[simp] theorem takeRecipe_clock (st : Station) (r : Recipe) (ref : RecipeRef) : (s.takeRecipe st r ref).clock = s.clock := by
  (unfold takeRecipe; repeat' split) <;> simp
@[simp] theorem takeRecipe_pins (st : Station) (r : Recipe) (ref : RecipeRef) : (s.takeRecipe st r ref).pins = s.pins := by
  (unfold takeRecipe; repeat' split) <;> simp
@[simp] theorem takeRecipe_link (st : Station) (r : Recipe) (ref : RecipeRef) : (s.takeRecipe st r ref).link = s.link := by
  (unfold takeRecipe; repeat' split) <;> simp
@[simp] theorem takeRecipe_config (st : Station) (r : Recipe) (ref : RecipeRef) : (s.takeRecipe st r ref).config = s.config := by
  (unfold takeRecipe; repeat' split) <;> simp
@[simp] theorem takeRecipe_drive (st : Station) (r : Recipe) (ref : RecipeRef) : (s.takeRecipe st r ref).drive = s.drive := by
  (unfold takeRecipe; repeat' split) <;> simp
@[simp] theorem takeRecipe_enc (st : Station) (r : Recipe) (ref : RecipeRef) : (s.takeRecipe st r ref).enc = s.enc := by
  (unfold takeRecipe; repeat' split) <;> simp
@[simp] theorem takeRecipe_mon (st : Station) (r : Recipe) (ref : RecipeRef) : (s.takeRecipe st r ref).mon = s.mon := by
  (unfold takeRecipe; repeat' split) <;> simp
@[simp] theorem takeRecipe_noise (st : Station) (r : Recipe) (ref : RecipeRef) : (s.takeRecipe st r ref).noise = s.noise := by
  (unfold takeRecipe; repeat' split) <;> simp
@[simp] theorem takeRecipe_leak (st : Station) (r : Recipe) (ref : RecipeRef) : (s.takeRecipe st r ref).leak = s.leak := by
  (unfold takeRecipe; repeat' split) <;> simp
@[simp] theorem takeRecipe_cond (st : Station) (r : Recipe) (ref : RecipeRef) : (s.takeRecipe st r ref).cond = s.cond := by
  (unfold takeRecipe; repeat' split) <;> simp
@[simp] theorem takeRecipe_store (st : Station) (r : Recipe) (ref : RecipeRef) : (s.takeRecipe st r ref).store = s.store := by
  (unfold takeRecipe; repeat' split) <;> simp
@[simp] theorem takeRecipe_counters (st : Station) (r : Recipe) (ref : RecipeRef) : (s.takeRecipe st r ref).counters = s.counters := by
  (unfold takeRecipe; repeat' split) <;> simp
@[simp] theorem takeRecipe_pending (st : Station) (r : Recipe) (ref : RecipeRef) : (s.takeRecipe st r ref).pending = s.pending := by
  (unfold takeRecipe; repeat' split) <;> simp

/-! ### `settleRecipe` -/

@[simp] theorem settleRecipe_clock (st : Station) (ref : RecipeRef) (v : Verdict) : (s.settleRecipe st ref v).clock = s.clock := by
  (unfold settleRecipe; split) <;> simp
@[simp] theorem settleRecipe_pins (st : Station) (ref : RecipeRef) (v : Verdict) : (s.settleRecipe st ref v).pins = s.pins := by
  (unfold settleRecipe; split) <;> simp
@[simp] theorem settleRecipe_link (st : Station) (ref : RecipeRef) (v : Verdict) : (s.settleRecipe st ref v).link = s.link := by
  (unfold settleRecipe; split) <;> simp
@[simp] theorem settleRecipe_config (st : Station) (ref : RecipeRef) (v : Verdict) : (s.settleRecipe st ref v).config = s.config := by
  (unfold settleRecipe; split) <;> simp
@[simp] theorem settleRecipe_drive (st : Station) (ref : RecipeRef) (v : Verdict) : (s.settleRecipe st ref v).drive = s.drive := by
  (unfold settleRecipe; split) <;> simp
@[simp] theorem settleRecipe_enc (st : Station) (ref : RecipeRef) (v : Verdict) : (s.settleRecipe st ref v).enc = s.enc := by
  (unfold settleRecipe; split) <;> simp
@[simp] theorem settleRecipe_mon (st : Station) (ref : RecipeRef) (v : Verdict) : (s.settleRecipe st ref v).mon = s.mon := by
  (unfold settleRecipe; split) <;> simp
@[simp] theorem settleRecipe_noise (st : Station) (ref : RecipeRef) (v : Verdict) : (s.settleRecipe st ref v).noise = s.noise := by
  (unfold settleRecipe; split) <;> simp
@[simp] theorem settleRecipe_leak (st : Station) (ref : RecipeRef) (v : Verdict) : (s.settleRecipe st ref v).leak = s.leak := by
  (unfold settleRecipe; split) <;> simp
@[simp] theorem settleRecipe_cond (st : Station) (ref : RecipeRef) (v : Verdict) : (s.settleRecipe st ref v).cond = s.cond := by
  (unfold settleRecipe; split) <;> simp
@[simp] theorem settleRecipe_store (st : Station) (ref : RecipeRef) (v : Verdict) : (s.settleRecipe st ref v).store = s.store := by
  (unfold settleRecipe; split) <;> simp
@[simp] theorem settleRecipe_counters (st : Station) (ref : RecipeRef) (v : Verdict) : (s.settleRecipe st ref v).counters = s.counters := by
  (unfold settleRecipe; split) <;> simp
@[simp] theorem settleRecipe_pending (st : Station) (ref : RecipeRef) (v : Verdict) : (s.settleRecipe st ref v).pending = s.pending := by
  (unfold settleRecipe; split) <;> simp

/-! ### `depositStation` -/

@[simp] theorem depositStation_clock (st : Station) : (s.depositStation st).clock = s.clock := by
  (unfold depositStation; split) <;> simp
@[simp] theorem depositStation_pins (st : Station) : (s.depositStation st).pins = s.pins := by
  (unfold depositStation; split) <;> simp
@[simp] theorem depositStation_config (st : Station) : (s.depositStation st).config = s.config := by
  (unfold depositStation; split) <;> simp
@[simp] theorem depositStation_drive (st : Station) : (s.depositStation st).drive = s.drive := by
  (unfold depositStation; split) <;> simp
@[simp] theorem depositStation_enc (st : Station) : (s.depositStation st).enc = s.enc := by
  (unfold depositStation; split) <;> simp
@[simp] theorem depositStation_mon (st : Station) : (s.depositStation st).mon = s.mon := by
  (unfold depositStation; split) <;> simp
@[simp] theorem depositStation_noise (st : Station) : (s.depositStation st).noise = s.noise := by
  (unfold depositStation; split) <;> simp
@[simp] theorem depositStation_leak (st : Station) : (s.depositStation st).leak = s.leak := by
  (unfold depositStation; split) <;> simp
@[simp] theorem depositStation_cond (st : Station) : (s.depositStation st).cond = s.cond := by
  (unfold depositStation; split) <;> simp
@[simp] theorem depositStation_pending (st : Station) : (s.depositStation st).pending = s.pending := by
  (unfold depositStation; split) <;> simp

/-! ### `depositHead` -/

@[simp] theorem depositHead_clock : (s.depositHead).clock = s.clock := by
  (unfold depositHead; split) <;> simp
@[simp] theorem depositHead_pins : (s.depositHead).pins = s.pins := by
  (unfold depositHead; split) <;> simp
@[simp] theorem depositHead_config : (s.depositHead).config = s.config := by
  (unfold depositHead; split) <;> simp
@[simp] theorem depositHead_drive : (s.depositHead).drive = s.drive := by
  (unfold depositHead; split) <;> simp
@[simp] theorem depositHead_enc : (s.depositHead).enc = s.enc := by
  (unfold depositHead; split) <;> simp
@[simp] theorem depositHead_mon : (s.depositHead).mon = s.mon := by
  (unfold depositHead; split) <;> simp
@[simp] theorem depositHead_noise : (s.depositHead).noise = s.noise := by
  (unfold depositHead; split) <;> simp
@[simp] theorem depositHead_leak : (s.depositHead).leak = s.leak := by
  (unfold depositHead; split) <;> simp
@[simp] theorem depositHead_cond : (s.depositHead).cond = s.cond := by
  (unfold depositHead; split) <;> simp
@[simp] theorem depositHead_pending : (s.depositHead).pending = s.pending := by
  (unfold depositHead; split) <;> simp

/-! ### `offerRecord` -/

@[simp] theorem offerRecord_clock (st : Station) : (s.offerRecord st).clock = s.clock := by
  (unfold offerRecord; split) <;> simp
@[simp] theorem offerRecord_pins (st : Station) : (s.offerRecord st).pins = s.pins := by
  (unfold offerRecord; split) <;> simp
@[simp] theorem offerRecord_config (st : Station) : (s.offerRecord st).config = s.config := by
  (unfold offerRecord; split) <;> simp
@[simp] theorem offerRecord_drive (st : Station) : (s.offerRecord st).drive = s.drive := by
  (unfold offerRecord; split) <;> simp
@[simp] theorem offerRecord_enc (st : Station) : (s.offerRecord st).enc = s.enc := by
  (unfold offerRecord; split) <;> simp
@[simp] theorem offerRecord_mon (st : Station) : (s.offerRecord st).mon = s.mon := by
  (unfold offerRecord; split) <;> simp
@[simp] theorem offerRecord_noise (st : Station) : (s.offerRecord st).noise = s.noise := by
  (unfold offerRecord; split) <;> simp
@[simp] theorem offerRecord_leak (st : Station) : (s.offerRecord st).leak = s.leak := by
  (unfold offerRecord; split) <;> simp
@[simp] theorem offerRecord_cond (st : Station) : (s.offerRecord st).cond = s.cond := by
  (unfold offerRecord; split) <;> simp
@[simp] theorem offerRecord_pending (st : Station) : (s.offerRecord st).pending = s.pending := by
  (unfold offerRecord; split) <;> simp

/-! ### `examineSupply` -/

@[simp] theorem examineSupply_clock : (s.examineSupply).clock = s.clock := by
  (unfold examineSupply; split) <;> simp
@[simp] theorem examineSupply_pins : (s.examineSupply).pins = s.pins := by
  (unfold examineSupply; split) <;> simp
@[simp] theorem examineSupply_link : (s.examineSupply).link = s.link := by
  (unfold examineSupply; split) <;> simp
@[simp] theorem examineSupply_config : (s.examineSupply).config = s.config := by
  (unfold examineSupply; split) <;> simp
@[simp] theorem examineSupply_seq : (s.examineSupply).seq = s.seq := by
  (unfold examineSupply; split) <;> simp
@[simp] theorem examineSupply_drive : (s.examineSupply).drive = s.drive := by
  (unfold examineSupply; split) <;> simp
@[simp] theorem examineSupply_enc : (s.examineSupply).enc = s.enc := by
  (unfold examineSupply; split) <;> simp
@[simp] theorem examineSupply_mon : (s.examineSupply).mon = s.mon := by
  (unfold examineSupply; split) <;> simp
@[simp] theorem examineSupply_table : (s.examineSupply).table = s.table := by
  (unfold examineSupply; split) <;> simp
@[simp] theorem examineSupply_noise : (s.examineSupply).noise = s.noise := by
  (unfold examineSupply; split) <;> simp
@[simp] theorem examineSupply_cond : (s.examineSupply).cond = s.cond := by
  (unfold examineSupply; split) <;> simp
@[simp] theorem examineSupply_store : (s.examineSupply).store = s.store := by
  (unfold examineSupply; split) <;> simp
@[simp] theorem examineSupply_pending : (s.examineSupply).pending = s.pending := by
  (unfold examineSupply; split) <;> simp

/-! ### `releaseGrant` -/

@[simp] theorem releaseGrant_clock (st : Station) : (s.releaseGrant st).clock = s.clock := by
  (unfold releaseGrant; split) <;> simp
@[simp] theorem releaseGrant_pins (st : Station) : (s.releaseGrant st).pins = s.pins := by
  (unfold releaseGrant; split) <;> simp
@[simp] theorem releaseGrant_link (st : Station) : (s.releaseGrant st).link = s.link := by
  (unfold releaseGrant; split) <;> simp
@[simp] theorem releaseGrant_config (st : Station) : (s.releaseGrant st).config = s.config := by
  (unfold releaseGrant; split) <;> simp
@[simp] theorem releaseGrant_seq (st : Station) : (s.releaseGrant st).seq = s.seq := by
  (unfold releaseGrant; split) <;> simp
@[simp] theorem releaseGrant_drive (st : Station) : (s.releaseGrant st).drive = s.drive := by
  (unfold releaseGrant; split) <;> simp
@[simp] theorem releaseGrant_enc (st : Station) : (s.releaseGrant st).enc = s.enc := by
  (unfold releaseGrant; split) <;> simp
@[simp] theorem releaseGrant_mon (st : Station) : (s.releaseGrant st).mon = s.mon := by
  (unfold releaseGrant; split) <;> simp
@[simp] theorem releaseGrant_table (st : Station) : (s.releaseGrant st).table = s.table := by
  (unfold releaseGrant; split) <;> simp
@[simp] theorem releaseGrant_noise (st : Station) : (s.releaseGrant st).noise = s.noise := by
  (unfold releaseGrant; split) <;> simp
@[simp] theorem releaseGrant_cond (st : Station) : (s.releaseGrant st).cond = s.cond := by
  (unfold releaseGrant; split) <;> simp
@[simp] theorem releaseGrant_store (st : Station) : (s.releaseGrant st).store = s.store := by
  (unfold releaseGrant; split) <;> simp
@[simp] theorem releaseGrant_pending (st : Station) : (s.releaseGrant st).pending = s.pending := by
  (unfold releaseGrant; split) <;> simp

/-! ### `leaveSupplyQueue` -/

@[simp] theorem leaveSupplyQueue_clock (st : Station) : (s.leaveSupplyQueue st).clock = s.clock := by
  (unfold leaveSupplyQueue; split) <;> simp
@[simp] theorem leaveSupplyQueue_pins (st : Station) : (s.leaveSupplyQueue st).pins = s.pins := by
  (unfold leaveSupplyQueue; split) <;> simp
@[simp] theorem leaveSupplyQueue_link (st : Station) : (s.leaveSupplyQueue st).link = s.link := by
  (unfold leaveSupplyQueue; split) <;> simp
@[simp] theorem leaveSupplyQueue_config (st : Station) : (s.leaveSupplyQueue st).config = s.config := by
  (unfold leaveSupplyQueue; split) <;> simp
@[simp] theorem leaveSupplyQueue_seq (st : Station) : (s.leaveSupplyQueue st).seq = s.seq := by
  (unfold leaveSupplyQueue; split) <;> simp
@[simp] theorem leaveSupplyQueue_drive (st : Station) : (s.leaveSupplyQueue st).drive = s.drive := by
  (unfold leaveSupplyQueue; split) <;> simp
@[simp] theorem leaveSupplyQueue_enc (st : Station) : (s.leaveSupplyQueue st).enc = s.enc := by
  (unfold leaveSupplyQueue; split) <;> simp
@[simp] theorem leaveSupplyQueue_mon (st : Station) : (s.leaveSupplyQueue st).mon = s.mon := by
  (unfold leaveSupplyQueue; split) <;> simp
@[simp] theorem leaveSupplyQueue_table (st : Station) : (s.leaveSupplyQueue st).table = s.table := by
  (unfold leaveSupplyQueue; split) <;> simp
@[simp] theorem leaveSupplyQueue_noise (st : Station) : (s.leaveSupplyQueue st).noise = s.noise := by
  (unfold leaveSupplyQueue; split) <;> simp
@[simp] theorem leaveSupplyQueue_cond (st : Station) : (s.leaveSupplyQueue st).cond = s.cond := by
  (unfold leaveSupplyQueue; split) <;> simp
@[simp] theorem leaveSupplyQueue_store (st : Station) : (s.leaveSupplyQueue st).store = s.store := by
  (unfold leaveSupplyQueue; split) <;> simp
@[simp] theorem leaveSupplyQueue_pending (st : Station) : (s.leaveSupplyQueue st).pending = s.pending := by
  (unfold leaveSupplyQueue; split) <;> simp

/-! ### `decideLeak` -/

@[simp] theorem decideLeak_clock (st : Station) (r : LeakResult) : (s.decideLeak st r).clock = s.clock := by
  (unfold decideLeak; dsimp only; split) <;> simp
@[simp] theorem decideLeak_pins (st : Station) (r : LeakResult) : (s.decideLeak st r).pins = s.pins := by
  (unfold decideLeak; dsimp only; split) <;> simp
@[simp] theorem decideLeak_link (st : Station) (r : LeakResult) : (s.decideLeak st r).link = s.link := by
  (unfold decideLeak; dsimp only; split) <;> simp
@[simp] theorem decideLeak_config (st : Station) (r : LeakResult) : (s.decideLeak st r).config = s.config := by
  (unfold decideLeak; dsimp only; split) <;> simp
@[simp] theorem decideLeak_drive (st : Station) (r : LeakResult) : (s.decideLeak st r).drive = s.drive := by
  (unfold decideLeak; dsimp only; split) <;> simp
@[simp] theorem decideLeak_enc (st : Station) (r : LeakResult) : (s.decideLeak st r).enc = s.enc := by
  (unfold decideLeak; dsimp only; split) <;> simp
@[simp] theorem decideLeak_mon (st : Station) (r : LeakResult) : (s.decideLeak st r).mon = s.mon := by
  (unfold decideLeak; dsimp only; split) <;> simp
@[simp] theorem decideLeak_table (st : Station) (r : LeakResult) : (s.decideLeak st r).table = s.table := by
  (unfold decideLeak; dsimp only; split) <;> simp
@[simp] theorem decideLeak_noise (st : Station) (r : LeakResult) : (s.decideLeak st r).noise = s.noise := by
  (unfold decideLeak; dsimp only; split) <;> simp
@[simp] theorem decideLeak_cond (st : Station) (r : LeakResult) : (s.decideLeak st r).cond = s.cond := by
  (unfold decideLeak; dsimp only; split) <;> simp
@[simp] theorem decideLeak_store (st : Station) (r : LeakResult) : (s.decideLeak st r).store = s.store := by
  (unfold decideLeak; dsimp only; split) <;> simp
@[simp] theorem decideLeak_pending (st : Station) (r : LeakResult) : (s.decideLeak st r).pending = s.pending := by
  (unfold decideLeak; dsimp only; split) <;> simp

/-! ### `ventAfter` -/

@[simp] theorem ventAfter_clock (st : Station) : (s.ventAfter st).clock = s.clock := by
  (unfold ventAfter; skip) <;> simp
@[simp] theorem ventAfter_pins (st : Station) : (s.ventAfter st).pins = s.pins := by
  (unfold ventAfter; skip) <;> simp
@[simp] theorem ventAfter_link (st : Station) : (s.ventAfter st).link = s.link := by
  (unfold ventAfter; skip) <;> simp
@[simp] theorem ventAfter_config (st : Station) : (s.ventAfter st).config = s.config := by
  (unfold ventAfter; skip) <;> simp
@[simp] theorem ventAfter_seq (st : Station) : (s.ventAfter st).seq = s.seq := by
  (unfold ventAfter; skip) <;> simp
@[simp] theorem ventAfter_drive (st : Station) : (s.ventAfter st).drive = s.drive := by
  (unfold ventAfter; skip) <;> simp
@[simp] theorem ventAfter_enc (st : Station) : (s.ventAfter st).enc = s.enc := by
  (unfold ventAfter; skip) <;> simp
@[simp] theorem ventAfter_mon (st : Station) : (s.ventAfter st).mon = s.mon := by
  (unfold ventAfter; skip) <;> simp
@[simp] theorem ventAfter_table (st : Station) : (s.ventAfter st).table = s.table := by
  (unfold ventAfter; skip) <;> simp
@[simp] theorem ventAfter_noise (st : Station) : (s.ventAfter st).noise = s.noise := by
  (unfold ventAfter; skip) <;> simp
@[simp] theorem ventAfter_cond (st : Station) : (s.ventAfter st).cond = s.cond := by
  (unfold ventAfter; skip) <;> simp
@[simp] theorem ventAfter_store (st : Station) : (s.ventAfter st).store = s.store := by
  (unfold ventAfter; skip) <;> simp
@[simp] theorem ventAfter_pending (st : Station) : (s.ventAfter st).pending = s.pending := by
  (unfold ventAfter; skip) <;> simp

/-! ### `leakExit` -/

@[simp] theorem leakExit_clock (st : Station) : (s.leakExit st).clock = s.clock := by
  (unfold leakExit; dsimp only; split) <;> simp
@[simp] theorem leakExit_pins (st : Station) : (s.leakExit st).pins = s.pins := by
  (unfold leakExit; dsimp only; split) <;> simp
@[simp] theorem leakExit_link (st : Station) : (s.leakExit st).link = s.link := by
  (unfold leakExit; dsimp only; split) <;> simp
@[simp] theorem leakExit_config (st : Station) : (s.leakExit st).config = s.config := by
  (unfold leakExit; dsimp only; split) <;> simp
@[simp] theorem leakExit_drive (st : Station) : (s.leakExit st).drive = s.drive := by
  (unfold leakExit; dsimp only; split) <;> simp
@[simp] theorem leakExit_enc (st : Station) : (s.leakExit st).enc = s.enc := by
  (unfold leakExit; dsimp only; split) <;> simp
@[simp] theorem leakExit_mon (st : Station) : (s.leakExit st).mon = s.mon := by
  (unfold leakExit; dsimp only; split) <;> simp
@[simp] theorem leakExit_table (st : Station) : (s.leakExit st).table = s.table := by
  (unfold leakExit; dsimp only; split) <;> simp
@[simp] theorem leakExit_noise (st : Station) : (s.leakExit st).noise = s.noise := by
  (unfold leakExit; dsimp only; split) <;> simp
@[simp] theorem leakExit_cond (st : Station) : (s.leakExit st).cond = s.cond := by
  (unfold leakExit; dsimp only; split) <;> simp
@[simp] theorem leakExit_store (st : Station) : (s.leakExit st).store = s.store := by
  (unfold leakExit; dsimp only; split) <;> simp
@[simp] theorem leakExit_pending (st : Station) : (s.leakExit st).pending = s.pending := by
  (unfold leakExit; dsimp only; split) <;> simp

/-! ### `leakClose` -/

@[simp] theorem leakClose_clock (st : Station) : (s.leakClose st).clock = s.clock := by
  (unfold leakClose; split) <;> simp
@[simp] theorem leakClose_pins (st : Station) : (s.leakClose st).pins = s.pins := by
  (unfold leakClose; split) <;> simp
@[simp] theorem leakClose_link (st : Station) : (s.leakClose st).link = s.link := by
  (unfold leakClose; split) <;> simp
@[simp] theorem leakClose_config (st : Station) : (s.leakClose st).config = s.config := by
  (unfold leakClose; split) <;> simp
@[simp] theorem leakClose_drive (st : Station) : (s.leakClose st).drive = s.drive := by
  (unfold leakClose; split) <;> simp
@[simp] theorem leakClose_enc (st : Station) : (s.leakClose st).enc = s.enc := by
  (unfold leakClose; split) <;> simp
@[simp] theorem leakClose_mon (st : Station) : (s.leakClose st).mon = s.mon := by
  (unfold leakClose; split) <;> simp
@[simp] theorem leakClose_table (st : Station) : (s.leakClose st).table = s.table := by
  (unfold leakClose; split) <;> simp
@[simp] theorem leakClose_noise (st : Station) : (s.leakClose st).noise = s.noise := by
  (unfold leakClose; split) <;> simp
@[simp] theorem leakClose_cond (st : Station) : (s.leakClose st).cond = s.cond := by
  (unfold leakClose; split) <;> simp
@[simp] theorem leakClose_store (st : Station) : (s.leakClose st).store = s.store := by
  (unfold leakClose; split) <;> simp
@[simp] theorem leakClose_pending (st : Station) : (s.leakClose st).pending = s.pending := by
  (unfold leakClose; split) <;> simp

/-! ### `grantEngine` -/

@[simp] theorem grantEngine_clock (e : EngineId) (st : Station) (g : Nat) : (s.grantEngine e st g).clock = s.clock := by
  (unfold grantEngine; split) <;> simp
@[simp] theorem grantEngine_pins (e : EngineId) (st : Station) (g : Nat) : (s.grantEngine e st g).pins = s.pins := by
  (unfold grantEngine; split) <;> simp
@[simp] theorem grantEngine_link (e : EngineId) (st : Station) (g : Nat) : (s.grantEngine e st g).link = s.link := by
  (unfold grantEngine; split) <;> simp
@[simp] theorem grantEngine_config (e : EngineId) (st : Station) (g : Nat) : (s.grantEngine e st g).config = s.config := by
  (unfold grantEngine; split) <;> simp
@[simp] theorem grantEngine_seq (e : EngineId) (st : Station) (g : Nat) : (s.grantEngine e st g).seq = s.seq := by
  (unfold grantEngine; split) <;> simp
@[simp] theorem grantEngine_drive (e : EngineId) (st : Station) (g : Nat) : (s.grantEngine e st g).drive = s.drive := by
  (unfold grantEngine; split) <;> simp
@[simp] theorem grantEngine_enc (e : EngineId) (st : Station) (g : Nat) : (s.grantEngine e st g).enc = s.enc := by
  (unfold grantEngine; split) <;> simp
@[simp] theorem grantEngine_mon (e : EngineId) (st : Station) (g : Nat) : (s.grantEngine e st g).mon = s.mon := by
  (unfold grantEngine; split) <;> simp
@[simp] theorem grantEngine_table (e : EngineId) (st : Station) (g : Nat) : (s.grantEngine e st g).table = s.table := by
  (unfold grantEngine; split) <;> simp
@[simp] theorem grantEngine_leak (e : EngineId) (st : Station) (g : Nat) : (s.grantEngine e st g).leak = s.leak := by
  (unfold grantEngine; split) <;> simp
@[simp] theorem grantEngine_cond (e : EngineId) (st : Station) (g : Nat) : (s.grantEngine e st g).cond = s.cond := by
  (unfold grantEngine; split) <;> simp
@[simp] theorem grantEngine_store (e : EngineId) (st : Station) (g : Nat) : (s.grantEngine e st g).store = s.store := by
  (unfold grantEngine; split) <;> simp
@[simp] theorem grantEngine_counters (e : EngineId) (st : Station) (g : Nat) : (s.grantEngine e st g).counters = s.counters := by
  (unfold grantEngine; split) <;> simp
@[simp] theorem grantEngine_pending (e : EngineId) (st : Station) (g : Nat) : (s.grantEngine e st g).pending = s.pending := by
  (unfold grantEngine; split) <;> simp

/-! ### `passEngine` -/

@[simp] theorem passEngine_clock (e : EngineId) : (s.passEngine e).clock = s.clock := by
  (unfold passEngine; split) <;> simp
@[simp] theorem passEngine_pins (e : EngineId) : (s.passEngine e).pins = s.pins := by
  (unfold passEngine; split) <;> simp
@[simp] theorem passEngine_link (e : EngineId) : (s.passEngine e).link = s.link := by
  (unfold passEngine; split) <;> simp
@[simp] theorem passEngine_config (e : EngineId) : (s.passEngine e).config = s.config := by
  (unfold passEngine; split) <;> simp
@[simp] theorem passEngine_seq (e : EngineId) : (s.passEngine e).seq = s.seq := by
  (unfold passEngine; split) <;> simp
@[simp] theorem passEngine_drive (e : EngineId) : (s.passEngine e).drive = s.drive := by
  (unfold passEngine; split) <;> simp
@[simp] theorem passEngine_enc (e : EngineId) : (s.passEngine e).enc = s.enc := by
  (unfold passEngine; split) <;> simp
@[simp] theorem passEngine_mon (e : EngineId) : (s.passEngine e).mon = s.mon := by
  (unfold passEngine; split) <;> simp
@[simp] theorem passEngine_table (e : EngineId) : (s.passEngine e).table = s.table := by
  (unfold passEngine; split) <;> simp
@[simp] theorem passEngine_leak (e : EngineId) : (s.passEngine e).leak = s.leak := by
  (unfold passEngine; split) <;> simp
@[simp] theorem passEngine_cond (e : EngineId) : (s.passEngine e).cond = s.cond := by
  (unfold passEngine; split) <;> simp
@[simp] theorem passEngine_store (e : EngineId) : (s.passEngine e).store = s.store := by
  (unfold passEngine; split) <;> simp
@[simp] theorem passEngine_counters (e : EngineId) : (s.passEngine e).counters = s.counters := by
  (unfold passEngine; split) <;> simp
@[simp] theorem passEngine_pending (e : EngineId) : (s.passEngine e).pending = s.pending := by
  (unfold passEngine; split) <;> simp

/-! ### `freeEngine` -/

@[simp] theorem freeEngine_clock (e : EngineId) : (s.freeEngine e).clock = s.clock := by
  (unfold freeEngine; skip) <;> simp
@[simp] theorem freeEngine_pins (e : EngineId) : (s.freeEngine e).pins = s.pins := by
  (unfold freeEngine; skip) <;> simp
@[simp] theorem freeEngine_link (e : EngineId) : (s.freeEngine e).link = s.link := by
  (unfold freeEngine; skip) <;> simp
@[simp] theorem freeEngine_config (e : EngineId) : (s.freeEngine e).config = s.config := by
  (unfold freeEngine; skip) <;> simp
@[simp] theorem freeEngine_seq (e : EngineId) : (s.freeEngine e).seq = s.seq := by
  (unfold freeEngine; skip) <;> simp
@[simp] theorem freeEngine_drive (e : EngineId) : (s.freeEngine e).drive = s.drive := by
  (unfold freeEngine; skip) <;> simp
@[simp] theorem freeEngine_enc (e : EngineId) : (s.freeEngine e).enc = s.enc := by
  (unfold freeEngine; skip) <;> simp
@[simp] theorem freeEngine_mon (e : EngineId) : (s.freeEngine e).mon = s.mon := by
  (unfold freeEngine; skip) <;> simp
@[simp] theorem freeEngine_table (e : EngineId) : (s.freeEngine e).table = s.table := by
  (unfold freeEngine; skip) <;> simp
@[simp] theorem freeEngine_leak (e : EngineId) : (s.freeEngine e).leak = s.leak := by
  (unfold freeEngine; skip) <;> simp
@[simp] theorem freeEngine_cond (e : EngineId) : (s.freeEngine e).cond = s.cond := by
  (unfold freeEngine; skip) <;> simp
@[simp] theorem freeEngine_store (e : EngineId) : (s.freeEngine e).store = s.store := by
  (unfold freeEngine; skip) <;> simp
@[simp] theorem freeEngine_counters (e : EngineId) : (s.freeEngine e).counters = s.counters := by
  (unfold freeEngine; skip) <;> simp
@[simp] theorem freeEngine_pending (e : EngineId) : (s.freeEngine e).pending = s.pending := by
  (unfold freeEngine; skip) <;> simp

/-! ### `unmeasured` -/

@[simp] theorem unmeasured_clock (st : Station) (g : Nat) : (s.unmeasured st g).clock = s.clock := by
  (unfold unmeasured; dsimp only; repeat' split) <;> simp
@[simp] theorem unmeasured_pins (st : Station) (g : Nat) : (s.unmeasured st g).pins = s.pins := by
  (unfold unmeasured; dsimp only; repeat' split) <;> simp
@[simp] theorem unmeasured_link (st : Station) (g : Nat) : (s.unmeasured st g).link = s.link := by
  (unfold unmeasured; dsimp only; repeat' split) <;> simp
@[simp] theorem unmeasured_config (st : Station) (g : Nat) : (s.unmeasured st g).config = s.config := by
  (unfold unmeasured; dsimp only; repeat' split) <;> simp
@[simp] theorem unmeasured_drive (st : Station) (g : Nat) : (s.unmeasured st g).drive = s.drive := by
  (unfold unmeasured; dsimp only; repeat' split) <;> simp
@[simp] theorem unmeasured_enc (st : Station) (g : Nat) : (s.unmeasured st g).enc = s.enc := by
  (unfold unmeasured; dsimp only; repeat' split) <;> simp
@[simp] theorem unmeasured_mon (st : Station) (g : Nat) : (s.unmeasured st g).mon = s.mon := by
  (unfold unmeasured; dsimp only; repeat' split) <;> simp
@[simp] theorem unmeasured_table (st : Station) (g : Nat) : (s.unmeasured st g).table = s.table := by
  (unfold unmeasured; dsimp only; repeat' split) <;> simp
@[simp] theorem unmeasured_leak (st : Station) (g : Nat) : (s.unmeasured st g).leak = s.leak := by
  (unfold unmeasured; dsimp only; repeat' split) <;> simp
@[simp] theorem unmeasured_cond (st : Station) (g : Nat) : (s.unmeasured st g).cond = s.cond := by
  (unfold unmeasured; dsimp only; repeat' split) <;> simp
@[simp] theorem unmeasured_store (st : Station) (g : Nat) : (s.unmeasured st g).store = s.store := by
  (unfold unmeasured; dsimp only; repeat' split) <;> simp
@[simp] theorem unmeasured_counters (st : Station) (g : Nat) : (s.unmeasured st g).counters = s.counters := by
  (unfold unmeasured; dsimp only; repeat' split) <;> simp
@[simp] theorem unmeasured_pending (st : Station) (g : Nat) : (s.unmeasured st g).pending = s.pending := by
  (unfold unmeasured; dsimp only; repeat' split) <;> simp

/-! ### `claimEngine` -/

@[simp] theorem claimEngine_clock (st : Station) (g : Nat) : (s.claimEngine st g).clock = s.clock := by
  (unfold claimEngine; repeat' split) <;> simp
@[simp] theorem claimEngine_pins (st : Station) (g : Nat) : (s.claimEngine st g).pins = s.pins := by
  (unfold claimEngine; repeat' split) <;> simp
@[simp] theorem claimEngine_link (st : Station) (g : Nat) : (s.claimEngine st g).link = s.link := by
  (unfold claimEngine; repeat' split) <;> simp
@[simp] theorem claimEngine_config (st : Station) (g : Nat) : (s.claimEngine st g).config = s.config := by
  (unfold claimEngine; repeat' split) <;> simp
@[simp] theorem claimEngine_drive (st : Station) (g : Nat) : (s.claimEngine st g).drive = s.drive := by
  (unfold claimEngine; repeat' split) <;> simp
@[simp] theorem claimEngine_enc (st : Station) (g : Nat) : (s.claimEngine st g).enc = s.enc := by
  (unfold claimEngine; repeat' split) <;> simp
@[simp] theorem claimEngine_mon (st : Station) (g : Nat) : (s.claimEngine st g).mon = s.mon := by
  (unfold claimEngine; repeat' split) <;> simp
@[simp] theorem claimEngine_table (st : Station) (g : Nat) : (s.claimEngine st g).table = s.table := by
  (unfold claimEngine; repeat' split) <;> simp
@[simp] theorem claimEngine_leak (st : Station) (g : Nat) : (s.claimEngine st g).leak = s.leak := by
  (unfold claimEngine; repeat' split) <;> simp
@[simp] theorem claimEngine_cond (st : Station) (g : Nat) : (s.claimEngine st g).cond = s.cond := by
  (unfold claimEngine; repeat' split) <;> simp
@[simp] theorem claimEngine_store (st : Station) (g : Nat) : (s.claimEngine st g).store = s.store := by
  (unfold claimEngine; repeat' split) <;> simp
@[simp] theorem claimEngine_pending (st : Station) (g : Nat) : (s.claimEngine st g).pending = s.pending := by
  (unfold claimEngine; repeat' split) <;> simp

/-! ### `windowStart` -/

@[simp] theorem windowStart_clock (st : Station) (g : Nat) : (s.windowStart st g).clock = s.clock := by
  (unfold windowStart; dsimp only; repeat' split) <;> simp
@[simp] theorem windowStart_pins (st : Station) (g : Nat) : (s.windowStart st g).pins = s.pins := by
  (unfold windowStart; dsimp only; repeat' split) <;> simp
@[simp] theorem windowStart_link (st : Station) (g : Nat) : (s.windowStart st g).link = s.link := by
  (unfold windowStart; dsimp only; repeat' split) <;> simp
@[simp] theorem windowStart_config (st : Station) (g : Nat) : (s.windowStart st g).config = s.config := by
  (unfold windowStart; dsimp only; repeat' split) <;> simp
@[simp] theorem windowStart_drive (st : Station) (g : Nat) : (s.windowStart st g).drive = s.drive := by
  (unfold windowStart; dsimp only; repeat' split) <;> simp
@[simp] theorem windowStart_enc (st : Station) (g : Nat) : (s.windowStart st g).enc = s.enc := by
  (unfold windowStart; dsimp only; repeat' split) <;> simp
@[simp] theorem windowStart_mon (st : Station) (g : Nat) : (s.windowStart st g).mon = s.mon := by
  (unfold windowStart; dsimp only; repeat' split) <;> simp
@[simp] theorem windowStart_table (st : Station) (g : Nat) : (s.windowStart st g).table = s.table := by
  (unfold windowStart; dsimp only; repeat' split) <;> simp
@[simp] theorem windowStart_leak (st : Station) (g : Nat) : (s.windowStart st g).leak = s.leak := by
  (unfold windowStart; dsimp only; repeat' split) <;> simp
@[simp] theorem windowStart_cond (st : Station) (g : Nat) : (s.windowStart st g).cond = s.cond := by
  (unfold windowStart; dsimp only; repeat' split) <;> simp
@[simp] theorem windowStart_store (st : Station) (g : Nat) : (s.windowStart st g).store = s.store := by
  (unfold windowStart; dsimp only; repeat' split) <;> simp
@[simp] theorem windowStart_pending (st : Station) (g : Nat) : (s.windowStart st g).pending = s.pending := by
  (unfold windowStart; dsimp only; repeat' split) <;> simp

/-! ### `windowEnd` -/

@[simp] theorem windowEnd_clock (st : Station) (g i : Nat) : (s.windowEnd st g i).clock = s.clock := by
  (unfold windowEnd; dsimp only; repeat' split) <;> simp
@[simp] theorem windowEnd_pins (st : Station) (g i : Nat) : (s.windowEnd st g i).pins = s.pins := by
  (unfold windowEnd; dsimp only; repeat' split) <;> simp
@[simp] theorem windowEnd_link (st : Station) (g i : Nat) : (s.windowEnd st g i).link = s.link := by
  (unfold windowEnd; dsimp only; repeat' split) <;> simp
@[simp] theorem windowEnd_config (st : Station) (g i : Nat) : (s.windowEnd st g i).config = s.config := by
  (unfold windowEnd; dsimp only; repeat' split) <;> simp
@[simp] theorem windowEnd_drive (st : Station) (g i : Nat) : (s.windowEnd st g i).drive = s.drive := by
  (unfold windowEnd; dsimp only; repeat' split) <;> simp
@[simp] theorem windowEnd_enc (st : Station) (g i : Nat) : (s.windowEnd st g i).enc = s.enc := by
  (unfold windowEnd; dsimp only; repeat' split) <;> simp
@[simp] theorem windowEnd_mon (st : Station) (g i : Nat) : (s.windowEnd st g i).mon = s.mon := by
  (unfold windowEnd; dsimp only; repeat' split) <;> simp
@[simp] theorem windowEnd_table (st : Station) (g i : Nat) : (s.windowEnd st g i).table = s.table := by
  (unfold windowEnd; dsimp only; repeat' split) <;> simp
@[simp] theorem windowEnd_leak (st : Station) (g i : Nat) : (s.windowEnd st g i).leak = s.leak := by
  (unfold windowEnd; dsimp only; repeat' split) <;> simp
@[simp] theorem windowEnd_cond (st : Station) (g i : Nat) : (s.windowEnd st g i).cond = s.cond := by
  (unfold windowEnd; dsimp only; repeat' split) <;> simp
@[simp] theorem windowEnd_store (st : Station) (g i : Nat) : (s.windowEnd st g i).store = s.store := by
  (unfold windowEnd; dsimp only; repeat' split) <;> simp
@[simp] theorem windowEnd_counters (st : Station) (g i : Nat) : (s.windowEnd st g i).counters = s.counters := by
  (unfold windowEnd; dsimp only; repeat' split) <;> simp
@[simp] theorem windowEnd_pending (st : Station) (g i : Nat) : (s.windowEnd st g i).pending = s.pending := by
  (unfold windowEnd; dsimp only; repeat' split) <;> simp

/-! ### `noiseExit` -/

@[simp] theorem noiseExit_clock (st : Station) : (s.noiseExit st).clock = s.clock := by
  (unfold noiseExit; dsimp only; repeat' split) <;> simp
@[simp] theorem noiseExit_pins (st : Station) : (s.noiseExit st).pins = s.pins := by
  (unfold noiseExit; dsimp only; repeat' split) <;> simp
@[simp] theorem noiseExit_link (st : Station) : (s.noiseExit st).link = s.link := by
  (unfold noiseExit; dsimp only; repeat' split) <;> simp
@[simp] theorem noiseExit_config (st : Station) : (s.noiseExit st).config = s.config := by
  (unfold noiseExit; dsimp only; repeat' split) <;> simp
@[simp] theorem noiseExit_drive (st : Station) : (s.noiseExit st).drive = s.drive := by
  (unfold noiseExit; dsimp only; repeat' split) <;> simp
@[simp] theorem noiseExit_enc (st : Station) : (s.noiseExit st).enc = s.enc := by
  (unfold noiseExit; dsimp only; repeat' split) <;> simp
@[simp] theorem noiseExit_mon (st : Station) : (s.noiseExit st).mon = s.mon := by
  (unfold noiseExit; dsimp only; repeat' split) <;> simp
@[simp] theorem noiseExit_table (st : Station) : (s.noiseExit st).table = s.table := by
  (unfold noiseExit; dsimp only; repeat' split) <;> simp
@[simp] theorem noiseExit_leak (st : Station) : (s.noiseExit st).leak = s.leak := by
  (unfold noiseExit; dsimp only; repeat' split) <;> simp
@[simp] theorem noiseExit_cond (st : Station) : (s.noiseExit st).cond = s.cond := by
  (unfold noiseExit; dsimp only; repeat' split) <;> simp
@[simp] theorem noiseExit_store (st : Station) : (s.noiseExit st).store = s.store := by
  (unfold noiseExit; dsimp only; repeat' split) <;> simp
@[simp] theorem noiseExit_counters (st : Station) : (s.noiseExit st).counters = s.counters := by
  (unfold noiseExit; dsimp only; repeat' split) <;> simp
@[simp] theorem noiseExit_pending (st : Station) : (s.noiseExit st).pending = s.pending := by
  (unfold noiseExit; dsimp only; repeat' split) <;> simp

/-! ### `closeStep` -/

@[simp] theorem closeStep_clock (st : Station) : (s.closeStep st).clock = s.clock := by
  (unfold closeStep; split) <;> simp
@[simp] theorem closeStep_pins (st : Station) : (s.closeStep st).pins = s.pins := by
  (unfold closeStep; split) <;> simp
@[simp] theorem closeStep_link (st : Station) : (s.closeStep st).link = s.link := by
  (unfold closeStep; split) <;> simp
@[simp] theorem closeStep_config (st : Station) : (s.closeStep st).config = s.config := by
  (unfold closeStep; split) <;> simp
@[simp] theorem closeStep_drive (st : Station) : (s.closeStep st).drive = s.drive := by
  (unfold closeStep; split) <;> simp
@[simp] theorem closeStep_enc (st : Station) : (s.closeStep st).enc = s.enc := by
  (unfold closeStep; split) <;> simp
@[simp] theorem closeStep_mon (st : Station) : (s.closeStep st).mon = s.mon := by
  (unfold closeStep; split) <;> simp
@[simp] theorem closeStep_table (st : Station) : (s.closeStep st).table = s.table := by
  (unfold closeStep; split) <;> simp
@[simp] theorem closeStep_noise (st : Station) : (s.closeStep st).noise = s.noise := by
  (unfold closeStep; split) <;> simp
@[simp] theorem closeStep_leak (st : Station) : (s.closeStep st).leak = s.leak := by
  (unfold closeStep; split) <;> simp
@[simp] theorem closeStep_cond (st : Station) : (s.closeStep st).cond = s.cond := by
  (unfold closeStep; split) <;> simp
@[simp] theorem closeStep_store (st : Station) : (s.closeStep st).store = s.store := by
  (unfold closeStep; split) <;> simp
@[simp] theorem closeStep_counters (st : Station) : (s.closeStep st).counters = s.counters := by
  (unfold closeStep; split) <;> simp
@[simp] theorem closeStep_pending (st : Station) : (s.closeStep st).pending = s.pending := by
  (unfold closeStep; split) <;> simp

/-! ### `leaveRunning` -/

@[simp] theorem leaveRunning_clock (st : Station) : (s.leaveRunning st).clock = s.clock := by
  (unfold leaveRunning; skip) <;> simp
@[simp] theorem leaveRunning_pins (st : Station) : (s.leaveRunning st).pins = s.pins := by
  (unfold leaveRunning; skip) <;> simp
@[simp] theorem leaveRunning_link (st : Station) : (s.leaveRunning st).link = s.link := by
  (unfold leaveRunning; skip) <;> simp
@[simp] theorem leaveRunning_config (st : Station) : (s.leaveRunning st).config = s.config := by
  (unfold leaveRunning; skip) <;> simp
@[simp] theorem leaveRunning_drive (st : Station) : (s.leaveRunning st).drive = s.drive := by
  (unfold leaveRunning; skip) <;> simp
@[simp] theorem leaveRunning_enc (st : Station) : (s.leaveRunning st).enc = s.enc := by
  (unfold leaveRunning; skip) <;> simp
@[simp] theorem leaveRunning_mon (st : Station) : (s.leaveRunning st).mon = s.mon := by
  (unfold leaveRunning; skip) <;> simp
@[simp] theorem leaveRunning_table (st : Station) : (s.leaveRunning st).table = s.table := by
  (unfold leaveRunning; skip) <;> simp
@[simp] theorem leaveRunning_leak (st : Station) : (s.leaveRunning st).leak = s.leak := by
  (unfold leaveRunning; skip) <;> simp
@[simp] theorem leaveRunning_cond (st : Station) : (s.leaveRunning st).cond = s.cond := by
  (unfold leaveRunning; skip) <;> simp
@[simp] theorem leaveRunning_store (st : Station) : (s.leaveRunning st).store = s.store := by
  (unfold leaveRunning; skip) <;> simp
@[simp] theorem leaveRunning_counters (st : Station) : (s.leaveRunning st).counters = s.counters := by
  (unfold leaveRunning; skip) <;> simp
@[simp] theorem leaveRunning_pending (st : Station) : (s.leaveRunning st).pending = s.pending := by
  (unfold leaveRunning; skip) <;> simp

/-! ### `enterCompleting` -/

@[simp] theorem enterCompleting_clock (st : Station) : (s.enterCompleting st).clock = s.clock := by
  (unfold enterCompleting; dsimp only) <;> simp
@[simp] theorem enterCompleting_pins (st : Station) : (s.enterCompleting st).pins = s.pins := by
  (unfold enterCompleting; dsimp only) <;> simp
@[simp] theorem enterCompleting_link (st : Station) : (s.enterCompleting st).link = s.link := by
  (unfold enterCompleting; dsimp only) <;> simp
@[simp] theorem enterCompleting_config (st : Station) : (s.enterCompleting st).config = s.config := by
  (unfold enterCompleting; dsimp only) <;> simp
@[simp] theorem enterCompleting_enc (st : Station) : (s.enterCompleting st).enc = s.enc := by
  (unfold enterCompleting; dsimp only) <;> simp
@[simp] theorem enterCompleting_mon (st : Station) : (s.enterCompleting st).mon = s.mon := by
  (unfold enterCompleting; dsimp only) <;> simp
@[simp] theorem enterCompleting_table (st : Station) : (s.enterCompleting st).table = s.table := by
  (unfold enterCompleting; dsimp only) <;> simp
@[simp] theorem enterCompleting_noise (st : Station) : (s.enterCompleting st).noise = s.noise := by
  (unfold enterCompleting; dsimp only) <;> simp
@[simp] theorem enterCompleting_cond (st : Station) : (s.enterCompleting st).cond = s.cond := by
  (unfold enterCompleting; dsimp only) <;> simp
@[simp] theorem enterCompleting_store (st : Station) : (s.enterCompleting st).store = s.store := by
  (unfold enterCompleting; dsimp only) <;> simp
@[simp] theorem enterCompleting_pending (st : Station) : (s.enterCompleting st).pending = s.pending := by
  (unfold enterCompleting; dsimp only) <;> simp

/-! ### `enterStopping` -/

@[simp] theorem enterStopping_clock (st : Station) (c : Option AbortCause) (d : Bool) : (s.enterStopping st c d).clock = s.clock := by
  (unfold enterStopping; dsimp only; repeat' split) <;> simp
@[simp] theorem enterStopping_pins (st : Station) (c : Option AbortCause) (d : Bool) : (s.enterStopping st c d).pins = s.pins := by
  (unfold enterStopping; dsimp only; repeat' split) <;> simp
@[simp] theorem enterStopping_config (st : Station) (c : Option AbortCause) (d : Bool) : (s.enterStopping st c d).config = s.config := by
  (unfold enterStopping; dsimp only; repeat' split) <;> simp
@[simp] theorem enterStopping_enc (st : Station) (c : Option AbortCause) (d : Bool) : (s.enterStopping st c d).enc = s.enc := by
  (unfold enterStopping; dsimp only; repeat' split) <;> simp
@[simp] theorem enterStopping_mon (st : Station) (c : Option AbortCause) (d : Bool) : (s.enterStopping st c d).mon = s.mon := by
  (unfold enterStopping; dsimp only; repeat' split) <;> simp
@[simp] theorem enterStopping_table (st : Station) (c : Option AbortCause) (d : Bool) : (s.enterStopping st c d).table = s.table := by
  (unfold enterStopping; dsimp only; repeat' split) <;> simp
@[simp] theorem enterStopping_cond (st : Station) (c : Option AbortCause) (d : Bool) : (s.enterStopping st c d).cond = s.cond := by
  (unfold enterStopping; dsimp only; repeat' split) <;> simp
@[simp] theorem enterStopping_store (st : Station) (c : Option AbortCause) (d : Bool) : (s.enterStopping st c d).store = s.store := by
  (unfold enterStopping; dsimp only; repeat' split) <;> simp
@[simp] theorem enterStopping_pending (st : Station) (c : Option AbortCause) (d : Bool) : (s.enterStopping st c d).pending = s.pending := by
  (unfold enterStopping; dsimp only; repeat' split) <;> simp

/-! ### `chainEnd` -/

@[simp] theorem chainEnd_clock (st : Station) : (s.chainEnd st).clock = s.clock := by
  (unfold chainEnd; split) <;> simp
@[simp] theorem chainEnd_pins (st : Station) : (s.chainEnd st).pins = s.pins := by
  (unfold chainEnd; split) <;> simp
@[simp] theorem chainEnd_config (st : Station) : (s.chainEnd st).config = s.config := by
  (unfold chainEnd; split) <;> simp
@[simp] theorem chainEnd_enc (st : Station) : (s.chainEnd st).enc = s.enc := by
  (unfold chainEnd; split) <;> simp
@[simp] theorem chainEnd_mon (st : Station) : (s.chainEnd st).mon = s.mon := by
  (unfold chainEnd; split) <;> simp
@[simp] theorem chainEnd_cond (st : Station) : (s.chainEnd st).cond = s.cond := by
  (unfold chainEnd; split) <;> simp
@[simp] theorem chainEnd_pending (st : Station) : (s.chainEnd st).pending = s.pending := by
  (unfold chainEnd; split) <;> simp

/-! ### `beginStep` -/

@[simp] theorem beginStep_clock (st : Station) (i : Nat) (x : StepSpec) : (s.beginStep st i x).clock = s.clock := by
  (unfold beginStep; dsimp only; split) <;> simp
@[simp] theorem beginStep_pins (st : Station) (i : Nat) (x : StepSpec) : (s.beginStep st i x).pins = s.pins := by
  (unfold beginStep; dsimp only; split) <;> simp
@[simp] theorem beginStep_link (st : Station) (i : Nat) (x : StepSpec) : (s.beginStep st i x).link = s.link := by
  (unfold beginStep; dsimp only; split) <;> simp
@[simp] theorem beginStep_config (st : Station) (i : Nat) (x : StepSpec) : (s.beginStep st i x).config = s.config := by
  (unfold beginStep; dsimp only; split) <;> simp
@[simp] theorem beginStep_enc (st : Station) (i : Nat) (x : StepSpec) : (s.beginStep st i x).enc = s.enc := by
  (unfold beginStep; dsimp only; split) <;> simp
@[simp] theorem beginStep_mon (st : Station) (i : Nat) (x : StepSpec) : (s.beginStep st i x).mon = s.mon := by
  (unfold beginStep; dsimp only; split) <;> simp
@[simp] theorem beginStep_table (st : Station) (i : Nat) (x : StepSpec) : (s.beginStep st i x).table = s.table := by
  (unfold beginStep; dsimp only; split) <;> simp
@[simp] theorem beginStep_cond (st : Station) (i : Nat) (x : StepSpec) : (s.beginStep st i x).cond = s.cond := by
  (unfold beginStep; dsimp only; split) <;> simp
@[simp] theorem beginStep_store (st : Station) (i : Nat) (x : StepSpec) : (s.beginStep st i x).store = s.store := by
  (unfold beginStep; dsimp only; split) <;> simp
@[simp] theorem beginStep_pending (st : Station) (i : Nat) (x : StepSpec) : (s.beginStep st i x).pending = s.pending := by
  (unfold beginStep; dsimp only; split) <;> simp

/-! ### `finishStep` -/

@[simp] theorem finishStep_clock (st : Station) (o : StepOutcome) (c : Option StepCause) : (s.finishStep st o c).clock = s.clock := by
  (unfold finishStep; split) <;> simp
@[simp] theorem finishStep_pins (st : Station) (o : StepOutcome) (c : Option StepCause) : (s.finishStep st o c).pins = s.pins := by
  (unfold finishStep; split) <;> simp
@[simp] theorem finishStep_link (st : Station) (o : StepOutcome) (c : Option StepCause) : (s.finishStep st o c).link = s.link := by
  (unfold finishStep; split) <;> simp
@[simp] theorem finishStep_config (st : Station) (o : StepOutcome) (c : Option StepCause) : (s.finishStep st o c).config = s.config := by
  (unfold finishStep; split) <;> simp
@[simp] theorem finishStep_drive (st : Station) (o : StepOutcome) (c : Option StepCause) : (s.finishStep st o c).drive = s.drive := by
  (unfold finishStep; split) <;> simp
@[simp] theorem finishStep_enc (st : Station) (o : StepOutcome) (c : Option StepCause) : (s.finishStep st o c).enc = s.enc := by
  (unfold finishStep; split) <;> simp
@[simp] theorem finishStep_mon (st : Station) (o : StepOutcome) (c : Option StepCause) : (s.finishStep st o c).mon = s.mon := by
  (unfold finishStep; split) <;> simp
@[simp] theorem finishStep_table (st : Station) (o : StepOutcome) (c : Option StepCause) : (s.finishStep st o c).table = s.table := by
  (unfold finishStep; split) <;> simp
@[simp] theorem finishStep_noise (st : Station) (o : StepOutcome) (c : Option StepCause) : (s.finishStep st o c).noise = s.noise := by
  (unfold finishStep; split) <;> simp
@[simp] theorem finishStep_leak (st : Station) (o : StepOutcome) (c : Option StepCause) : (s.finishStep st o c).leak = s.leak := by
  (unfold finishStep; split) <;> simp
@[simp] theorem finishStep_cond (st : Station) (o : StepOutcome) (c : Option StepCause) : (s.finishStep st o c).cond = s.cond := by
  (unfold finishStep; split) <;> simp
@[simp] theorem finishStep_store (st : Station) (o : StepOutcome) (c : Option StepCause) : (s.finishStep st o c).store = s.store := by
  (unfold finishStep; split) <;> simp
@[simp] theorem finishStep_counters (st : Station) (o : StepOutcome) (c : Option StepCause) : (s.finishStep st o c).counters = s.counters := by
  (unfold finishStep; split) <;> simp
@[simp] theorem finishStep_pending (st : Station) (o : StepOutcome) (c : Option StepCause) : (s.finishStep st o c).pending = s.pending := by
  (unfold finishStep; split) <;> simp

/-! ### `nextStep` -/

@[simp] theorem nextStep_clock (st : Station) (i : Nat) : (s.nextStep st i).clock = s.clock := by
  (unfold nextStep; split) <;> simp
@[simp] theorem nextStep_pins (st : Station) (i : Nat) : (s.nextStep st i).pins = s.pins := by
  (unfold nextStep; split) <;> simp
@[simp] theorem nextStep_config (st : Station) (i : Nat) : (s.nextStep st i).config = s.config := by
  (unfold nextStep; split) <;> simp
@[simp] theorem nextStep_enc (st : Station) (i : Nat) : (s.nextStep st i).enc = s.enc := by
  (unfold nextStep; split) <;> simp
@[simp] theorem nextStep_mon (st : Station) (i : Nat) : (s.nextStep st i).mon = s.mon := by
  (unfold nextStep; split) <;> simp
@[simp] theorem nextStep_cond (st : Station) (i : Nat) : (s.nextStep st i).cond = s.cond := by
  (unfold nextStep; split) <;> simp
@[simp] theorem nextStep_pending (st : Station) (i : Nat) : (s.nextStep st i).pending = s.pending := by
  (unfold nextStep; split) <;> simp

/-! ### `endStep` -/

@[simp] theorem endStep_clock (st : Station) (o : StepOutcome) : (s.endStep st o).clock = s.clock := by
  (unfold endStep; split) <;> simp
@[simp] theorem endStep_pins (st : Station) (o : StepOutcome) : (s.endStep st o).pins = s.pins := by
  (unfold endStep; split) <;> simp
@[simp] theorem endStep_config (st : Station) (o : StepOutcome) : (s.endStep st o).config = s.config := by
  (unfold endStep; split) <;> simp
@[simp] theorem endStep_enc (st : Station) (o : StepOutcome) : (s.endStep st o).enc = s.enc := by
  (unfold endStep; split) <;> simp
@[simp] theorem endStep_mon (st : Station) (o : StepOutcome) : (s.endStep st o).mon = s.mon := by
  (unfold endStep; split) <;> simp
@[simp] theorem endStep_cond (st : Station) (o : StepOutcome) : (s.endStep st o).cond = s.cond := by
  (unfold endStep; split) <;> simp
@[simp] theorem endStep_pending (st : Station) (o : StepOutcome) : (s.endStep st o).pending = s.pending := by
  (unfold endStep; split) <;> simp

/-! ### `failStep` -/

@[simp] theorem failStep_clock (st : Station) (c : StepCause) : (s.failStep st c).clock = s.clock := by
  (unfold failStep; skip) <;> simp
@[simp] theorem failStep_pins (st : Station) (c : StepCause) : (s.failStep st c).pins = s.pins := by
  (unfold failStep; skip) <;> simp
@[simp] theorem failStep_config (st : Station) (c : StepCause) : (s.failStep st c).config = s.config := by
  (unfold failStep; skip) <;> simp
@[simp] theorem failStep_enc (st : Station) (c : StepCause) : (s.failStep st c).enc = s.enc := by
  (unfold failStep; skip) <;> simp
@[simp] theorem failStep_mon (st : Station) (c : StepCause) : (s.failStep st c).mon = s.mon := by
  (unfold failStep; skip) <;> simp
@[simp] theorem failStep_table (st : Station) (c : StepCause) : (s.failStep st c).table = s.table := by
  (unfold failStep; skip) <;> simp
@[simp] theorem failStep_cond (st : Station) (c : StepCause) : (s.failStep st c).cond = s.cond := by
  (unfold failStep; skip) <;> simp
@[simp] theorem failStep_store (st : Station) (c : StepCause) : (s.failStep st c).store = s.store := by
  (unfold failStep; skip) <;> simp
@[simp] theorem failStep_pending (st : Station) (c : StepCause) : (s.failStep st c).pending = s.pending := by
  (unfold failStep; skip) <;> simp

/-! ### `failedOutcome` -/

@[simp] theorem failedOutcome_clock (st : Station) : (s.failedOutcome st).clock = s.clock := by
  (unfold failedOutcome; split) <;> simp
@[simp] theorem failedOutcome_pins (st : Station) : (s.failedOutcome st).pins = s.pins := by
  (unfold failedOutcome; split) <;> simp
@[simp] theorem failedOutcome_config (st : Station) : (s.failedOutcome st).config = s.config := by
  (unfold failedOutcome; split) <;> simp
@[simp] theorem failedOutcome_enc (st : Station) : (s.failedOutcome st).enc = s.enc := by
  (unfold failedOutcome; split) <;> simp
@[simp] theorem failedOutcome_mon (st : Station) : (s.failedOutcome st).mon = s.mon := by
  (unfold failedOutcome; split) <;> simp
@[simp] theorem failedOutcome_table (st : Station) : (s.failedOutcome st).table = s.table := by
  (unfold failedOutcome; split) <;> simp
@[simp] theorem failedOutcome_cond (st : Station) : (s.failedOutcome st).cond = s.cond := by
  (unfold failedOutcome; split) <;> simp
@[simp] theorem failedOutcome_store (st : Station) : (s.failedOutcome st).store = s.store := by
  (unfold failedOutcome; split) <;> simp
@[simp] theorem failedOutcome_pending (st : Station) : (s.failedOutcome st).pending = s.pending := by
  (unfold failedOutcome; split) <;> simp

/-! ### `endExtended` -/

@[simp] theorem endExtended_clock (st : Station) : (s.endExtended st).clock = s.clock := by
  (unfold endExtended; split) <;> simp
@[simp] theorem endExtended_pins (st : Station) : (s.endExtended st).pins = s.pins := by
  (unfold endExtended; split) <;> simp
@[simp] theorem endExtended_config (st : Station) : (s.endExtended st).config = s.config := by
  (unfold endExtended; split) <;> simp
@[simp] theorem endExtended_enc (st : Station) : (s.endExtended st).enc = s.enc := by
  (unfold endExtended; split) <;> simp
@[simp] theorem endExtended_mon (st : Station) : (s.endExtended st).mon = s.mon := by
  (unfold endExtended; split) <;> simp
@[simp] theorem endExtended_cond (st : Station) : (s.endExtended st).cond = s.cond := by
  (unfold endExtended; split) <;> simp
@[simp] theorem endExtended_pending (st : Station) : (s.endExtended st).pending = s.pending := by
  (unfold endExtended; split) <;> simp

/-! ### `alarm` -/

@[simp] theorem alarm_clock (st : Station) (q : StQuantity) (k : FlagKind) : (s.alarm st q k).clock = s.clock := by
  (unfold alarm; split) <;> simp
@[simp] theorem alarm_pins (st : Station) (q : StQuantity) (k : FlagKind) : (s.alarm st q k).pins = s.pins := by
  (unfold alarm; split) <;> simp
@[simp] theorem alarm_config (st : Station) (q : StQuantity) (k : FlagKind) : (s.alarm st q k).config = s.config := by
  (unfold alarm; split) <;> simp
@[simp] theorem alarm_enc (st : Station) (q : StQuantity) (k : FlagKind) : (s.alarm st q k).enc = s.enc := by
  (unfold alarm; split) <;> simp
@[simp] theorem alarm_mon (st : Station) (q : StQuantity) (k : FlagKind) : (s.alarm st q k).mon = s.mon := by
  (unfold alarm; split) <;> simp
@[simp] theorem alarm_table (st : Station) (q : StQuantity) (k : FlagKind) : (s.alarm st q k).table = s.table := by
  (unfold alarm; split) <;> simp
@[simp] theorem alarm_cond (st : Station) (q : StQuantity) (k : FlagKind) : (s.alarm st q k).cond = s.cond := by
  (unfold alarm; split) <;> simp
@[simp] theorem alarm_store (st : Station) (q : StQuantity) (k : FlagKind) : (s.alarm st q k).store = s.store := by
  (unfold alarm; split) <;> simp
@[simp] theorem alarm_pending (st : Station) (q : StQuantity) (k : FlagKind) : (s.alarm st q k).pending = s.pending := by
  (unfold alarm; split) <;> simp

/-! ### `warn` -/

@[simp] theorem warn_clock (st : Station) (q : StQuantity) (k : FlagKind) : (s.warn st q k).clock = s.clock := by
  (unfold warn; split) <;> simp
@[simp] theorem warn_pins (st : Station) (q : StQuantity) (k : FlagKind) : (s.warn st q k).pins = s.pins := by
  (unfold warn; split) <;> simp
@[simp] theorem warn_link (st : Station) (q : StQuantity) (k : FlagKind) : (s.warn st q k).link = s.link := by
  (unfold warn; split) <;> simp
@[simp] theorem warn_config (st : Station) (q : StQuantity) (k : FlagKind) : (s.warn st q k).config = s.config := by
  (unfold warn; split) <;> simp
@[simp] theorem warn_drive (st : Station) (q : StQuantity) (k : FlagKind) : (s.warn st q k).drive = s.drive := by
  (unfold warn; split) <;> simp
@[simp] theorem warn_enc (st : Station) (q : StQuantity) (k : FlagKind) : (s.warn st q k).enc = s.enc := by
  (unfold warn; split) <;> simp
@[simp] theorem warn_mon (st : Station) (q : StQuantity) (k : FlagKind) : (s.warn st q k).mon = s.mon := by
  (unfold warn; split) <;> simp
@[simp] theorem warn_table (st : Station) (q : StQuantity) (k : FlagKind) : (s.warn st q k).table = s.table := by
  (unfold warn; split) <;> simp
@[simp] theorem warn_noise (st : Station) (q : StQuantity) (k : FlagKind) : (s.warn st q k).noise = s.noise := by
  (unfold warn; split) <;> simp
@[simp] theorem warn_leak (st : Station) (q : StQuantity) (k : FlagKind) : (s.warn st q k).leak = s.leak := by
  (unfold warn; split) <;> simp
@[simp] theorem warn_cond (st : Station) (q : StQuantity) (k : FlagKind) : (s.warn st q k).cond = s.cond := by
  (unfold warn; split) <;> simp
@[simp] theorem warn_store (st : Station) (q : StQuantity) (k : FlagKind) : (s.warn st q k).store = s.store := by
  (unfold warn; split) <;> simp
@[simp] theorem warn_counters (st : Station) (q : StQuantity) (k : FlagKind) : (s.warn st q k).counters = s.counters := by
  (unfold warn; split) <;> simp
@[simp] theorem warn_pending (st : Station) (q : StQuantity) (k : FlagKind) : (s.warn st q k).pending = s.pending := by
  (unfold warn; split) <;> simp

/-! ### `driveFaultReport` -/

@[simp] theorem driveFaultReport_clock (st : Station) : (s.driveFaultReport st).clock = s.clock := by
  (unfold driveFaultReport; repeat' split) <;> simp
@[simp] theorem driveFaultReport_pins (st : Station) : (s.driveFaultReport st).pins = s.pins := by
  (unfold driveFaultReport; repeat' split) <;> simp
@[simp] theorem driveFaultReport_config (st : Station) : (s.driveFaultReport st).config = s.config := by
  (unfold driveFaultReport; repeat' split) <;> simp
@[simp] theorem driveFaultReport_enc (st : Station) : (s.driveFaultReport st).enc = s.enc := by
  (unfold driveFaultReport; repeat' split) <;> simp
@[simp] theorem driveFaultReport_mon (st : Station) : (s.driveFaultReport st).mon = s.mon := by
  (unfold driveFaultReport; repeat' split) <;> simp
@[simp] theorem driveFaultReport_table (st : Station) : (s.driveFaultReport st).table = s.table := by
  (unfold driveFaultReport; repeat' split) <;> simp
@[simp] theorem driveFaultReport_cond (st : Station) : (s.driveFaultReport st).cond = s.cond := by
  (unfold driveFaultReport; repeat' split) <;> simp
@[simp] theorem driveFaultReport_store (st : Station) : (s.driveFaultReport st).store = s.store := by
  (unfold driveFaultReport; repeat' split) <;> simp
@[simp] theorem driveFaultReport_pending (st : Station) : (s.driveFaultReport st).pending = s.pending := by
  (unfold driveFaultReport; repeat' split) <;> simp

/-! ### `estopStation` -/

@[simp] theorem estopStation_clock (st : Station) : (s.estopStation st).clock = s.clock := by
  (unfold estopStation; dsimp only; repeat' split) <;> simp
@[simp] theorem estopStation_pins (st : Station) : (s.estopStation st).pins = s.pins := by
  (unfold estopStation; dsimp only; repeat' split) <;> simp
@[simp] theorem estopStation_config (st : Station) : (s.estopStation st).config = s.config := by
  (unfold estopStation; dsimp only; repeat' split) <;> simp
@[simp] theorem estopStation_enc (st : Station) : (s.estopStation st).enc = s.enc := by
  (unfold estopStation; dsimp only; repeat' split) <;> simp
@[simp] theorem estopStation_mon (st : Station) : (s.estopStation st).mon = s.mon := by
  (unfold estopStation; dsimp only; repeat' split) <;> simp
@[simp] theorem estopStation_cond (st : Station) : (s.estopStation st).cond = s.cond := by
  (unfold estopStation; dsimp only; repeat' split) <;> simp
@[simp] theorem estopStation_pending (st : Station) : (s.estopStation st).pending = s.pending := by
  (unfold estopStation; dsimp only; repeat' split) <;> simp

/-! ### `startTest` -/

@[simp] theorem startTest_clock (st : Station) (f : SttFields) (r : Recipe) (ref : RecipeRef) (thr : Vector Thresholds 6) : (s.startTest st f r ref thr).clock = s.clock := by
  (unfold startTest; dsimp only; repeat' split) <;> simp
@[simp] theorem startTest_pins (st : Station) (f : SttFields) (r : Recipe) (ref : RecipeRef) (thr : Vector Thresholds 6) : (s.startTest st f r ref thr).pins = s.pins := by
  (unfold startTest; dsimp only; repeat' split) <;> simp
@[simp] theorem startTest_config (st : Station) (f : SttFields) (r : Recipe) (ref : RecipeRef) (thr : Vector Thresholds 6) : (s.startTest st f r ref thr).config = s.config := by
  (unfold startTest; dsimp only; repeat' split) <;> simp
@[simp] theorem startTest_enc (st : Station) (f : SttFields) (r : Recipe) (ref : RecipeRef) (thr : Vector Thresholds 6) : (s.startTest st f r ref thr).enc = s.enc := by
  (unfold startTest; dsimp only; repeat' split) <;> simp
@[simp] theorem startTest_cond (st : Station) (f : SttFields) (r : Recipe) (ref : RecipeRef) (thr : Vector Thresholds 6) : (s.startTest st f r ref thr).cond = s.cond := by
  (unfold startTest; dsimp only; repeat' split) <;> simp
@[simp] theorem startTest_store (st : Station) (f : SttFields) (r : Recipe) (ref : RecipeRef) (thr : Vector Thresholds 6) : (s.startTest st f r ref thr).store = s.store := by
  (unfold startTest; dsimp only; repeat' split) <;> simp
@[simp] theorem startTest_pending (st : Station) (f : SttFields) (r : Recipe) (ref : RecipeRef) (thr : Vector Thresholds 6) : (s.startTest st f r ref thr).pending = s.pending := by
  (unfold startTest; dsimp only; repeat' split) <;> simp

/-! ### `decideAndVent` -/

@[simp] theorem decideAndVent_clock (st : Station) (r : LeakResult) : (s.decideAndVent st r).clock = s.clock := by
  (unfold decideAndVent; dsimp only; split) <;> simp
@[simp] theorem decideAndVent_pins (st : Station) (r : LeakResult) : (s.decideAndVent st r).pins = s.pins := by
  (unfold decideAndVent; dsimp only; split) <;> simp
@[simp] theorem decideAndVent_config (st : Station) (r : LeakResult) : (s.decideAndVent st r).config = s.config := by
  (unfold decideAndVent; dsimp only; split) <;> simp
@[simp] theorem decideAndVent_enc (st : Station) (r : LeakResult) : (s.decideAndVent st r).enc = s.enc := by
  (unfold decideAndVent; dsimp only; split) <;> simp
@[simp] theorem decideAndVent_mon (st : Station) (r : LeakResult) : (s.decideAndVent st r).mon = s.mon := by
  (unfold decideAndVent; dsimp only; split) <;> simp
@[simp] theorem decideAndVent_table (st : Station) (r : LeakResult) : (s.decideAndVent st r).table = s.table := by
  (unfold decideAndVent; dsimp only; split) <;> simp
@[simp] theorem decideAndVent_cond (st : Station) (r : LeakResult) : (s.decideAndVent st r).cond = s.cond := by
  (unfold decideAndVent; dsimp only; split) <;> simp
@[simp] theorem decideAndVent_store (st : Station) (r : LeakResult) : (s.decideAndVent st r).store = s.store := by
  (unfold decideAndVent; dsimp only; split) <;> simp
@[simp] theorem decideAndVent_pending (st : Station) (r : LeakResult) : (s.decideAndVent st r).pending = s.pending := by
  (unfold decideAndVent; dsimp only; split) <;> simp

/-! ### `returnLeak` -/

@[simp] theorem returnLeak_clock (st : Station) : (s.returnLeak st).clock = s.clock := by
  (unfold returnLeak; dsimp only; split) <;> simp
@[simp] theorem returnLeak_pins (st : Station) : (s.returnLeak st).pins = s.pins := by
  (unfold returnLeak; dsimp only; split) <;> simp
@[simp] theorem returnLeak_config (st : Station) : (s.returnLeak st).config = s.config := by
  (unfold returnLeak; dsimp only; split) <;> simp
@[simp] theorem returnLeak_enc (st : Station) : (s.returnLeak st).enc = s.enc := by
  (unfold returnLeak; dsimp only; split) <;> simp
@[simp] theorem returnLeak_mon (st : Station) : (s.returnLeak st).mon = s.mon := by
  (unfold returnLeak; dsimp only; split) <;> simp
@[simp] theorem returnLeak_cond (st : Station) : (s.returnLeak st).cond = s.cond := by
  (unfold returnLeak; dsimp only; split) <;> simp
@[simp] theorem returnLeak_pending (st : Station) : (s.returnLeak st).pending = s.pending := by
  (unfold returnLeak; dsimp only; split) <;> simp

/-! ### `standstillExpiry` -/

@[simp] theorem standstillExpiry_clock (st : Station) : (s.standstillExpiry st).clock = s.clock := by
  (unfold standstillExpiry; skip) <;> simp
@[simp] theorem standstillExpiry_pins (st : Station) : (s.standstillExpiry st).pins = s.pins := by
  (unfold standstillExpiry; skip) <;> simp
@[simp] theorem standstillExpiry_config (st : Station) : (s.standstillExpiry st).config = s.config := by
  (unfold standstillExpiry; skip) <;> simp
@[simp] theorem standstillExpiry_enc (st : Station) : (s.standstillExpiry st).enc = s.enc := by
  (unfold standstillExpiry; skip) <;> simp
@[simp] theorem standstillExpiry_mon (st : Station) : (s.standstillExpiry st).mon = s.mon := by
  (unfold standstillExpiry; skip) <;> simp
@[simp] theorem standstillExpiry_cond (st : Station) : (s.standstillExpiry st).cond = s.cond := by
  (unfold standstillExpiry; skip) <;> simp
@[simp] theorem standstillExpiry_pending (st : Station) : (s.standstillExpiry st).pending = s.pending := by
  (unfold standstillExpiry; skip) <;> simp

/-! ### `fillExpiry` -/

@[simp] theorem fillExpiry_clock (st : Station) : (s.fillExpiry st).clock = s.clock := by
  (unfold fillExpiry; dsimp only; repeat' split) <;> simp
@[simp] theorem fillExpiry_pins (st : Station) : (s.fillExpiry st).pins = s.pins := by
  (unfold fillExpiry; dsimp only; repeat' split) <;> simp
@[simp] theorem fillExpiry_config (st : Station) : (s.fillExpiry st).config = s.config := by
  (unfold fillExpiry; dsimp only; repeat' split) <;> simp
@[simp] theorem fillExpiry_enc (st : Station) : (s.fillExpiry st).enc = s.enc := by
  (unfold fillExpiry; dsimp only; repeat' split) <;> simp
@[simp] theorem fillExpiry_mon (st : Station) : (s.fillExpiry st).mon = s.mon := by
  (unfold fillExpiry; dsimp only; repeat' split) <;> simp
@[simp] theorem fillExpiry_table (st : Station) : (s.fillExpiry st).table = s.table := by
  (unfold fillExpiry; dsimp only; repeat' split) <;> simp
@[simp] theorem fillExpiry_cond (st : Station) : (s.fillExpiry st).cond = s.cond := by
  (unfold fillExpiry; dsimp only; repeat' split) <;> simp
@[simp] theorem fillExpiry_store (st : Station) : (s.fillExpiry st).store = s.store := by
  (unfold fillExpiry; dsimp only; repeat' split) <;> simp
@[simp] theorem fillExpiry_pending (st : Station) : (s.fillExpiry st).pending = s.pending := by
  (unfold fillExpiry; dsimp only; repeat' split) <;> simp

/-! ### `settleExpiry` -/

@[simp] theorem settleExpiry_clock (st : Station) : (s.settleExpiry st).clock = s.clock := by
  (unfold settleExpiry; skip) <;> simp
@[simp] theorem settleExpiry_pins (st : Station) : (s.settleExpiry st).pins = s.pins := by
  (unfold settleExpiry; skip) <;> simp
@[simp] theorem settleExpiry_link (st : Station) : (s.settleExpiry st).link = s.link := by
  (unfold settleExpiry; skip) <;> simp
@[simp] theorem settleExpiry_config (st : Station) : (s.settleExpiry st).config = s.config := by
  (unfold settleExpiry; skip) <;> simp
@[simp] theorem settleExpiry_seq (st : Station) : (s.settleExpiry st).seq = s.seq := by
  (unfold settleExpiry; skip) <;> simp
@[simp] theorem settleExpiry_drive (st : Station) : (s.settleExpiry st).drive = s.drive := by
  (unfold settleExpiry; skip) <;> simp
@[simp] theorem settleExpiry_enc (st : Station) : (s.settleExpiry st).enc = s.enc := by
  (unfold settleExpiry; skip) <;> simp
@[simp] theorem settleExpiry_mon (st : Station) : (s.settleExpiry st).mon = s.mon := by
  (unfold settleExpiry; skip) <;> simp
@[simp] theorem settleExpiry_table (st : Station) : (s.settleExpiry st).table = s.table := by
  (unfold settleExpiry; skip) <;> simp
@[simp] theorem settleExpiry_noise (st : Station) : (s.settleExpiry st).noise = s.noise := by
  (unfold settleExpiry; skip) <;> simp
@[simp] theorem settleExpiry_cond (st : Station) : (s.settleExpiry st).cond = s.cond := by
  (unfold settleExpiry; skip) <;> simp
@[simp] theorem settleExpiry_store (st : Station) : (s.settleExpiry st).store = s.store := by
  (unfold settleExpiry; skip) <;> simp
@[simp] theorem settleExpiry_counters (st : Station) : (s.settleExpiry st).counters = s.counters := by
  (unfold settleExpiry; skip) <;> simp
@[simp] theorem settleExpiry_pending (st : Station) : (s.settleExpiry st).pending = s.pending := by
  (unfold settleExpiry; skip) <;> simp

/-! ### `standstillWaitSample` -/

@[simp] theorem standstillWaitSample_clock (st : Station) : (s.standstillWaitSample st).clock = s.clock := by
  (unfold standstillWaitSample; dsimp only; split) <;> simp
@[simp] theorem standstillWaitSample_pins (st : Station) : (s.standstillWaitSample st).pins = s.pins := by
  (unfold standstillWaitSample; dsimp only; split) <;> simp
@[simp] theorem standstillWaitSample_link (st : Station) : (s.standstillWaitSample st).link = s.link := by
  (unfold standstillWaitSample; dsimp only; split) <;> simp
@[simp] theorem standstillWaitSample_config (st : Station) : (s.standstillWaitSample st).config = s.config := by
  (unfold standstillWaitSample; dsimp only; split) <;> simp
@[simp] theorem standstillWaitSample_seq (st : Station) : (s.standstillWaitSample st).seq = s.seq := by
  (unfold standstillWaitSample; dsimp only; split) <;> simp
@[simp] theorem standstillWaitSample_drive (st : Station) : (s.standstillWaitSample st).drive = s.drive := by
  (unfold standstillWaitSample; dsimp only; split) <;> simp
@[simp] theorem standstillWaitSample_enc (st : Station) : (s.standstillWaitSample st).enc = s.enc := by
  (unfold standstillWaitSample; dsimp only; split) <;> simp
@[simp] theorem standstillWaitSample_mon (st : Station) : (s.standstillWaitSample st).mon = s.mon := by
  (unfold standstillWaitSample; dsimp only; split) <;> simp
@[simp] theorem standstillWaitSample_table (st : Station) : (s.standstillWaitSample st).table = s.table := by
  (unfold standstillWaitSample; dsimp only; split) <;> simp
@[simp] theorem standstillWaitSample_noise (st : Station) : (s.standstillWaitSample st).noise = s.noise := by
  (unfold standstillWaitSample; dsimp only; split) <;> simp
@[simp] theorem standstillWaitSample_cond (st : Station) : (s.standstillWaitSample st).cond = s.cond := by
  (unfold standstillWaitSample; dsimp only; split) <;> simp
@[simp] theorem standstillWaitSample_store (st : Station) : (s.standstillWaitSample st).store = s.store := by
  (unfold standstillWaitSample; dsimp only; split) <;> simp
@[simp] theorem standstillWaitSample_pending (st : Station) : (s.standstillWaitSample st).pending = s.pending := by
  (unfold standstillWaitSample; dsimp only; split) <;> simp

/-! ### `settleSample` -/

@[simp] theorem settleSample_clock (st : Station) (l : LeakSpec) : (s.settleSample st l).clock = s.clock := by
  (unfold settleSample; split) <;> simp
@[simp] theorem settleSample_pins (st : Station) (l : LeakSpec) : (s.settleSample st l).pins = s.pins := by
  (unfold settleSample; split) <;> simp
@[simp] theorem settleSample_config (st : Station) (l : LeakSpec) : (s.settleSample st l).config = s.config := by
  (unfold settleSample; split) <;> simp
@[simp] theorem settleSample_enc (st : Station) (l : LeakSpec) : (s.settleSample st l).enc = s.enc := by
  (unfold settleSample; split) <;> simp
@[simp] theorem settleSample_mon (st : Station) (l : LeakSpec) : (s.settleSample st l).mon = s.mon := by
  (unfold settleSample; split) <;> simp
@[simp] theorem settleSample_table (st : Station) (l : LeakSpec) : (s.settleSample st l).table = s.table := by
  (unfold settleSample; split) <;> simp
@[simp] theorem settleSample_cond (st : Station) (l : LeakSpec) : (s.settleSample st l).cond = s.cond := by
  (unfold settleSample; split) <;> simp
@[simp] theorem settleSample_store (st : Station) (l : LeakSpec) : (s.settleSample st l).store = s.store := by
  (unfold settleSample; split) <;> simp
@[simp] theorem settleSample_pending (st : Station) (l : LeakSpec) : (s.settleSample st l).pending = s.pending := by
  (unfold settleSample; split) <;> simp

/-! ### `measureEnd` -/

@[simp] theorem measureEnd_clock (st : Station) (l : LeakSpec) : (s.measureEnd st l).clock = s.clock := by
  (unfold measureEnd; skip) <;> simp
@[simp] theorem measureEnd_pins (st : Station) (l : LeakSpec) : (s.measureEnd st l).pins = s.pins := by
  (unfold measureEnd; skip) <;> simp
@[simp] theorem measureEnd_config (st : Station) (l : LeakSpec) : (s.measureEnd st l).config = s.config := by
  (unfold measureEnd; skip) <;> simp
@[simp] theorem measureEnd_enc (st : Station) (l : LeakSpec) : (s.measureEnd st l).enc = s.enc := by
  (unfold measureEnd; skip) <;> simp
@[simp] theorem measureEnd_mon (st : Station) (l : LeakSpec) : (s.measureEnd st l).mon = s.mon := by
  (unfold measureEnd; skip) <;> simp
@[simp] theorem measureEnd_table (st : Station) (l : LeakSpec) : (s.measureEnd st l).table = s.table := by
  (unfold measureEnd; skip) <;> simp
@[simp] theorem measureEnd_cond (st : Station) (l : LeakSpec) : (s.measureEnd st l).cond = s.cond := by
  (unfold measureEnd; skip) <;> simp
@[simp] theorem measureEnd_store (st : Station) (l : LeakSpec) : (s.measureEnd st l).store = s.store := by
  (unfold measureEnd; skip) <;> simp
@[simp] theorem measureEnd_pending (st : Station) (l : LeakSpec) : (s.measureEnd st l).pending = s.pending := by
  (unfold measureEnd; skip) <;> simp

/-! ### `measureSample` -/

@[simp] theorem measureSample_clock (st : Station) (l : LeakSpec) (q : StQuantity) : (s.measureSample st l q).clock = s.clock := by
  (unfold measureSample; dsimp only; split) <;> simp
@[simp] theorem measureSample_pins (st : Station) (l : LeakSpec) (q : StQuantity) : (s.measureSample st l q).pins = s.pins := by
  (unfold measureSample; dsimp only; split) <;> simp
@[simp] theorem measureSample_config (st : Station) (l : LeakSpec) (q : StQuantity) : (s.measureSample st l q).config = s.config := by
  (unfold measureSample; dsimp only; split) <;> simp
@[simp] theorem measureSample_enc (st : Station) (l : LeakSpec) (q : StQuantity) : (s.measureSample st l q).enc = s.enc := by
  (unfold measureSample; dsimp only; split) <;> simp
@[simp] theorem measureSample_mon (st : Station) (l : LeakSpec) (q : StQuantity) : (s.measureSample st l q).mon = s.mon := by
  (unfold measureSample; dsimp only; split) <;> simp
@[simp] theorem measureSample_table (st : Station) (l : LeakSpec) (q : StQuantity) : (s.measureSample st l q).table = s.table := by
  (unfold measureSample; dsimp only; split) <;> simp
@[simp] theorem measureSample_cond (st : Station) (l : LeakSpec) (q : StQuantity) : (s.measureSample st l q).cond = s.cond := by
  (unfold measureSample; dsimp only; split) <;> simp
@[simp] theorem measureSample_store (st : Station) (l : LeakSpec) (q : StQuantity) : (s.measureSample st l q).store = s.store := by
  (unfold measureSample; dsimp only; split) <;> simp
@[simp] theorem measureSample_pending (st : Station) (l : LeakSpec) (q : StQuantity) : (s.measureSample st l q).pending = s.pending := by
  (unfold measureSample; dsimp only; split) <;> simp

/-! ### `leakSample` -/

@[simp] theorem leakSample_clock (st : Station) (q : StQuantity) : (s.leakSample st q).clock = s.clock := by
  (unfold leakSample; split) <;> simp
@[simp] theorem leakSample_pins (st : Station) (q : StQuantity) : (s.leakSample st q).pins = s.pins := by
  (unfold leakSample; split) <;> simp
@[simp] theorem leakSample_config (st : Station) (q : StQuantity) : (s.leakSample st q).config = s.config := by
  (unfold leakSample; split) <;> simp
@[simp] theorem leakSample_enc (st : Station) (q : StQuantity) : (s.leakSample st q).enc = s.enc := by
  (unfold leakSample; split) <;> simp
@[simp] theorem leakSample_mon (st : Station) (q : StQuantity) : (s.leakSample st q).mon = s.mon := by
  (unfold leakSample; split) <;> simp
@[simp] theorem leakSample_table (st : Station) (q : StQuantity) : (s.leakSample st q).table = s.table := by
  (unfold leakSample; split) <;> simp
@[simp] theorem leakSample_cond (st : Station) (q : StQuantity) : (s.leakSample st q).cond = s.cond := by
  (unfold leakSample; split) <;> simp
@[simp] theorem leakSample_store (st : Station) (q : StQuantity) : (s.leakSample st q).store = s.store := by
  (unfold leakSample; split) <;> simp
@[simp] theorem leakSample_pending (st : Station) (q : StQuantity) : (s.leakSample st q).pending = s.pending := by
  (unfold leakSample; split) <;> simp

/-! ### `leakAlarm` -/

@[simp] theorem leakAlarm_clock (st : Station) (q : StQuantity) (k : FlagKind) : (s.leakAlarm st q k).clock = s.clock := by
  (unfold leakAlarm; split) <;> simp
@[simp] theorem leakAlarm_pins (st : Station) (q : StQuantity) (k : FlagKind) : (s.leakAlarm st q k).pins = s.pins := by
  (unfold leakAlarm; split) <;> simp
@[simp] theorem leakAlarm_config (st : Station) (q : StQuantity) (k : FlagKind) : (s.leakAlarm st q k).config = s.config := by
  (unfold leakAlarm; split) <;> simp
@[simp] theorem leakAlarm_enc (st : Station) (q : StQuantity) (k : FlagKind) : (s.leakAlarm st q k).enc = s.enc := by
  (unfold leakAlarm; split) <;> simp
@[simp] theorem leakAlarm_mon (st : Station) (q : StQuantity) (k : FlagKind) : (s.leakAlarm st q k).mon = s.mon := by
  (unfold leakAlarm; split) <;> simp
@[simp] theorem leakAlarm_table (st : Station) (q : StQuantity) (k : FlagKind) : (s.leakAlarm st q k).table = s.table := by
  (unfold leakAlarm; split) <;> simp
@[simp] theorem leakAlarm_cond (st : Station) (q : StQuantity) (k : FlagKind) : (s.leakAlarm st q k).cond = s.cond := by
  (unfold leakAlarm; split) <;> simp
@[simp] theorem leakAlarm_store (st : Station) (q : StQuantity) (k : FlagKind) : (s.leakAlarm st q k).store = s.store := by
  (unfold leakAlarm; split) <;> simp
@[simp] theorem leakAlarm_pending (st : Station) (q : StQuantity) (k : FlagKind) : (s.leakAlarm st q k).pending = s.pending := by
  (unfold leakAlarm; split) <;> simp

/-! ### `supplyFault` -/

@[simp] theorem supplyFault_clock : (s.supplyFault).clock = s.clock := by
  (unfold supplyFault; repeat' split) <;> simp
@[simp] theorem supplyFault_pins : (s.supplyFault).pins = s.pins := by
  (unfold supplyFault; repeat' split) <;> simp
@[simp] theorem supplyFault_config : (s.supplyFault).config = s.config := by
  (unfold supplyFault; repeat' split) <;> simp
@[simp] theorem supplyFault_enc : (s.supplyFault).enc = s.enc := by
  (unfold supplyFault; repeat' split) <;> simp
@[simp] theorem supplyFault_mon : (s.supplyFault).mon = s.mon := by
  (unfold supplyFault; repeat' split) <;> simp
@[simp] theorem supplyFault_table : (s.supplyFault).table = s.table := by
  (unfold supplyFault; repeat' split) <;> simp
@[simp] theorem supplyFault_cond : (s.supplyFault).cond = s.cond := by
  (unfold supplyFault; repeat' split) <;> simp
@[simp] theorem supplyFault_store : (s.supplyFault).store = s.store := by
  (unfold supplyFault; repeat' split) <;> simp
@[simp] theorem supplyFault_pending : (s.supplyFault).pending = s.pending := by
  (unfold supplyFault; repeat' split) <;> simp

/-! ### `dwellExpiry` -/

@[simp] theorem dwellExpiry_clock (st : Station) : (s.dwellExpiry st).clock = s.clock := by
  (unfold dwellExpiry; repeat' split) <;> simp
@[simp] theorem dwellExpiry_pins (st : Station) : (s.dwellExpiry st).pins = s.pins := by
  (unfold dwellExpiry; repeat' split) <;> simp
@[simp] theorem dwellExpiry_config (st : Station) : (s.dwellExpiry st).config = s.config := by
  (unfold dwellExpiry; repeat' split) <;> simp
@[simp] theorem dwellExpiry_enc (st : Station) : (s.dwellExpiry st).enc = s.enc := by
  (unfold dwellExpiry; repeat' split) <;> simp
@[simp] theorem dwellExpiry_mon (st : Station) : (s.dwellExpiry st).mon = s.mon := by
  (unfold dwellExpiry; repeat' split) <;> simp
@[simp] theorem dwellExpiry_cond (st : Station) : (s.dwellExpiry st).cond = s.cond := by
  (unfold dwellExpiry; repeat' split) <;> simp
@[simp] theorem dwellExpiry_pending (st : Station) : (s.dwellExpiry st).pending = s.pending := by
  (unfold dwellExpiry; repeat' split) <;> simp

/-! ### `extendTimeout` -/

@[simp] theorem extendTimeout_clock (st : Station) : (s.extendTimeout st).clock = s.clock := by
  (unfold extendTimeout; split) <;> simp
@[simp] theorem extendTimeout_pins (st : Station) : (s.extendTimeout st).pins = s.pins := by
  (unfold extendTimeout; split) <;> simp
@[simp] theorem extendTimeout_config (st : Station) : (s.extendTimeout st).config = s.config := by
  (unfold extendTimeout; split) <;> simp
@[simp] theorem extendTimeout_enc (st : Station) : (s.extendTimeout st).enc = s.enc := by
  (unfold extendTimeout; split) <;> simp
@[simp] theorem extendTimeout_mon (st : Station) : (s.extendTimeout st).mon = s.mon := by
  (unfold extendTimeout; split) <;> simp
@[simp] theorem extendTimeout_table (st : Station) : (s.extendTimeout st).table = s.table := by
  (unfold extendTimeout; split) <;> simp
@[simp] theorem extendTimeout_cond (st : Station) : (s.extendTimeout st).cond = s.cond := by
  (unfold extendTimeout; split) <;> simp
@[simp] theorem extendTimeout_store (st : Station) : (s.extendTimeout st).store = s.store := by
  (unfold extendTimeout; split) <;> simp
@[simp] theorem extendTimeout_pending (st : Station) : (s.extendTimeout st).pending = s.pending := by
  (unfold extendTimeout; split) <;> simp

/-! ### `gateTimeout` -/

@[simp] theorem gateTimeout_clock (st : Station) : (s.gateTimeout st).clock = s.clock := by
  (unfold gateTimeout; split) <;> simp
@[simp] theorem gateTimeout_pins (st : Station) : (s.gateTimeout st).pins = s.pins := by
  (unfold gateTimeout; split) <;> simp
@[simp] theorem gateTimeout_config (st : Station) : (s.gateTimeout st).config = s.config := by
  (unfold gateTimeout; split) <;> simp
@[simp] theorem gateTimeout_enc (st : Station) : (s.gateTimeout st).enc = s.enc := by
  (unfold gateTimeout; split) <;> simp
@[simp] theorem gateTimeout_mon (st : Station) : (s.gateTimeout st).mon = s.mon := by
  (unfold gateTimeout; split) <;> simp
@[simp] theorem gateTimeout_cond (st : Station) : (s.gateTimeout st).cond = s.cond := by
  (unfold gateTimeout; split) <;> simp
@[simp] theorem gateTimeout_pending (st : Station) : (s.gateTimeout st).pending = s.pending := by
  (unfold gateTimeout; split) <;> simp

/-! ### `stopTimeout` -/

@[simp] theorem stopTimeout_clock (st : Station) : (s.stopTimeout st).clock = s.clock := by
  (unfold stopTimeout; skip) <;> simp
@[simp] theorem stopTimeout_pins (st : Station) : (s.stopTimeout st).pins = s.pins := by
  (unfold stopTimeout; skip) <;> simp
@[simp] theorem stopTimeout_config (st : Station) : (s.stopTimeout st).config = s.config := by
  (unfold stopTimeout; skip) <;> simp
@[simp] theorem stopTimeout_enc (st : Station) : (s.stopTimeout st).enc = s.enc := by
  (unfold stopTimeout; skip) <;> simp
@[simp] theorem stopTimeout_mon (st : Station) : (s.stopTimeout st).mon = s.mon := by
  (unfold stopTimeout; skip) <;> simp
@[simp] theorem stopTimeout_cond (st : Station) : (s.stopTimeout st).cond = s.cond := by
  (unfold stopTimeout; skip) <;> simp
@[simp] theorem stopTimeout_pending (st : Station) : (s.stopTimeout st).pending = s.pending := by
  (unfold stopTimeout; skip) <;> simp

/-! ### `rampSample` -/

@[simp] theorem rampSample_clock (st : Station) (x : StepCtx) (t : Int) (a b : Nat) : (s.rampSample st x t a b).clock = s.clock := by
  (unfold rampSample; dsimp only; repeat' split) <;> simp
@[simp] theorem rampSample_pins (st : Station) (x : StepCtx) (t : Int) (a b : Nat) : (s.rampSample st x t a b).pins = s.pins := by
  (unfold rampSample; dsimp only; repeat' split) <;> simp
@[simp] theorem rampSample_config (st : Station) (x : StepCtx) (t : Int) (a b : Nat) : (s.rampSample st x t a b).config = s.config := by
  (unfold rampSample; dsimp only; repeat' split) <;> simp
@[simp] theorem rampSample_enc (st : Station) (x : StepCtx) (t : Int) (a b : Nat) : (s.rampSample st x t a b).enc = s.enc := by
  (unfold rampSample; dsimp only; repeat' split) <;> simp
@[simp] theorem rampSample_mon (st : Station) (x : StepCtx) (t : Int) (a b : Nat) : (s.rampSample st x t a b).mon = s.mon := by
  (unfold rampSample; dsimp only; repeat' split) <;> simp
@[simp] theorem rampSample_cond (st : Station) (x : StepCtx) (t : Int) (a b : Nat) : (s.rampSample st x t a b).cond = s.cond := by
  (unfold rampSample; dsimp only; repeat' split) <;> simp
@[simp] theorem rampSample_pending (st : Station) (x : StepCtx) (t : Int) (a b : Nat) : (s.rampSample st x t a b).pending = s.pending := by
  (unfold rampSample; dsimp only; repeat' split) <;> simp

/-! ### `gateSample` -/

@[simp] theorem gateSample_clock (st : Station) (x : StepCtx) (q : StQuantity) (r : GateRelation) (v : Int) (h : Nat) : (s.gateSample st x q r v h).clock = s.clock := by
  (unfold gateSample; dsimp only; repeat' split) <;> simp
@[simp] theorem gateSample_pins (st : Station) (x : StepCtx) (q : StQuantity) (r : GateRelation) (v : Int) (h : Nat) : (s.gateSample st x q r v h).pins = s.pins := by
  (unfold gateSample; dsimp only; repeat' split) <;> simp
@[simp] theorem gateSample_config (st : Station) (x : StepCtx) (q : StQuantity) (r : GateRelation) (v : Int) (h : Nat) : (s.gateSample st x q r v h).config = s.config := by
  (unfold gateSample; dsimp only; repeat' split) <;> simp
@[simp] theorem gateSample_enc (st : Station) (x : StepCtx) (q : StQuantity) (r : GateRelation) (v : Int) (h : Nat) : (s.gateSample st x q r v h).enc = s.enc := by
  (unfold gateSample; dsimp only; repeat' split) <;> simp
@[simp] theorem gateSample_mon (st : Station) (x : StepCtx) (q : StQuantity) (r : GateRelation) (v : Int) (h : Nat) : (s.gateSample st x q r v h).mon = s.mon := by
  (unfold gateSample; dsimp only; repeat' split) <;> simp
@[simp] theorem gateSample_cond (st : Station) (x : StepCtx) (q : StQuantity) (r : GateRelation) (v : Int) (h : Nat) : (s.gateSample st x q r v h).cond = s.cond := by
  (unfold gateSample; dsimp only; repeat' split) <;> simp
@[simp] theorem gateSample_pending (st : Station) (x : StepCtx) (q : StQuantity) (r : GateRelation) (v : Int) (h : Nat) : (s.gateSample st x q r v h).pending = s.pending := by
  (unfold gateSample; dsimp only; repeat' split) <;> simp

/-! ### `checkAveraged` -/

@[simp] theorem checkAveraged_clock (st : Station) (x : StepCtx) (q : StQuantity) (m : CheckMode) (r : Int) (t n : Nat) (u : Int) : (s.checkAveraged st x q m r t n u).clock = s.clock := by
  (unfold checkAveraged; dsimp only; split) <;> simp
@[simp] theorem checkAveraged_pins (st : Station) (x : StepCtx) (q : StQuantity) (m : CheckMode) (r : Int) (t n : Nat) (u : Int) : (s.checkAveraged st x q m r t n u).pins = s.pins := by
  (unfold checkAveraged; dsimp only; split) <;> simp
@[simp] theorem checkAveraged_config (st : Station) (x : StepCtx) (q : StQuantity) (m : CheckMode) (r : Int) (t n : Nat) (u : Int) : (s.checkAveraged st x q m r t n u).config = s.config := by
  (unfold checkAveraged; dsimp only; split) <;> simp
@[simp] theorem checkAveraged_enc (st : Station) (x : StepCtx) (q : StQuantity) (m : CheckMode) (r : Int) (t n : Nat) (u : Int) : (s.checkAveraged st x q m r t n u).enc = s.enc := by
  (unfold checkAveraged; dsimp only; split) <;> simp
@[simp] theorem checkAveraged_mon (st : Station) (x : StepCtx) (q : StQuantity) (m : CheckMode) (r : Int) (t n : Nat) (u : Int) : (s.checkAveraged st x q m r t n u).mon = s.mon := by
  (unfold checkAveraged; dsimp only; split) <;> simp
@[simp] theorem checkAveraged_cond (st : Station) (x : StepCtx) (q : StQuantity) (m : CheckMode) (r : Int) (t n : Nat) (u : Int) : (s.checkAveraged st x q m r t n u).cond = s.cond := by
  (unfold checkAveraged; dsimp only; split) <;> simp
@[simp] theorem checkAveraged_pending (st : Station) (x : StepCtx) (q : StQuantity) (m : CheckMode) (r : Int) (t n : Nat) (u : Int) : (s.checkAveraged st x q m r t n u).pending = s.pending := by
  (unfold checkAveraged; dsimp only; split) <;> simp

/-! ### `checkSample` -/

@[simp] theorem checkSample_clock (st : Station) (x : StepCtx) (q : StQuantity) (a : Nat) (m : CheckMode) (r : Int) (t : Nat) (u : Int) (c : Nat) : (s.checkSample st x q a m r t u c).clock = s.clock := by
  (unfold checkSample; dsimp only; split) <;> simp
@[simp] theorem checkSample_pins (st : Station) (x : StepCtx) (q : StQuantity) (a : Nat) (m : CheckMode) (r : Int) (t : Nat) (u : Int) (c : Nat) : (s.checkSample st x q a m r t u c).pins = s.pins := by
  (unfold checkSample; dsimp only; split) <;> simp
@[simp] theorem checkSample_config (st : Station) (x : StepCtx) (q : StQuantity) (a : Nat) (m : CheckMode) (r : Int) (t : Nat) (u : Int) (c : Nat) : (s.checkSample st x q a m r t u c).config = s.config := by
  (unfold checkSample; dsimp only; split) <;> simp
@[simp] theorem checkSample_enc (st : Station) (x : StepCtx) (q : StQuantity) (a : Nat) (m : CheckMode) (r : Int) (t : Nat) (u : Int) (c : Nat) : (s.checkSample st x q a m r t u c).enc = s.enc := by
  (unfold checkSample; dsimp only; split) <;> simp
@[simp] theorem checkSample_mon (st : Station) (x : StepCtx) (q : StQuantity) (a : Nat) (m : CheckMode) (r : Int) (t : Nat) (u : Int) (c : Nat) : (s.checkSample st x q a m r t u c).mon = s.mon := by
  (unfold checkSample; dsimp only; split) <;> simp
@[simp] theorem checkSample_cond (st : Station) (x : StepCtx) (q : StQuantity) (a : Nat) (m : CheckMode) (r : Int) (t : Nat) (u : Int) (c : Nat) : (s.checkSample st x q a m r t u c).cond = s.cond := by
  (unfold checkSample; dsimp only; split) <;> simp
@[simp] theorem checkSample_pending (st : Station) (x : StepCtx) (q : StQuantity) (a : Nat) (m : CheckMode) (r : Int) (t : Nat) (u : Int) (c : Nat) : (s.checkSample st x q a m r t u c).pending = s.pending := by
  (unfold checkSample; dsimp only; split) <;> simp

/-! ### `stoppingSample` -/

@[simp] theorem stoppingSample_clock (st : Station) : (s.stoppingSample st).clock = s.clock := by
  (unfold stoppingSample; dsimp only; repeat' split) <;> simp
@[simp] theorem stoppingSample_pins (st : Station) : (s.stoppingSample st).pins = s.pins := by
  (unfold stoppingSample; dsimp only; repeat' split) <;> simp
@[simp] theorem stoppingSample_config (st : Station) : (s.stoppingSample st).config = s.config := by
  (unfold stoppingSample; dsimp only; repeat' split) <;> simp
@[simp] theorem stoppingSample_enc (st : Station) : (s.stoppingSample st).enc = s.enc := by
  (unfold stoppingSample; dsimp only; repeat' split) <;> simp
@[simp] theorem stoppingSample_mon (st : Station) : (s.stoppingSample st).mon = s.mon := by
  (unfold stoppingSample; dsimp only; repeat' split) <;> simp
@[simp] theorem stoppingSample_cond (st : Station) : (s.stoppingSample st).cond = s.cond := by
  (unfold stoppingSample; dsimp only; repeat' split) <;> simp
@[simp] theorem stoppingSample_pending (st : Station) : (s.stoppingSample st).pending = s.pending := by
  (unfold stoppingSample; dsimp only; repeat' split) <;> simp

/-! ### `flagNotice` -/

@[simp] theorem flagNotice_clock (sc : Option Station) (q : Quantity) (h : Int) (k : FlagKind) : (s.flagNotice sc q h k).clock = s.clock := by
  (unfold flagNotice; split) <;> simp
@[simp] theorem flagNotice_pins (sc : Option Station) (q : Quantity) (h : Int) (k : FlagKind) : (s.flagNotice sc q h k).pins = s.pins := by
  (unfold flagNotice; split) <;> simp
@[simp] theorem flagNotice_config (sc : Option Station) (q : Quantity) (h : Int) (k : FlagKind) : (s.flagNotice sc q h k).config = s.config := by
  (unfold flagNotice; split) <;> simp
@[simp] theorem flagNotice_seq (sc : Option Station) (q : Quantity) (h : Int) (k : FlagKind) : (s.flagNotice sc q h k).seq = s.seq := by
  (unfold flagNotice; split) <;> simp
@[simp] theorem flagNotice_drive (sc : Option Station) (q : Quantity) (h : Int) (k : FlagKind) : (s.flagNotice sc q h k).drive = s.drive := by
  (unfold flagNotice; split) <;> simp
@[simp] theorem flagNotice_enc (sc : Option Station) (q : Quantity) (h : Int) (k : FlagKind) : (s.flagNotice sc q h k).enc = s.enc := by
  (unfold flagNotice; split) <;> simp
@[simp] theorem flagNotice_mon (sc : Option Station) (q : Quantity) (h : Int) (k : FlagKind) : (s.flagNotice sc q h k).mon = s.mon := by
  (unfold flagNotice; split) <;> simp
@[simp] theorem flagNotice_table (sc : Option Station) (q : Quantity) (h : Int) (k : FlagKind) : (s.flagNotice sc q h k).table = s.table := by
  (unfold flagNotice; split) <;> simp
@[simp] theorem flagNotice_noise (sc : Option Station) (q : Quantity) (h : Int) (k : FlagKind) : (s.flagNotice sc q h k).noise = s.noise := by
  (unfold flagNotice; split) <;> simp
@[simp] theorem flagNotice_leak (sc : Option Station) (q : Quantity) (h : Int) (k : FlagKind) : (s.flagNotice sc q h k).leak = s.leak := by
  (unfold flagNotice; split) <;> simp
@[simp] theorem flagNotice_cond (sc : Option Station) (q : Quantity) (h : Int) (k : FlagKind) : (s.flagNotice sc q h k).cond = s.cond := by
  (unfold flagNotice; split) <;> simp
@[simp] theorem flagNotice_store (sc : Option Station) (q : Quantity) (h : Int) (k : FlagKind) : (s.flagNotice sc q h k).store = s.store := by
  (unfold flagNotice; split) <;> simp
@[simp] theorem flagNotice_pending (sc : Option Station) (q : Quantity) (h : Int) (k : FlagKind) : (s.flagNotice sc q h k).pending = s.pending := by
  (unfold flagNotice; split) <;> simp

/-! ### `handOn` -/

@[simp] theorem handOn_clock (st : Station) (q : StQuantity) (h : Int) (k : FlagKind) : (handOn st q h s k).clock = s.clock := by
  (unfold handOn; dsimp only; split) <;> simp
@[simp] theorem handOn_pins (st : Station) (q : StQuantity) (h : Int) (k : FlagKind) : (handOn st q h s k).pins = s.pins := by
  (unfold handOn; dsimp only; split) <;> simp
@[simp] theorem handOn_config (st : Station) (q : StQuantity) (h : Int) (k : FlagKind) : (handOn st q h s k).config = s.config := by
  (unfold handOn; dsimp only; split) <;> simp
@[simp] theorem handOn_enc (st : Station) (q : StQuantity) (h : Int) (k : FlagKind) : (handOn st q h s k).enc = s.enc := by
  (unfold handOn; dsimp only; split) <;> simp
@[simp] theorem handOn_mon (st : Station) (q : StQuantity) (h : Int) (k : FlagKind) : (handOn st q h s k).mon = s.mon := by
  (unfold handOn; dsimp only; split) <;> simp
@[simp] theorem handOn_table (st : Station) (q : StQuantity) (h : Int) (k : FlagKind) : (handOn st q h s k).table = s.table := by
  (unfold handOn; dsimp only; split) <;> simp
@[simp] theorem handOn_cond (st : Station) (q : StQuantity) (h : Int) (k : FlagKind) : (handOn st q h s k).cond = s.cond := by
  (unfold handOn; dsimp only; split) <;> simp
@[simp] theorem handOn_store (st : Station) (q : StQuantity) (h : Int) (k : FlagKind) : (handOn st q h s k).store = s.store := by
  (unfold handOn; dsimp only; split) <;> simp
@[simp] theorem handOn_pending (st : Station) (q : StQuantity) (h : Int) (k : FlagKind) : (handOn st q h s k).pending = s.pending := by
  (unfold handOn; dsimp only; split) <;> simp

/-! ### `judgeStep` -/

@[simp] theorem judgeStep_clock (st : Station) (q : StQuantity) : (s.judgeStep st q).clock = s.clock := by
  (unfold judgeStep; repeat' split) <;> simp
@[simp] theorem judgeStep_pins (st : Station) (q : StQuantity) : (s.judgeStep st q).pins = s.pins := by
  (unfold judgeStep; repeat' split) <;> simp
@[simp] theorem judgeStep_config (st : Station) (q : StQuantity) : (s.judgeStep st q).config = s.config := by
  (unfold judgeStep; repeat' split) <;> simp
@[simp] theorem judgeStep_enc (st : Station) (q : StQuantity) : (s.judgeStep st q).enc = s.enc := by
  (unfold judgeStep; repeat' split) <;> simp
@[simp] theorem judgeStep_mon (st : Station) (q : StQuantity) : (s.judgeStep st q).mon = s.mon := by
  (unfold judgeStep; repeat' split) <;> simp
@[simp] theorem judgeStep_cond (st : Station) (q : StQuantity) : (s.judgeStep st q).cond = s.cond := by
  (unfold judgeStep; repeat' split) <;> simp
@[simp] theorem judgeStep_pending (st : Station) (q : StQuantity) : (s.judgeStep st q).pending = s.pending := by
  (unfold judgeStep; repeat' split) <;> simp

/-! ### `readSample` -/

@[simp] theorem readSample_clock (t : State) (x : SensorInput) : (readSample t s x).clock = s.clock := by
  (unfold readSample; repeat' split) <;> simp
@[simp] theorem readSample_pins (t : State) (x : SensorInput) : (readSample t s x).pins = s.pins := by
  (unfold readSample; repeat' split) <;> simp
@[simp] theorem readSample_config (t : State) (x : SensorInput) : (readSample t s x).config = s.config := by
  (unfold readSample; repeat' split) <;> simp
@[simp] theorem readSample_enc (t : State) (x : SensorInput) : (readSample t s x).enc = s.enc := by
  (unfold readSample; repeat' split) <;> simp
@[simp] theorem readSample_mon (t : State) (x : SensorInput) : (readSample t s x).mon = s.mon := by
  (unfold readSample; repeat' split) <;> simp
@[simp] theorem readSample_cond (t : State) (x : SensorInput) : (readSample t s x).cond = s.cond := by
  (unfold readSample; repeat' split) <;> simp
@[simp] theorem readSample_pending (t : State) (x : SensorInput) : (readSample t s x).pending = s.pending := by
  (unfold readSample; repeat' split) <;> simp

/-! ### `closeUnsteady` -/

@[simp] theorem closeUnsteady_clock (st : Station) (e : EngineId) (g : Nat) : (s.closeUnsteady st e g).clock = s.clock := by
  (unfold closeUnsteady; dsimp only; split) <;> simp
@[simp] theorem closeUnsteady_pins (st : Station) (e : EngineId) (g : Nat) : (s.closeUnsteady st e g).pins = s.pins := by
  (unfold closeUnsteady; dsimp only; split) <;> simp
@[simp] theorem closeUnsteady_config (st : Station) (e : EngineId) (g : Nat) : (s.closeUnsteady st e g).config = s.config := by
  (unfold closeUnsteady; dsimp only; split) <;> simp
@[simp] theorem closeUnsteady_enc (st : Station) (e : EngineId) (g : Nat) : (s.closeUnsteady st e g).enc = s.enc := by
  (unfold closeUnsteady; dsimp only; split) <;> simp
@[simp] theorem closeUnsteady_mon (st : Station) (e : EngineId) (g : Nat) : (s.closeUnsteady st e g).mon = s.mon := by
  (unfold closeUnsteady; dsimp only; split) <;> simp
@[simp] theorem closeUnsteady_cond (st : Station) (e : EngineId) (g : Nat) : (s.closeUnsteady st e g).cond = s.cond := by
  (unfold closeUnsteady; dsimp only; split) <;> simp
@[simp] theorem closeUnsteady_pending (st : Station) (e : EngineId) (g : Nat) : (s.closeUnsteady st e g).pending = s.pending := by
  (unfold closeUnsteady; dsimp only; split) <;> simp

/-! ### `acceptRevolution` -/

@[simp] theorem acceptRevolution_clock (st : Station) (e : EngineId) (r : AccelReading) : (s.acceptRevolution st e r).clock = s.clock := by
  (unfold acceptRevolution; dsimp only) <;> simp
@[simp] theorem acceptRevolution_pins (st : Station) (e : EngineId) (r : AccelReading) : (s.acceptRevolution st e r).pins = s.pins := by
  (unfold acceptRevolution; dsimp only) <;> simp
@[simp] theorem acceptRevolution_link (st : Station) (e : EngineId) (r : AccelReading) : (s.acceptRevolution st e r).link = s.link := by
  (unfold acceptRevolution; dsimp only) <;> simp
@[simp] theorem acceptRevolution_config (st : Station) (e : EngineId) (r : AccelReading) : (s.acceptRevolution st e r).config = s.config := by
  (unfold acceptRevolution; dsimp only) <;> simp
@[simp] theorem acceptRevolution_seq (st : Station) (e : EngineId) (r : AccelReading) : (s.acceptRevolution st e r).seq = s.seq := by
  (unfold acceptRevolution; dsimp only) <;> simp
@[simp] theorem acceptRevolution_drive (st : Station) (e : EngineId) (r : AccelReading) : (s.acceptRevolution st e r).drive = s.drive := by
  (unfold acceptRevolution; dsimp only) <;> simp
@[simp] theorem acceptRevolution_enc (st : Station) (e : EngineId) (r : AccelReading) : (s.acceptRevolution st e r).enc = s.enc := by
  (unfold acceptRevolution; dsimp only) <;> simp
@[simp] theorem acceptRevolution_mon (st : Station) (e : EngineId) (r : AccelReading) : (s.acceptRevolution st e r).mon = s.mon := by
  (unfold acceptRevolution; dsimp only) <;> simp
@[simp] theorem acceptRevolution_table (st : Station) (e : EngineId) (r : AccelReading) : (s.acceptRevolution st e r).table = s.table := by
  (unfold acceptRevolution; dsimp only) <;> simp
@[simp] theorem acceptRevolution_leak (st : Station) (e : EngineId) (r : AccelReading) : (s.acceptRevolution st e r).leak = s.leak := by
  (unfold acceptRevolution; dsimp only) <;> simp
@[simp] theorem acceptRevolution_cond (st : Station) (e : EngineId) (r : AccelReading) : (s.acceptRevolution st e r).cond = s.cond := by
  (unfold acceptRevolution; dsimp only) <;> simp
@[simp] theorem acceptRevolution_store (st : Station) (e : EngineId) (r : AccelReading) : (s.acceptRevolution st e r).store = s.store := by
  (unfold acceptRevolution; dsimp only) <;> simp
@[simp] theorem acceptRevolution_pending (st : Station) (e : EngineId) (r : AccelReading) : (s.acceptRevolution st e r).pending = s.pending := by
  (unfold acceptRevolution; dsimp only) <;> simp

/-! ### `discardRevolution` -/

@[simp] theorem discardRevolution_clock (st : Station) (e : EngineId) (l : GroupLine) (c : Bool) (r : AccelReading) : (s.discardRevolution st e l c r).clock = s.clock := by
  (unfold discardRevolution; dsimp only; repeat' split) <;> simp
@[simp] theorem discardRevolution_pins (st : Station) (e : EngineId) (l : GroupLine) (c : Bool) (r : AccelReading) : (s.discardRevolution st e l c r).pins = s.pins := by
  (unfold discardRevolution; dsimp only; repeat' split) <;> simp
@[simp] theorem discardRevolution_config (st : Station) (e : EngineId) (l : GroupLine) (c : Bool) (r : AccelReading) : (s.discardRevolution st e l c r).config = s.config := by
  (unfold discardRevolution; dsimp only; repeat' split) <;> simp
@[simp] theorem discardRevolution_enc (st : Station) (e : EngineId) (l : GroupLine) (c : Bool) (r : AccelReading) : (s.discardRevolution st e l c r).enc = s.enc := by
  (unfold discardRevolution; dsimp only; repeat' split) <;> simp
@[simp] theorem discardRevolution_mon (st : Station) (e : EngineId) (l : GroupLine) (c : Bool) (r : AccelReading) : (s.discardRevolution st e l c r).mon = s.mon := by
  (unfold discardRevolution; dsimp only; repeat' split) <;> simp
@[simp] theorem discardRevolution_cond (st : Station) (e : EngineId) (l : GroupLine) (c : Bool) (r : AccelReading) : (s.discardRevolution st e l c r).cond = s.cond := by
  (unfold discardRevolution; dsimp only; repeat' split) <;> simp
@[simp] theorem discardRevolution_pending (st : Station) (e : EngineId) (l : GroupLine) (c : Bool) (r : AccelReading) : (s.discardRevolution st e l c r).pending = s.pending := by
  (unfold discardRevolution; dsimp only; repeat' split) <;> simp

/-! ### `deferredClaim` -/

@[simp] theorem deferredClaim_clock (st : Station) : (s.deferredClaim st).clock = s.clock := by
  (unfold deferredClaim; dsimp only; repeat' split) <;> simp
@[simp] theorem deferredClaim_pins (st : Station) : (s.deferredClaim st).pins = s.pins := by
  (unfold deferredClaim; dsimp only; repeat' split) <;> simp
@[simp] theorem deferredClaim_config (st : Station) : (s.deferredClaim st).config = s.config := by
  (unfold deferredClaim; dsimp only; repeat' split) <;> simp
@[simp] theorem deferredClaim_enc (st : Station) : (s.deferredClaim st).enc = s.enc := by
  (unfold deferredClaim; dsimp only; repeat' split) <;> simp
@[simp] theorem deferredClaim_mon (st : Station) : (s.deferredClaim st).mon = s.mon := by
  (unfold deferredClaim; dsimp only; repeat' split) <;> simp
@[simp] theorem deferredClaim_cond (st : Station) : (s.deferredClaim st).cond = s.cond := by
  (unfold deferredClaim; dsimp only; repeat' split) <;> simp
@[simp] theorem deferredClaim_pending (st : Station) : (s.deferredClaim st).pending = s.pending := by
  (unfold deferredClaim; dsimp only; repeat' split) <;> simp

/-! ### `completion` -/

@[simp] theorem completion_clock (e : EngineId) : (s.completion e).clock = s.clock := by
  (unfold completion; dsimp only; repeat' split) <;> simp
@[simp] theorem completion_pins (e : EngineId) : (s.completion e).pins = s.pins := by
  (unfold completion; dsimp only; repeat' split) <;> simp
@[simp] theorem completion_config (e : EngineId) : (s.completion e).config = s.config := by
  (unfold completion; dsimp only; repeat' split) <;> simp
@[simp] theorem completion_enc (e : EngineId) : (s.completion e).enc = s.enc := by
  (unfold completion; dsimp only; repeat' split) <;> simp
@[simp] theorem completion_mon (e : EngineId) : (s.completion e).mon = s.mon := by
  (unfold completion; dsimp only; repeat' split) <;> simp
@[simp] theorem completion_cond (e : EngineId) : (s.completion e).cond = s.cond := by
  (unfold completion; dsimp only; repeat' split) <;> simp
@[simp] theorem completion_pending (e : EngineId) : (s.completion e).pending = s.pending := by
  (unfold completion; dsimp only; repeat' split) <;> simp

/-! ### `engineWaitExpiry` -/

@[simp] theorem engineWaitExpiry_clock (st : Station) : (s.engineWaitExpiry st).clock = s.clock := by
  (unfold engineWaitExpiry; split) <;> simp
@[simp] theorem engineWaitExpiry_pins (st : Station) : (s.engineWaitExpiry st).pins = s.pins := by
  (unfold engineWaitExpiry; split) <;> simp
@[simp] theorem engineWaitExpiry_config (st : Station) : (s.engineWaitExpiry st).config = s.config := by
  (unfold engineWaitExpiry; split) <;> simp
@[simp] theorem engineWaitExpiry_enc (st : Station) : (s.engineWaitExpiry st).enc = s.enc := by
  (unfold engineWaitExpiry; split) <;> simp
@[simp] theorem engineWaitExpiry_mon (st : Station) : (s.engineWaitExpiry st).mon = s.mon := by
  (unfold engineWaitExpiry; split) <;> simp
@[simp] theorem engineWaitExpiry_cond (st : Station) : (s.engineWaitExpiry st).cond = s.cond := by
  (unfold engineWaitExpiry; split) <;> simp
@[simp] theorem engineWaitExpiry_pending (st : Station) : (s.engineWaitExpiry st).pending = s.pending := by
  (unfold engineWaitExpiry; split) <;> simp

/-! ### `driveFaultInput` -/

@[simp] theorem driveFaultInput_clock (st : Station) (a : Bool) : (s.driveFaultInput st a).clock = s.clock := by
  (unfold driveFaultInput; dsimp only; split) <;> simp
@[simp] theorem driveFaultInput_config (st : Station) (a : Bool) : (s.driveFaultInput st a).config = s.config := by
  (unfold driveFaultInput; dsimp only; split) <;> simp
@[simp] theorem driveFaultInput_enc (st : Station) (a : Bool) : (s.driveFaultInput st a).enc = s.enc := by
  (unfold driveFaultInput; dsimp only; split) <;> simp
@[simp] theorem driveFaultInput_mon (st : Station) (a : Bool) : (s.driveFaultInput st a).mon = s.mon := by
  (unfold driveFaultInput; dsimp only; split) <;> simp
@[simp] theorem driveFaultInput_table (st : Station) (a : Bool) : (s.driveFaultInput st a).table = s.table := by
  (unfold driveFaultInput; dsimp only; split) <;> simp
@[simp] theorem driveFaultInput_cond (st : Station) (a : Bool) : (s.driveFaultInput st a).cond = s.cond := by
  (unfold driveFaultInput; dsimp only; split) <;> simp
@[simp] theorem driveFaultInput_store (st : Station) (a : Bool) : (s.driveFaultInput st a).store = s.store := by
  (unfold driveFaultInput; dsimp only; split) <;> simp
@[simp] theorem driveFaultInput_pending (st : Station) (a : Bool) : (s.driveFaultInput st a).pending = s.pending := by
  (unfold driveFaultInput; dsimp only; split) <;> simp

/-! ### `setConditioning` -/

@[simp] theorem setConditioning_clock (st : Station) (c : Conditioning) : (s.setConditioning st c).clock = s.clock := by
  (unfold setConditioning; dsimp only; split) <;> simp
@[simp] theorem setConditioning_pins (st : Station) (c : Conditioning) : (s.setConditioning st c).pins = s.pins := by
  (unfold setConditioning; dsimp only; split) <;> simp
@[simp] theorem setConditioning_link (st : Station) (c : Conditioning) : (s.setConditioning st c).link = s.link := by
  (unfold setConditioning; dsimp only; split) <;> simp
@[simp] theorem setConditioning_config (st : Station) (c : Conditioning) : (s.setConditioning st c).config = s.config := by
  (unfold setConditioning; dsimp only; split) <;> simp
@[simp] theorem setConditioning_seq (st : Station) (c : Conditioning) : (s.setConditioning st c).seq = s.seq := by
  (unfold setConditioning; dsimp only; split) <;> simp
@[simp] theorem setConditioning_drive (st : Station) (c : Conditioning) : (s.setConditioning st c).drive = s.drive := by
  (unfold setConditioning; dsimp only; split) <;> simp
@[simp] theorem setConditioning_enc (st : Station) (c : Conditioning) : (s.setConditioning st c).enc = s.enc := by
  (unfold setConditioning; dsimp only; split) <;> simp
@[simp] theorem setConditioning_table (st : Station) (c : Conditioning) : (s.setConditioning st c).table = s.table := by
  (unfold setConditioning; dsimp only; split) <;> simp
@[simp] theorem setConditioning_noise (st : Station) (c : Conditioning) : (s.setConditioning st c).noise = s.noise := by
  (unfold setConditioning; dsimp only; split) <;> simp
@[simp] theorem setConditioning_leak (st : Station) (c : Conditioning) : (s.setConditioning st c).leak = s.leak := by
  (unfold setConditioning; dsimp only; split) <;> simp
@[simp] theorem setConditioning_store (st : Station) (c : Conditioning) : (s.setConditioning st c).store = s.store := by
  (unfold setConditioning; dsimp only; split) <;> simp
@[simp] theorem setConditioning_counters (st : Station) (c : Conditioning) : (s.setConditioning st c).counters = s.counters := by
  (unfold setConditioning; dsimp only; split) <;> simp
@[simp] theorem setConditioning_pending (st : Station) (c : Conditioning) : (s.setConditioning st c).pending = s.pending := by
  (unfold setConditioning; dsimp only; split) <;> simp

/-! ### `releaseStation` -/

@[simp] theorem releaseStation_clock (st : Station) : (s.releaseStation st).clock = s.clock := by
  (unfold releaseStation; skip) <;> simp
@[simp] theorem releaseStation_pins (st : Station) : (s.releaseStation st).pins = s.pins := by
  (unfold releaseStation; skip) <;> simp
@[simp] theorem releaseStation_link (st : Station) : (s.releaseStation st).link = s.link := by
  (unfold releaseStation; skip) <;> simp
@[simp] theorem releaseStation_config (st : Station) : (s.releaseStation st).config = s.config := by
  (unfold releaseStation; skip) <;> simp
@[simp] theorem releaseStation_drive (st : Station) : (s.releaseStation st).drive = s.drive := by
  (unfold releaseStation; skip) <;> simp
@[simp] theorem releaseStation_enc (st : Station) : (s.releaseStation st).enc = s.enc := by
  (unfold releaseStation; skip) <;> simp
@[simp] theorem releaseStation_mon (st : Station) : (s.releaseStation st).mon = s.mon := by
  (unfold releaseStation; skip) <;> simp
@[simp] theorem releaseStation_table (st : Station) : (s.releaseStation st).table = s.table := by
  (unfold releaseStation; skip) <;> simp
@[simp] theorem releaseStation_leak (st : Station) : (s.releaseStation st).leak = s.leak := by
  (unfold releaseStation; skip) <;> simp
@[simp] theorem releaseStation_cond (st : Station) : (s.releaseStation st).cond = s.cond := by
  (unfold releaseStation; skip) <;> simp
@[simp] theorem releaseStation_store (st : Station) : (s.releaseStation st).store = s.store := by
  (unfold releaseStation; skip) <;> simp
@[simp] theorem releaseStation_pending (st : Station) : (s.releaseStation st).pending = s.pending := by
  (unfold releaseStation; skip) <;> simp

end State

end Sys2Proof.Machine
end

