-- ==== Sys2Proof/Laws/Events.lean ====
section
/-! SUPPORT. The end of an event, the receiver's return to HUNTING and the placing of a reply; the frames of samples, index
events, encoder lines and the rules of the requests. -/

namespace Sys2Proof.Machine

open Sys2Proof

set_option Elab.async false

namespace State

variable (s : State)


/-! ### `afterNotices` -/

@[simp] theorem afterNotices_clock (t : State) : (s.afterNotices t).clock = t.clock := by
  unfold afterNotices; split <;> rfl
@[simp] theorem afterNotices_pins (t : State) : (s.afterNotices t).pins = t.pins := by
  unfold afterNotices; split <;> rfl
@[simp] theorem afterNotices_config (t : State) : (s.afterNotices t).config = t.config := by
  unfold afterNotices; split <;> rfl
@[simp] theorem afterNotices_seq (t : State) : (s.afterNotices t).seq = t.seq := by
  unfold afterNotices; split <;> rfl
@[simp] theorem afterNotices_drive (t : State) : (s.afterNotices t).drive = t.drive := by
  unfold afterNotices; split <;> rfl
@[simp] theorem afterNotices_enc (t : State) : (s.afterNotices t).enc = t.enc := by
  unfold afterNotices; split <;> rfl
@[simp] theorem afterNotices_mon (t : State) : (s.afterNotices t).mon = t.mon := by
  unfold afterNotices; split <;> rfl
@[simp] theorem afterNotices_table (t : State) : (s.afterNotices t).table = t.table := by
  unfold afterNotices; split <;> rfl
@[simp] theorem afterNotices_noise (t : State) : (s.afterNotices t).noise = t.noise := by
  unfold afterNotices; split <;> rfl
@[simp] theorem afterNotices_leak (t : State) : (s.afterNotices t).leak = t.leak := by
  unfold afterNotices; split <;> rfl
@[simp] theorem afterNotices_cond (t : State) : (s.afterNotices t).cond = t.cond := by
  unfold afterNotices; split <;> rfl
@[simp] theorem afterNotices_store (t : State) : (s.afterNotices t).store = t.store := by
  unfold afterNotices; split <;> rfl
@[simp] theorem afterNotices_counters (t : State) : (s.afterNotices t).counters = t.counters := by
  unfold afterNotices; split <;> rfl
@[simp] theorem afterNotices_pending (t : State) : (s.afterNotices t).pending = t.pending := by
  unfold afterNotices; split <;> rfl

/-! ### `received` -/

@[simp] theorem received_clock : (s.received).clock = s.clock := by
  rfl
@[simp] theorem received_pins : (s.received).pins = s.pins := by
  rfl
@[simp] theorem received_config : (s.received).config = s.config := by
  rfl
@[simp] theorem received_seq : (s.received).seq = s.seq := by
  rfl
@[simp] theorem received_drive : (s.received).drive = s.drive := by
  rfl
@[simp] theorem received_enc : (s.received).enc = s.enc := by
  rfl
@[simp] theorem received_mon : (s.received).mon = s.mon := by
  rfl
@[simp] theorem received_table : (s.received).table = s.table := by
  rfl
@[simp] theorem received_noise : (s.received).noise = s.noise := by
  rfl
@[simp] theorem received_leak : (s.received).leak = s.leak := by
  rfl
@[simp] theorem received_cond : (s.received).cond = s.cond := by
  rfl
@[simp] theorem received_store : (s.received).store = s.store := by
  rfl
@[simp] theorem received_counters : (s.received).counters = s.counters := by
  rfl
@[simp] theorem received_pending : (s.received).pending = s.pending := by
  rfl

/-! ### `replies` -/

@[simp] theorem replies_clock (k t : Byte) (p : List Byte) : (s.replies k t p).clock = s.clock := by
  rfl
@[simp] theorem replies_pins (k t : Byte) (p : List Byte) : (s.replies k t p).pins = s.pins := by
  rfl
@[simp] theorem replies_config (k t : Byte) (p : List Byte) : (s.replies k t p).config = s.config := by
  rfl
@[simp] theorem replies_seq (k t : Byte) (p : List Byte) : (s.replies k t p).seq = s.seq := by
  rfl
@[simp] theorem replies_drive (k t : Byte) (p : List Byte) : (s.replies k t p).drive = s.drive := by
  rfl
@[simp] theorem replies_enc (k t : Byte) (p : List Byte) : (s.replies k t p).enc = s.enc := by
  rfl
@[simp] theorem replies_mon (k t : Byte) (p : List Byte) : (s.replies k t p).mon = s.mon := by
  rfl
@[simp] theorem replies_table (k t : Byte) (p : List Byte) : (s.replies k t p).table = s.table := by
  rfl
@[simp] theorem replies_noise (k t : Byte) (p : List Byte) : (s.replies k t p).noise = s.noise := by
  rfl
@[simp] theorem replies_leak (k t : Byte) (p : List Byte) : (s.replies k t p).leak = s.leak := by
  rfl
@[simp] theorem replies_cond (k t : Byte) (p : List Byte) : (s.replies k t p).cond = s.cond := by
  rfl
@[simp] theorem replies_store (k t : Byte) (p : List Byte) : (s.replies k t p).store = s.store := by
  rfl
@[simp] theorem replies_counters (k t : Byte) (p : List Byte) : (s.replies k t p).counters = s.counters := by
  rfl
@[simp] theorem replies_pending (k t : Byte) (p : List Byte) : (s.replies k t p).pending = s.pending := by
  rfl

/-- The link at the end of an event is the transmitter's choice when a notice joined the queue. -/
theorem afterNotices_link (t : State) : (s.afterNotices t).link =
    if s.link.queue.length < t.link.queue.length then t.link.choose else t.link := by
  unfold afterNotices; split <;> rfl

/-- An event that gives no notice leaves the state as its effect made it. -/
theorem afterNotices_of_link (t : State) (h : t.link = s.link) : s.afterNotices t = t := by
  unfold afterNotices; rw [h]; simp

@[simp] theorem received_slot : s.received.link.slot = s.link.slot := rfl
@[simp] theorem received_tx : s.received.link.tx = s.link.tx := rfl
@[simp] theorem received_queue : s.received.link.queue = s.link.queue := rfl
@[simp] theorem received_recv : s.received.link.recv = .hunting := rfl
@[simp] theorem received_frame : s.received.link.frame = [] := rfl
@[simp] theorem received_expected : s.received.link.expected = none := rfl
@[simp] theorem received_gapStart : s.received.link.gapStart = none := rfl
@[simp] theorem received_lostPending : s.received.link.lostPending = s.link.lostPending := rfl

/-- A reply placed stands in the slot. -/
@[simp] theorem replies_slot (k t : Byte) (p : List Byte) : (s.replies k t p).link.slot = some ⟨k, t, p⟩ := by
  simp only [replies, modLink_link, Link.place, Link.choose]
  split <;> simp


/-! ### `gather` -/

@[simp] theorem gather_clock (x : SensorInput) : (s.gather x).clock = s.clock := by
  cases x <;> simp only [gather]
  rename_i st now since
  generalize since ++ [now] = l
  induction l generalizing s with
  | nil => rfl
  | cons a l ih => simp only [List.foldl_cons, ih]; rfl
@[simp] theorem gather_pins (x : SensorInput) : (s.gather x).pins = s.pins := by
  cases x <;> simp only [gather]
  rename_i st now since
  generalize since ++ [now] = l
  induction l generalizing s with
  | nil => rfl
  | cons a l ih => simp only [List.foldl_cons, ih]; rfl
@[simp] theorem gather_link (x : SensorInput) : (s.gather x).link = s.link := by
  cases x <;> simp only [gather]
  rename_i st now since
  generalize since ++ [now] = l
  induction l generalizing s with
  | nil => rfl
  | cons a l ih => simp only [List.foldl_cons, ih]; rfl
@[simp] theorem gather_config (x : SensorInput) : (s.gather x).config = s.config := by
  cases x <;> simp only [gather]
  rename_i st now since
  generalize since ++ [now] = l
  induction l generalizing s with
  | nil => rfl
  | cons a l ih => simp only [List.foldl_cons, ih]; rfl
@[simp] theorem gather_seq (x : SensorInput) : (s.gather x).seq = s.seq := by
  cases x <;> simp only [gather]
  rename_i st now since
  generalize since ++ [now] = l
  induction l generalizing s with
  | nil => rfl
  | cons a l ih => simp only [List.foldl_cons, ih]; rfl
@[simp] theorem gather_drive (x : SensorInput) : (s.gather x).drive = s.drive := by
  cases x <;> simp only [gather]
  rename_i st now since
  generalize since ++ [now] = l
  induction l generalizing s with
  | nil => rfl
  | cons a l ih => simp only [List.foldl_cons, ih]; rfl
@[simp] theorem gather_enc (x : SensorInput) : (s.gather x).enc = s.enc := by
  cases x <;> simp only [gather]
  rename_i st now since
  generalize since ++ [now] = l
  induction l generalizing s with
  | nil => rfl
  | cons a l ih => simp only [List.foldl_cons, ih]; rfl
@[simp] theorem gather_table (x : SensorInput) : (s.gather x).table = s.table := by
  cases x <;> simp only [gather]
  rename_i st now since
  generalize since ++ [now] = l
  induction l generalizing s with
  | nil => rfl
  | cons a l ih => simp only [List.foldl_cons, ih]; rfl
@[simp] theorem gather_noise (x : SensorInput) : (s.gather x).noise = s.noise := by
  cases x <;> simp only [gather]
  rename_i st now since
  generalize since ++ [now] = l
  induction l generalizing s with
  | nil => rfl
  | cons a l ih => simp only [List.foldl_cons, ih]; rfl
@[simp] theorem gather_leak (x : SensorInput) : (s.gather x).leak = s.leak := by
  cases x <;> simp only [gather]
  rename_i st now since
  generalize since ++ [now] = l
  induction l generalizing s with
  | nil => rfl
  | cons a l ih => simp only [List.foldl_cons, ih]; rfl
@[simp] theorem gather_cond (x : SensorInput) : (s.gather x).cond = s.cond := by
  cases x <;> simp only [gather]
  rename_i st now since
  generalize since ++ [now] = l
  induction l generalizing s with
  | nil => rfl
  | cons a l ih => simp only [List.foldl_cons, ih]; rfl
@[simp] theorem gather_store (x : SensorInput) : (s.gather x).store = s.store := by
  cases x <;> simp only [gather]
  rename_i st now since
  generalize since ++ [now] = l
  induction l generalizing s with
  | nil => rfl
  | cons a l ih => simp only [List.foldl_cons, ih]; rfl
@[simp] theorem gather_counters (x : SensorInput) : (s.gather x).counters = s.counters := by
  cases x <;> simp only [gather]
  rename_i st now since
  generalize since ++ [now] = l
  induction l generalizing s with
  | nil => rfl
  | cons a l ih => simp only [List.foldl_cons, ih]; rfl
@[simp] theorem gather_pending (x : SensorInput) : (s.gather x).pending = s.pending := by
  cases x <;> simp only [gather]
  rename_i st now since
  generalize since ++ [now] = l
  induction l generalizing s with
  | nil => rfl
  | cons a l ih => simp only [List.foldl_cons, ih]; rfl

/-! ### `afterGather` -/

@[simp] theorem afterGather_clock (x : SensorInput) : (s.afterGather x).clock = s.clock := by
  cases x <;> rfl
@[simp] theorem afterGather_pins (x : SensorInput) : (s.afterGather x).pins = s.pins := by
  cases x <;> rfl
@[simp] theorem afterGather_link (x : SensorInput) : (s.afterGather x).link = s.link := by
  cases x <;> rfl
@[simp] theorem afterGather_config (x : SensorInput) : (s.afterGather x).config = s.config := by
  cases x <;> rfl
@[simp] theorem afterGather_seq (x : SensorInput) : (s.afterGather x).seq = s.seq := by
  cases x <;> rfl
@[simp] theorem afterGather_drive (x : SensorInput) : (s.afterGather x).drive = s.drive := by
  cases x <;> rfl
@[simp] theorem afterGather_enc (x : SensorInput) : (s.afterGather x).enc = s.enc := by
  cases x <;> rfl
@[simp] theorem afterGather_table (x : SensorInput) : (s.afterGather x).table = s.table := by
  cases x <;> rfl
@[simp] theorem afterGather_noise (x : SensorInput) : (s.afterGather x).noise = s.noise := by
  cases x <;> rfl
@[simp] theorem afterGather_leak (x : SensorInput) : (s.afterGather x).leak = s.leak := by
  cases x <;> rfl
@[simp] theorem afterGather_cond (x : SensorInput) : (s.afterGather x).cond = s.cond := by
  cases x <;> rfl
@[simp] theorem afterGather_store (x : SensorInput) : (s.afterGather x).store = s.store := by
  cases x <;> rfl
@[simp] theorem afterGather_counters (x : SensorInput) : (s.afterGather x).counters = s.counters := by
  cases x <;> rfl
@[simp] theorem afterGather_pending (x : SensorInput) : (s.afterGather x).pending = s.pending := by
  cases x <;> rfl

/-! ### Latches handed on -/

theorem foldl_handOn_clock (st : Station) (q : StQuantity) (h : Int) (l : List FlagKind) :
    (l.foldl (handOn st q h) s).clock = s.clock := by
  induction l generalizing s with
  | nil => rfl
  | cons a l ih => simp [List.foldl_cons, ih]
theorem foldl_handOn_pins (st : Station) (q : StQuantity) (h : Int) (l : List FlagKind) :
    (l.foldl (handOn st q h) s).pins = s.pins := by
  induction l generalizing s with
  | nil => rfl
  | cons a l ih => simp [List.foldl_cons, ih]
theorem foldl_handOn_config (st : Station) (q : StQuantity) (h : Int) (l : List FlagKind) :
    (l.foldl (handOn st q h) s).config = s.config := by
  induction l generalizing s with
  | nil => rfl
  | cons a l ih => simp [List.foldl_cons, ih]
theorem foldl_handOn_enc (st : Station) (q : StQuantity) (h : Int) (l : List FlagKind) :
    (l.foldl (handOn st q h) s).enc = s.enc := by
  induction l generalizing s with
  | nil => rfl
  | cons a l ih => simp [List.foldl_cons, ih]
theorem foldl_handOn_mon (st : Station) (q : StQuantity) (h : Int) (l : List FlagKind) :
    (l.foldl (handOn st q h) s).mon = s.mon := by
  induction l generalizing s with
  | nil => rfl
  | cons a l ih => simp [List.foldl_cons, ih]
theorem foldl_handOn_table (st : Station) (q : StQuantity) (h : Int) (l : List FlagKind) :
    (l.foldl (handOn st q h) s).table = s.table := by
  induction l generalizing s with
  | nil => rfl
  | cons a l ih => simp [List.foldl_cons, ih]
theorem foldl_handOn_cond (st : Station) (q : StQuantity) (h : Int) (l : List FlagKind) :
    (l.foldl (handOn st q h) s).cond = s.cond := by
  induction l generalizing s with
  | nil => rfl
  | cons a l ih => simp [List.foldl_cons, ih]
theorem foldl_handOn_store (st : Station) (q : StQuantity) (h : Int) (l : List FlagKind) :
    (l.foldl (handOn st q h) s).store = s.store := by
  induction l generalizing s with
  | nil => rfl
  | cons a l ih => simp [List.foldl_cons, ih]
theorem foldl_handOn_pending (st : Station) (q : StQuantity) (h : Int) (l : List FlagKind) :
    (l.foldl (handOn st q h) s).pending = s.pending := by
  induction l generalizing s with
  | nil => rfl
  | cons a l ih => simp [List.foldl_cons, ih]

/-! ### `holdStation` -/

@[simp] theorem holdStation_clock (st : Station) (q : StQuantity) (v : Option Int) : (s.holdStation st q v).clock = s.clock := by
  unfold holdStation; dsimp only
  rw [foldl_handOn_clock]; rfl
@[simp] theorem holdStation_pins (st : Station) (q : StQuantity) (v : Option Int) : (s.holdStation st q v).pins = s.pins := by
  unfold holdStation; dsimp only
  rw [foldl_handOn_pins]; rfl
@[simp] theorem holdStation_config (st : Station) (q : StQuantity) (v : Option Int) : (s.holdStation st q v).config = s.config := by
  unfold holdStation; dsimp only
  rw [foldl_handOn_config]; rfl
@[simp] theorem holdStation_enc (st : Station) (q : StQuantity) (v : Option Int) : (s.holdStation st q v).enc = s.enc := by
  unfold holdStation; dsimp only
  rw [foldl_handOn_enc]; rfl
@[simp] theorem holdStation_table (st : Station) (q : StQuantity) (v : Option Int) : (s.holdStation st q v).table = s.table := by
  unfold holdStation; dsimp only
  rw [foldl_handOn_table]; rfl
@[simp] theorem holdStation_cond (st : Station) (q : StQuantity) (v : Option Int) : (s.holdStation st q v).cond = s.cond := by
  unfold holdStation; dsimp only
  rw [foldl_handOn_cond]; rfl
@[simp] theorem holdStation_store (st : Station) (q : StQuantity) (v : Option Int) : (s.holdStation st q v).store = s.store := by
  unfold holdStation; dsimp only
  rw [foldl_handOn_store]; rfl
@[simp] theorem holdStation_pending (st : Station) (q : StQuantity) (v : Option Int) : (s.holdStation st q v).pending = s.pending := by
  unfold holdStation; dsimp only
  rw [foldl_handOn_pending]; rfl

/-! ### SUPPLY notices -/

theorem foldl_flagNotice_clock (sc : Option Station) (q : Quantity) (h : Int) (l : List FlagKind) :
    (l.foldl (fun s k => s.flagNotice sc q h k) s).clock = s.clock := by
  induction l generalizing s with
  | nil => rfl
  | cons a l ih => simp [List.foldl_cons, ih]
theorem foldl_flagNotice_pins (sc : Option Station) (q : Quantity) (h : Int) (l : List FlagKind) :
    (l.foldl (fun s k => s.flagNotice sc q h k) s).pins = s.pins := by
  induction l generalizing s with
  | nil => rfl
  | cons a l ih => simp [List.foldl_cons, ih]
theorem foldl_flagNotice_config (sc : Option Station) (q : Quantity) (h : Int) (l : List FlagKind) :
    (l.foldl (fun s k => s.flagNotice sc q h k) s).config = s.config := by
  induction l generalizing s with
  | nil => rfl
  | cons a l ih => simp [List.foldl_cons, ih]
theorem foldl_flagNotice_seq (sc : Option Station) (q : Quantity) (h : Int) (l : List FlagKind) :
    (l.foldl (fun s k => s.flagNotice sc q h k) s).seq = s.seq := by
  induction l generalizing s with
  | nil => rfl
  | cons a l ih => simp [List.foldl_cons, ih]
theorem foldl_flagNotice_drive (sc : Option Station) (q : Quantity) (h : Int) (l : List FlagKind) :
    (l.foldl (fun s k => s.flagNotice sc q h k) s).drive = s.drive := by
  induction l generalizing s with
  | nil => rfl
  | cons a l ih => simp [List.foldl_cons, ih]
theorem foldl_flagNotice_enc (sc : Option Station) (q : Quantity) (h : Int) (l : List FlagKind) :
    (l.foldl (fun s k => s.flagNotice sc q h k) s).enc = s.enc := by
  induction l generalizing s with
  | nil => rfl
  | cons a l ih => simp [List.foldl_cons, ih]
theorem foldl_flagNotice_mon (sc : Option Station) (q : Quantity) (h : Int) (l : List FlagKind) :
    (l.foldl (fun s k => s.flagNotice sc q h k) s).mon = s.mon := by
  induction l generalizing s with
  | nil => rfl
  | cons a l ih => simp [List.foldl_cons, ih]
theorem foldl_flagNotice_table (sc : Option Station) (q : Quantity) (h : Int) (l : List FlagKind) :
    (l.foldl (fun s k => s.flagNotice sc q h k) s).table = s.table := by
  induction l generalizing s with
  | nil => rfl
  | cons a l ih => simp [List.foldl_cons, ih]
theorem foldl_flagNotice_noise (sc : Option Station) (q : Quantity) (h : Int) (l : List FlagKind) :
    (l.foldl (fun s k => s.flagNotice sc q h k) s).noise = s.noise := by
  induction l generalizing s with
  | nil => rfl
  | cons a l ih => simp [List.foldl_cons, ih]
theorem foldl_flagNotice_leak (sc : Option Station) (q : Quantity) (h : Int) (l : List FlagKind) :
    (l.foldl (fun s k => s.flagNotice sc q h k) s).leak = s.leak := by
  induction l generalizing s with
  | nil => rfl
  | cons a l ih => simp [List.foldl_cons, ih]
theorem foldl_flagNotice_cond (sc : Option Station) (q : Quantity) (h : Int) (l : List FlagKind) :
    (l.foldl (fun s k => s.flagNotice sc q h k) s).cond = s.cond := by
  induction l generalizing s with
  | nil => rfl
  | cons a l ih => simp [List.foldl_cons, ih]
theorem foldl_flagNotice_store (sc : Option Station) (q : Quantity) (h : Int) (l : List FlagKind) :
    (l.foldl (fun s k => s.flagNotice sc q h k) s).store = s.store := by
  induction l generalizing s with
  | nil => rfl
  | cons a l ih => simp [List.foldl_cons, ih]
theorem foldl_flagNotice_pending (sc : Option Station) (q : Quantity) (h : Int) (l : List FlagKind) :
    (l.foldl (fun s k => s.flagNotice sc q h k) s).pending = s.pending := by
  induction l generalizing s with
  | nil => rfl
  | cons a l ih => simp [List.foldl_cons, ih]

/-! ### `holdSupply` -/

@[simp] theorem holdSupply_clock (v : Option Int) : (s.holdSupply v).clock = s.clock := by
  unfold holdSupply; dsimp only
  rw [examineSupply_clock]; split <;> simp [foldl_flagNotice_clock]
@[simp] theorem holdSupply_pins (v : Option Int) : (s.holdSupply v).pins = s.pins := by
  unfold holdSupply; dsimp only
  rw [examineSupply_pins]; split <;> simp [foldl_flagNotice_pins]
@[simp] theorem holdSupply_config (v : Option Int) : (s.holdSupply v).config = s.config := by
  unfold holdSupply; dsimp only
  rw [examineSupply_config]; split <;> simp [foldl_flagNotice_config]
@[simp] theorem holdSupply_enc (v : Option Int) : (s.holdSupply v).enc = s.enc := by
  unfold holdSupply; dsimp only
  rw [examineSupply_enc]; split <;> simp [foldl_flagNotice_enc]
@[simp] theorem holdSupply_table (v : Option Int) : (s.holdSupply v).table = s.table := by
  unfold holdSupply; dsimp only
  rw [examineSupply_table]; split <;> simp [foldl_flagNotice_table]
@[simp] theorem holdSupply_cond (v : Option Int) : (s.holdSupply v).cond = s.cond := by
  unfold holdSupply; dsimp only
  rw [examineSupply_cond]; split <;> simp [foldl_flagNotice_cond]
@[simp] theorem holdSupply_store (v : Option Int) : (s.holdSupply v).store = s.store := by
  unfold holdSupply; dsimp only
  rw [examineSupply_store]; split <;> simp [foldl_flagNotice_store]
@[simp] theorem holdSupply_pending (v : Option Int) : (s.holdSupply v).pending = s.pending := by
  unfold holdSupply; dsimp only
  rw [examineSupply_pending]; split <;> simp [foldl_flagNotice_pending]

/-! ### `takeSample` -/

@[simp] theorem takeSample_clock (x : SensorInput) : (s.takeSample x).clock = s.clock := by
  unfold takeSample; dsimp only
  split <;> simp
@[simp] theorem takeSample_pins (x : SensorInput) : (s.takeSample x).pins = s.pins := by
  unfold takeSample; dsimp only
  split <;> simp
@[simp] theorem takeSample_config (x : SensorInput) : (s.takeSample x).config = s.config := by
  unfold takeSample; dsimp only
  split <;> simp
@[simp] theorem takeSample_enc (x : SensorInput) : (s.takeSample x).enc = s.enc := by
  unfold takeSample; dsimp only
  split <;> simp
@[simp] theorem takeSample_table (x : SensorInput) : (s.takeSample x).table = s.table := by
  unfold takeSample; dsimp only
  split <;> simp
@[simp] theorem takeSample_cond (x : SensorInput) : (s.takeSample x).cond = s.cond := by
  unfold takeSample; dsimp only
  split <;> simp
@[simp] theorem takeSample_store (x : SensorInput) : (s.takeSample x).store = s.store := by
  unfold takeSample; dsimp only
  split <;> simp
@[simp] theorem takeSample_pending (x : SensorInput) : (s.takeSample x).pending = s.pending := by
  unfold takeSample; dsimp only
  split <;> simp

/-! ### `sample` -/

@[simp] theorem sample_clock (x : SensorInput) : (s.sample x).clock = s.clock := by
  unfold sample; simp
@[simp] theorem sample_pins (x : SensorInput) : (s.sample x).pins = s.pins := by
  unfold sample; simp
@[simp] theorem sample_config (x : SensorInput) : (s.sample x).config = s.config := by
  unfold sample; simp
@[simp] theorem sample_enc (x : SensorInput) : (s.sample x).enc = s.enc := by
  unfold sample; simp
@[simp] theorem sample_cond (x : SensorInput) : (s.sample x).cond = s.cond := by
  unfold sample; simp
@[simp] theorem sample_pending (x : SensorInput) : (s.sample x).pending = s.pending := by
  unfold sample; simp

/-! ### `index` -/

@[simp] theorem index_pins (st : Station) (us : Fin 1000) (r : AccelReading) : (s.index st us r).pins = s.pins := by
  unfold index; dsimp only
  repeat' split
  all_goals simp
@[simp] theorem index_config (st : Station) (us : Fin 1000) (r : AccelReading) : (s.index st us r).config = s.config := by
  unfold index; dsimp only
  repeat' split
  all_goals simp
@[simp] theorem index_cond (st : Station) (us : Fin 1000) (r : AccelReading) : (s.index st us r).cond = s.cond := by
  unfold index; dsimp only
  repeat' split
  all_goals simp
@[simp] theorem index_pending (st : Station) (us : Fin 1000) (r : AccelReading) : (s.index st us r).pending = s.pending := by
  unfold index; dsimp only
  repeat' split
  all_goals simp

/-! ### `encoderLine` -/

@[simp] theorem encoderLine_clock (st : Station) (f : Bool) (r : AccelReading) : (s.encoderLine st f r).clock = s.clock := by
  unfold encoderLine; dsimp only
  repeat' split
  all_goals first | rfl | simp
@[simp] theorem encoderLine_pins (st : Station) (f : Bool) (r : AccelReading) : (s.encoderLine st f r).pins = s.pins := by
  unfold encoderLine; dsimp only
  repeat' split
  all_goals first | rfl | simp
@[simp] theorem encoderLine_link (st : Station) (f : Bool) (r : AccelReading) : (s.encoderLine st f r).link = s.link := by
  unfold encoderLine; dsimp only
  repeat' split
  all_goals first | rfl | simp
@[simp] theorem encoderLine_config (st : Station) (f : Bool) (r : AccelReading) : (s.encoderLine st f r).config = s.config := by
  unfold encoderLine; dsimp only
  repeat' split
  all_goals first | rfl | simp
@[simp] theorem encoderLine_seq (st : Station) (f : Bool) (r : AccelReading) : (s.encoderLine st f r).seq = s.seq := by
  unfold encoderLine; dsimp only
  repeat' split
  all_goals first | rfl | simp
@[simp] theorem encoderLine_drive (st : Station) (f : Bool) (r : AccelReading) : (s.encoderLine st f r).drive = s.drive := by
  unfold encoderLine; dsimp only
  repeat' split
  all_goals first | rfl | simp
@[simp] theorem encoderLine_table (st : Station) (f : Bool) (r : AccelReading) : (s.encoderLine st f r).table = s.table := by
  unfold encoderLine; dsimp only
  repeat' split
  all_goals first | rfl | simp
@[simp] theorem encoderLine_leak (st : Station) (f : Bool) (r : AccelReading) : (s.encoderLine st f r).leak = s.leak := by
  unfold encoderLine; dsimp only
  repeat' split
  all_goals first | rfl | simp
@[simp] theorem encoderLine_cond (st : Station) (f : Bool) (r : AccelReading) : (s.encoderLine st f r).cond = s.cond := by
  unfold encoderLine; dsimp only
  repeat' split
  all_goals first | rfl | simp
@[simp] theorem encoderLine_store (st : Station) (f : Bool) (r : AccelReading) : (s.encoderLine st f r).store = s.store := by
  unfold encoderLine; dsimp only
  repeat' split
  all_goals first | rfl | simp
@[simp] theorem encoderLine_counters (st : Station) (f : Bool) (r : AccelReading) : (s.encoderLine st f r).counters = s.counters := by
  unfold encoderLine; dsimp only
  repeat' split
  all_goals first | rfl | simp
@[simp] theorem encoderLine_pending (st : Station) (f : Bool) (r : AccelReading) : (s.encoderLine st f r).pending = s.pending := by
  unfold encoderLine; dsimp only
  repeat' split
  all_goals first | rfl | simp

end State

end Sys2Proof.Machine
end

