-- ==== Sys2Proof/Laws/Locality.lean ====
section
/-! SUPPORT. Locality: an operation at one station leaves the contexts and the drives of the other five as they are. -/

namespace Sys2Proof.Machine

open Sys2Proof

set_option Elab.async false

namespace State

variable (s : State) {j st : Station}

@[simp] theorem modCtx_seq_other (hj : st ≠ j) (f : StationCtx → StationCtx) : (s.modCtx st f).seq[j.val] = s.seq[j.val] := by
  unfold modCtx; simp [hj]
@[simp] theorem modDrive_drive_other (hj : st ≠ j) (f : Drive → Drive) : (s.modDrive st f).drive[j.val] = s.drive[j.val] := by
  unfold modDrive; simp [hj]
@[simp] theorem setState_seq_other (hj : st ≠ j) (x : StationState) : (s.setState st x).seq[j.val] = s.seq[j.val] := by
  unfold setState; simp [hj]
@[simp] theorem modStep_seq_other (hj : st ≠ j) (f : StepCtx → StepCtx) : (s.modStep st f).seq[j.val] = s.seq[j.val] := by
  unfold modStep; simp [hj]
@[simp] theorem modRecord_seq_other (hj : st ≠ j) (f : Record → Record) : (s.modRecord st f).seq[j.val] = s.seq[j.val] := by
  unfold modRecord; simp [hj]
@[simp] theorem remark_seq_other (hj : st ≠ j) (m : Remark) : (s.remark st m).seq[j.val] = s.seq[j.val] := by
  unfold remark; simp [hj]
@[simp] theorem addStepEntry_seq_other (hj : st ≠ j) (e : StepEntry) : (s.addStepEntry st e).seq[j.val] = s.seq[j.val] := by
  unfold addStepEntry; simp [hj]
@[simp] theorem addGroupResult_seq_other (hj : st ≠ j) (e : GroupResult) : (s.addGroupResult st e).seq[j.val] = s.seq[j.val] := by
  unfold addGroupResult; simp [hj]
@[simp] theorem addLeakResult_seq_other (hj : st ≠ j) (e : LeakResult) : (s.addLeakResult st e).seq[j.val] = s.seq[j.val] := by
  unfold addLeakResult; simp [hj]
@[simp] theorem addCheckResult_seq_other (hj : st ≠ j) (e : CheckResult) : (s.addCheckResult st e).seq[j.val] = s.seq[j.val] := by
  unfold addCheckResult; simp [hj]
@[simp] theorem closeRecord_seq_other (hj : st ≠ j) : (s.closeRecord st).seq[j.val] = s.seq[j.val] := by
  unfold closeRecord; simp [hj]
@[simp] theorem stopDrive_drive_other (hj : st ≠ j) : (s.stopDrive st).drive[j.val] = s.drive[j.val] := by
  unfold stopDrive; simp [hj]
@[simp] theorem enterGroup_seq_other (hj : st ≠ j) (r : GroupResult) : (s.enterGroup st r).seq[j.val] = s.seq[j.val] := by
  unfold enterGroup; simp [hj]
@[simp] theorem settleGroups_seq_other (hj : st ≠ j) : (s.settleGroups st).seq[j.val] = s.seq[j.val] := by
  unfold settleGroups; simp [hj]
@[simp] theorem deliver_seq_other (hj : st ≠ j) (r : GroupResult) : (s.deliver st r).seq[j.val] = s.seq[j.val] := by
  unfold deliver; simp [hj]
@[simp] theorem takeRecipe_seq_other (hj : st ≠ j) (r : Recipe) (ref : RecipeRef) : (s.takeRecipe st r ref).seq[j.val] = s.seq[j.val] := by
  (unfold takeRecipe; repeat' split) <;> simp [hj]
@[simp] theorem settleRecipe_seq_other (hj : st ≠ j) (ref : RecipeRef) (v : Verdict) : (s.settleRecipe st ref v).seq[j.val] = s.seq[j.val] := by
  (unfold settleRecipe; split) <;> simp [hj]
@[simp] theorem depositStation_seq_other (hj : st ≠ j) : (s.depositStation st).seq[j.val] = s.seq[j.val] := by
  (unfold depositStation; split) <;> simp [hj]
@[simp] theorem offerRecord_seq_other (hj : st ≠ j) : (s.offerRecord st).seq[j.val] = s.seq[j.val] := by
  (unfold offerRecord; split) <;> simp [hj]
@[simp] theorem decideLeak_seq_other (hj : st ≠ j) (r : LeakResult) : (s.decideLeak st r).seq[j.val] = s.seq[j.val] := by
  (unfold decideLeak; dsimp only; split) <;> simp [hj]
@[simp] theorem leakExit_seq_other (hj : st ≠ j) : (s.leakExit st).seq[j.val] = s.seq[j.val] := by
  (unfold leakExit; dsimp only; split) <;> simp [hj]
@[simp] theorem leakClose_seq_other (hj : st ≠ j) : (s.leakClose st).seq[j.val] = s.seq[j.val] := by
  (unfold leakClose; split) <;> simp [hj]
@[simp] theorem unmeasured_seq_other (hj : st ≠ j) (g : Nat) : (s.unmeasured st g).seq[j.val] = s.seq[j.val] := by
  (unfold unmeasured; dsimp only; repeat' split) <;> simp [hj]
@[simp] theorem claimEngine_seq_other (hj : st ≠ j) (g : Nat) : (s.claimEngine st g).seq[j.val] = s.seq[j.val] := by
  (unfold claimEngine; repeat' split) <;> simp [hj]
@[simp] theorem windowStart_seq_other (hj : st ≠ j) (g : Nat) : (s.windowStart st g).seq[j.val] = s.seq[j.val] := by
  (unfold windowStart; dsimp only; repeat' split) <;> simp [hj]
@[simp] theorem windowEnd_seq_other (hj : st ≠ j) (g i : Nat) : (s.windowEnd st g i).seq[j.val] = s.seq[j.val] := by
  (unfold windowEnd; dsimp only; repeat' split) <;> simp [hj]
@[simp] theorem noiseExit_seq_other (hj : st ≠ j) : (s.noiseExit st).seq[j.val] = s.seq[j.val] := by
  (unfold noiseExit; dsimp only; repeat' split) <;> simp [hj]
@[simp] theorem closeStep_seq_other (hj : st ≠ j) : (s.closeStep st).seq[j.val] = s.seq[j.val] := by
  (unfold closeStep; split) <;> simp [hj]
@[simp] theorem leaveRunning_seq_other (hj : st ≠ j) : (s.leaveRunning st).seq[j.val] = s.seq[j.val] := by
  (unfold leaveRunning; skip) <;> simp [hj]
@[simp] theorem enterCompleting_seq_other (hj : st ≠ j) : (s.enterCompleting st).seq[j.val] = s.seq[j.val] := by
  (unfold enterCompleting; dsimp only) <;> simp [hj]
@[simp] theorem enterCompleting_drive_other (hj : st ≠ j) : (s.enterCompleting st).drive[j.val] = s.drive[j.val] := by
  (unfold enterCompleting; dsimp only) <;> simp [hj]
@[simp] theorem enterStopping_seq_other (hj : st ≠ j) (c : Option AbortCause) (d : Bool) : (s.enterStopping st c d).seq[j.val] = s.seq[j.val] := by
  (unfold enterStopping; dsimp only; repeat' split) <;> simp [hj]
@[simp] theorem enterStopping_drive_other (hj : st ≠ j) (c : Option AbortCause) (d : Bool) : (s.enterStopping st c d).drive[j.val] = s.drive[j.val] := by
  (unfold enterStopping; dsimp only; repeat' split) <;> simp [hj]
@[simp] theorem chainEnd_seq_other (hj : st ≠ j) : (s.chainEnd st).seq[j.val] = s.seq[j.val] := by
  (unfold chainEnd; split) <;> simp [hj]
@[simp] theorem chainEnd_drive_other (hj : st ≠ j) : (s.chainEnd st).drive[j.val] = s.drive[j.val] := by
  (unfold chainEnd; split) <;> simp [hj]
@[simp] theorem beginStep_seq_other (hj : st ≠ j) (i : Nat) (x : StepSpec) : (s.beginStep st i x).seq[j.val] = s.seq[j.val] := by
  (unfold beginStep; dsimp only; split) <;> simp [hj]
@[simp] theorem beginStep_drive_other (hj : st ≠ j) (i : Nat) (x : StepSpec) : (s.beginStep st i x).drive[j.val] = s.drive[j.val] := by
  (unfold beginStep; dsimp only; split) <;> simp [hj]
@[simp] theorem finishStep_seq_other (hj : st ≠ j) (o : StepOutcome) (c : Option StepCause) : (s.finishStep st o c).seq[j.val] = s.seq[j.val] := by
  (unfold finishStep; split) <;> simp [hj]
@[simp] theorem nextStep_seq_other (hj : st ≠ j) (i : Nat) : (s.nextStep st i).seq[j.val] = s.seq[j.val] := by
  (unfold nextStep; split) <;> simp [hj]
@[simp] theorem nextStep_drive_other (hj : st ≠ j) (i : Nat) : (s.nextStep st i).drive[j.val] = s.drive[j.val] := by
  (unfold nextStep; split) <;> simp [hj]
@[simp] theorem endStep_seq_other (hj : st ≠ j) (o : StepOutcome) : (s.endStep st o).seq[j.val] = s.seq[j.val] := by
  (unfold endStep; split) <;> simp [hj]
@[simp] theorem endStep_drive_other (hj : st ≠ j) (o : StepOutcome) : (s.endStep st o).drive[j.val] = s.drive[j.val] := by
  (unfold endStep; split) <;> simp [hj]
@[simp] theorem failStep_seq_other (hj : st ≠ j) (c : StepCause) : (s.failStep st c).seq[j.val] = s.seq[j.val] := by
  (unfold failStep; skip) <;> simp [hj]
@[simp] theorem failStep_drive_other (hj : st ≠ j) (c : StepCause) : (s.failStep st c).drive[j.val] = s.drive[j.val] := by
  (unfold failStep; skip) <;> simp [hj]
@[simp] theorem failedOutcome_seq_other (hj : st ≠ j) : (s.failedOutcome st).seq[j.val] = s.seq[j.val] := by
  (unfold failedOutcome; split) <;> simp [hj]
@[simp] theorem failedOutcome_drive_other (hj : st ≠ j) : (s.failedOutcome st).drive[j.val] = s.drive[j.val] := by
  (unfold failedOutcome; split) <;> simp [hj]
@[simp] theorem endExtended_seq_other (hj : st ≠ j) : (s.endExtended st).seq[j.val] = s.seq[j.val] := by
  (unfold endExtended; split) <;> simp [hj]
@[simp] theorem endExtended_drive_other (hj : st ≠ j) : (s.endExtended st).drive[j.val] = s.drive[j.val] := by
  (unfold endExtended; split) <;> simp [hj]
@[simp] theorem alarm_seq_other (hj : st ≠ j) (q : StQuantity) (k : FlagKind) : (s.alarm st q k).seq[j.val] = s.seq[j.val] := by
  (unfold alarm; split) <;> simp [hj]
@[simp] theorem alarm_drive_other (hj : st ≠ j) (q : StQuantity) (k : FlagKind) : (s.alarm st q k).drive[j.val] = s.drive[j.val] := by
  (unfold alarm; split) <;> simp [hj]
@[simp] theorem warn_seq_other (hj : st ≠ j) (q : StQuantity) (k : FlagKind) : (s.warn st q k).seq[j.val] = s.seq[j.val] := by
  (unfold warn; split) <;> simp [hj]
@[simp] theorem driveFaultReport_seq_other (hj : st ≠ j) : (s.driveFaultReport st).seq[j.val] = s.seq[j.val] := by
  (unfold driveFaultReport; repeat' split) <;> simp [hj]
@[simp] theorem driveFaultReport_drive_other (hj : st ≠ j) : (s.driveFaultReport st).drive[j.val] = s.drive[j.val] := by
  (unfold driveFaultReport; repeat' split) <;> simp [hj]
@[simp] theorem estopStation_seq_other (hj : st ≠ j) : (s.estopStation st).seq[j.val] = s.seq[j.val] := by
  (unfold estopStation; dsimp only; repeat' split) <;> simp [hj]
@[simp] theorem estopStation_drive_other (hj : st ≠ j) : (s.estopStation st).drive[j.val] = s.drive[j.val] := by
  (unfold estopStation; dsimp only; repeat' split) <;> simp [hj]
@[simp] theorem startTest_seq_other (hj : st ≠ j) (f : SttFields) (r : Recipe) (ref : RecipeRef) (thr : Vector Thresholds 6) : (s.startTest st f r ref thr).seq[j.val] = s.seq[j.val] := by
  (unfold startTest; dsimp only; repeat' split) <;> simp [hj]
@[simp] theorem startTest_drive_other (hj : st ≠ j) (f : SttFields) (r : Recipe) (ref : RecipeRef) (thr : Vector Thresholds 6) : (s.startTest st f r ref thr).drive[j.val] = s.drive[j.val] := by
  (unfold startTest; dsimp only; repeat' split) <;> simp [hj]
@[simp] theorem decideAndVent_seq_other (hj : st ≠ j) (r : LeakResult) : (s.decideAndVent st r).seq[j.val] = s.seq[j.val] := by
  (unfold decideAndVent; dsimp only; split) <;> simp [hj]
@[simp] theorem decideAndVent_drive_other (hj : st ≠ j) (r : LeakResult) : (s.decideAndVent st r).drive[j.val] = s.drive[j.val] := by
  (unfold decideAndVent; dsimp only; split) <;> simp [hj]
@[simp] theorem returnLeak_seq_other (hj : st ≠ j) : (s.returnLeak st).seq[j.val] = s.seq[j.val] := by
  (unfold returnLeak; dsimp only; split) <;> simp [hj]
@[simp] theorem returnLeak_drive_other (hj : st ≠ j) : (s.returnLeak st).drive[j.val] = s.drive[j.val] := by
  (unfold returnLeak; dsimp only; split) <;> simp [hj]
@[simp] theorem standstillExpiry_seq_other (hj : st ≠ j) : (s.standstillExpiry st).seq[j.val] = s.seq[j.val] := by
  (unfold standstillExpiry; skip) <;> simp [hj]
@[simp] theorem standstillExpiry_drive_other (hj : st ≠ j) : (s.standstillExpiry st).drive[j.val] = s.drive[j.val] := by
  (unfold standstillExpiry; skip) <;> simp [hj]
@[simp] theorem fillExpiry_seq_other (hj : st ≠ j) : (s.fillExpiry st).seq[j.val] = s.seq[j.val] := by
  (unfold fillExpiry; dsimp only; repeat' split) <;> simp [hj]
@[simp] theorem fillExpiry_drive_other (hj : st ≠ j) : (s.fillExpiry st).drive[j.val] = s.drive[j.val] := by
  (unfold fillExpiry; dsimp only; repeat' split) <;> simp [hj]
@[simp] theorem settleSample_seq_other (hj : st ≠ j) (l : LeakSpec) : (s.settleSample st l).seq[j.val] = s.seq[j.val] := by
  (unfold settleSample; split) <;> simp [hj]
@[simp] theorem settleSample_drive_other (hj : st ≠ j) (l : LeakSpec) : (s.settleSample st l).drive[j.val] = s.drive[j.val] := by
  (unfold settleSample; split) <;> simp [hj]
@[simp] theorem measureEnd_seq_other (hj : st ≠ j) (l : LeakSpec) : (s.measureEnd st l).seq[j.val] = s.seq[j.val] := by
  (unfold measureEnd; skip) <;> simp [hj]
@[simp] theorem measureEnd_drive_other (hj : st ≠ j) (l : LeakSpec) : (s.measureEnd st l).drive[j.val] = s.drive[j.val] := by
  (unfold measureEnd; skip) <;> simp [hj]
@[simp] theorem measureSample_seq_other (hj : st ≠ j) (l : LeakSpec) (q : StQuantity) : (s.measureSample st l q).seq[j.val] = s.seq[j.val] := by
  (unfold measureSample; dsimp only; split) <;> simp [hj]
@[simp] theorem measureSample_drive_other (hj : st ≠ j) (l : LeakSpec) (q : StQuantity) : (s.measureSample st l q).drive[j.val] = s.drive[j.val] := by
  (unfold measureSample; dsimp only; split) <;> simp [hj]
@[simp] theorem leakSample_seq_other (hj : st ≠ j) (q : StQuantity) : (s.leakSample st q).seq[j.val] = s.seq[j.val] := by
  (unfold leakSample; split) <;> simp [hj]
@[simp] theorem leakSample_drive_other (hj : st ≠ j) (q : StQuantity) : (s.leakSample st q).drive[j.val] = s.drive[j.val] := by
  (unfold leakSample; split) <;> simp [hj]
@[simp] theorem leakAlarm_seq_other (hj : st ≠ j) (q : StQuantity) (k : FlagKind) : (s.leakAlarm st q k).seq[j.val] = s.seq[j.val] := by
  (unfold leakAlarm; split) <;> simp [hj]
@[simp] theorem leakAlarm_drive_other (hj : st ≠ j) (q : StQuantity) (k : FlagKind) : (s.leakAlarm st q k).drive[j.val] = s.drive[j.val] := by
  (unfold leakAlarm; split) <;> simp [hj]
@[simp] theorem dwellExpiry_seq_other (hj : st ≠ j) : (s.dwellExpiry st).seq[j.val] = s.seq[j.val] := by
  (unfold dwellExpiry; repeat' split) <;> simp [hj]
@[simp] theorem dwellExpiry_drive_other (hj : st ≠ j) : (s.dwellExpiry st).drive[j.val] = s.drive[j.val] := by
  (unfold dwellExpiry; repeat' split) <;> simp [hj]
@[simp] theorem extendTimeout_seq_other (hj : st ≠ j) : (s.extendTimeout st).seq[j.val] = s.seq[j.val] := by
  (unfold extendTimeout; split) <;> simp [hj]
@[simp] theorem extendTimeout_drive_other (hj : st ≠ j) : (s.extendTimeout st).drive[j.val] = s.drive[j.val] := by
  (unfold extendTimeout; split) <;> simp [hj]
@[simp] theorem gateTimeout_seq_other (hj : st ≠ j) : (s.gateTimeout st).seq[j.val] = s.seq[j.val] := by
  (unfold gateTimeout; split) <;> simp [hj]
@[simp] theorem gateTimeout_drive_other (hj : st ≠ j) : (s.gateTimeout st).drive[j.val] = s.drive[j.val] := by
  (unfold gateTimeout; split) <;> simp [hj]
@[simp] theorem stopTimeout_seq_other (hj : st ≠ j) : (s.stopTimeout st).seq[j.val] = s.seq[j.val] := by
  (unfold stopTimeout; skip) <;> simp [hj]
@[simp] theorem stopTimeout_drive_other (hj : st ≠ j) : (s.stopTimeout st).drive[j.val] = s.drive[j.val] := by
  (unfold stopTimeout; skip) <;> simp [hj]
@[simp] theorem rampSample_seq_other (hj : st ≠ j) (x : StepCtx) (t : Int) (a b : Nat) : (s.rampSample st x t a b).seq[j.val] = s.seq[j.val] := by
  (unfold rampSample; dsimp only; repeat' split) <;> simp [hj]
@[simp] theorem rampSample_drive_other (hj : st ≠ j) (x : StepCtx) (t : Int) (a b : Nat) : (s.rampSample st x t a b).drive[j.val] = s.drive[j.val] := by
  (unfold rampSample; dsimp only; repeat' split) <;> simp [hj]
@[simp] theorem gateSample_seq_other (hj : st ≠ j) (x : StepCtx) (q : StQuantity) (r : GateRelation) (v : Int) (h : Nat) : (s.gateSample st x q r v h).seq[j.val] = s.seq[j.val] := by
  (unfold gateSample; dsimp only; repeat' split) <;> simp [hj]
@[simp] theorem gateSample_drive_other (hj : st ≠ j) (x : StepCtx) (q : StQuantity) (r : GateRelation) (v : Int) (h : Nat) : (s.gateSample st x q r v h).drive[j.val] = s.drive[j.val] := by
  (unfold gateSample; dsimp only; repeat' split) <;> simp [hj]
@[simp] theorem checkAveraged_seq_other (hj : st ≠ j) (x : StepCtx) (q : StQuantity) (m : CheckMode) (r : Int) (t n : Nat) (u : Int) : (s.checkAveraged st x q m r t n u).seq[j.val] = s.seq[j.val] := by
  (unfold checkAveraged; dsimp only; split) <;> simp [hj]
@[simp] theorem checkAveraged_drive_other (hj : st ≠ j) (x : StepCtx) (q : StQuantity) (m : CheckMode) (r : Int) (t n : Nat) (u : Int) : (s.checkAveraged st x q m r t n u).drive[j.val] = s.drive[j.val] := by
  (unfold checkAveraged; dsimp only; split) <;> simp [hj]
@[simp] theorem checkSample_seq_other (hj : st ≠ j) (x : StepCtx) (q : StQuantity) (a : Nat) (m : CheckMode) (r : Int) (t : Nat) (u : Int) (c : Nat) : (s.checkSample st x q a m r t u c).seq[j.val] = s.seq[j.val] := by
  (unfold checkSample; dsimp only; split) <;> simp [hj]
@[simp] theorem checkSample_drive_other (hj : st ≠ j) (x : StepCtx) (q : StQuantity) (a : Nat) (m : CheckMode) (r : Int) (t : Nat) (u : Int) (c : Nat) : (s.checkSample st x q a m r t u c).drive[j.val] = s.drive[j.val] := by
  (unfold checkSample; dsimp only; split) <;> simp [hj]
@[simp] theorem stoppingSample_seq_other (hj : st ≠ j) : (s.stoppingSample st).seq[j.val] = s.seq[j.val] := by
  (unfold stoppingSample; dsimp only; repeat' split) <;> simp [hj]
@[simp] theorem stoppingSample_drive_other (hj : st ≠ j) : (s.stoppingSample st).drive[j.val] = s.drive[j.val] := by
  (unfold stoppingSample; dsimp only; repeat' split) <;> simp [hj]
@[simp] theorem handOn_seq_other (hj : st ≠ j) (q : StQuantity) (h : Int) (k : FlagKind) : (handOn st q h s k).seq[j.val] = s.seq[j.val] := by
  (unfold handOn; dsimp only; split) <;> simp [hj]
@[simp] theorem handOn_drive_other (hj : st ≠ j) (q : StQuantity) (h : Int) (k : FlagKind) : (handOn st q h s k).drive[j.val] = s.drive[j.val] := by
  (unfold handOn; dsimp only; split) <;> simp [hj]
@[simp] theorem judgeStep_seq_other (hj : st ≠ j) (q : StQuantity) : (s.judgeStep st q).seq[j.val] = s.seq[j.val] := by
  (unfold judgeStep; repeat' split) <;> simp [hj]
@[simp] theorem judgeStep_drive_other (hj : st ≠ j) (q : StQuantity) : (s.judgeStep st q).drive[j.val] = s.drive[j.val] := by
  (unfold judgeStep; repeat' split) <;> simp [hj]
@[simp] theorem closeUnsteady_seq_other (hj : st ≠ j) (e : EngineId) (g : Nat) : (s.closeUnsteady st e g).seq[j.val] = s.seq[j.val] := by
  (unfold closeUnsteady; dsimp only; split) <;> simp [hj]
@[simp] theorem closeUnsteady_drive_other (hj : st ≠ j) (e : EngineId) (g : Nat) : (s.closeUnsteady st e g).drive[j.val] = s.drive[j.val] := by
  (unfold closeUnsteady; dsimp only; split) <;> simp [hj]
@[simp] theorem discardRevolution_seq_other (hj : st ≠ j) (e : EngineId) (l : GroupLine) (c : Bool) (r : AccelReading) : (s.discardRevolution st e l c r).seq[j.val] = s.seq[j.val] := by
  (unfold discardRevolution; dsimp only; repeat' split) <;> simp [hj]
@[simp] theorem discardRevolution_drive_other (hj : st ≠ j) (e : EngineId) (l : GroupLine) (c : Bool) (r : AccelReading) : (s.discardRevolution st e l c r).drive[j.val] = s.drive[j.val] := by
  (unfold discardRevolution; dsimp only; repeat' split) <;> simp [hj]
@[simp] theorem deferredClaim_seq_other (hj : st ≠ j) : (s.deferredClaim st).seq[j.val] = s.seq[j.val] := by
  (unfold deferredClaim; dsimp only; repeat' split) <;> simp [hj]
@[simp] theorem deferredClaim_drive_other (hj : st ≠ j) : (s.deferredClaim st).drive[j.val] = s.drive[j.val] := by
  (unfold deferredClaim; dsimp only; repeat' split) <;> simp [hj]
@[simp] theorem engineWaitExpiry_seq_other (hj : st ≠ j) : (s.engineWaitExpiry st).seq[j.val] = s.seq[j.val] := by
  (unfold engineWaitExpiry; split) <;> simp [hj]
@[simp] theorem engineWaitExpiry_drive_other (hj : st ≠ j) : (s.engineWaitExpiry st).drive[j.val] = s.drive[j.val] := by
  (unfold engineWaitExpiry; split) <;> simp [hj]
@[simp] theorem driveFaultInput_seq_other (hj : st ≠ j) (a : Bool) : (s.driveFaultInput st a).seq[j.val] = s.seq[j.val] := by
  (unfold driveFaultInput; dsimp only; split) <;> simp [hj]
@[simp] theorem driveFaultInput_drive_other (hj : st ≠ j) (a : Bool) : (s.driveFaultInput st a).drive[j.val] = s.drive[j.val] := by
  (unfold driveFaultInput; dsimp only; split) <;> simp [hj]
@[simp] theorem releaseStation_seq_other (hj : st ≠ j) : (s.releaseStation st).seq[j.val] = s.seq[j.val] := by
  (unfold releaseStation; skip) <;> simp [hj]

/-! ### Other stations kept -/

theorem OthersKept.refl (s : State) (st : Station) : s.OthersKept s st := fun _ _ => ⟨rfl, rfl⟩

theorem OthersKept.trans {s t u : State} {st : Station} (h : s.OthersKept t st) (k : t.OthersKept u st) :
    s.OthersKept u st :=
  fun j hj => ⟨(k j hj).1.trans (h j hj).1, (k j hj).2.trans (h j hj).2⟩

/-- A state with the same contexts and drives keeps the others. -/
theorem OthersKept.of_eq {s t : State} (st : Station) (hs : t.seq = s.seq) (hd : t.drive = s.drive) :
    s.OthersKept t st := fun j _ => ⟨by rw [hs], by rw [hd]⟩

end State

end Sys2Proof.Machine
end

