-- ==== Sys2Proof/Laws/Context.lean ====
section
/-! SUPPORT. What the operations of a test leave of every station's context: its state, its enabled flag, its test
fields, its stopping start time, its private slot, and, where the operation only writes records, its step. -/

namespace Sys2Proof.Machine

open Sys2Proof

set_option Elab.async false

@[simp] theorem Record.addRemark_number (r : Record) (m : Remark) : (r.addRemark m).number = r.number := by
  unfold Record.addRemark; repeat' split
  all_goals rfl
@[simp] theorem Record.addRemark_station (r : Record) (m : Remark) : (r.addRemark m).station = r.station := by
  unfold Record.addRemark; repeat' split
  all_goals rfl
@[simp] theorem Record.addRemark_testTag (r : Record) (m : Remark) : (r.addRemark m).testTag = r.testTag := by
  unfold Record.addRemark; repeat' split
  all_goals rfl
@[simp] theorem Record.addRemark_text (r : Record) (m : Remark) : (r.addRemark m).text = r.text := by
  unfold Record.addRemark; repeat' split
  all_goals rfl
@[simp] theorem Record.addRemark_variant (r : Record) (m : Remark) : (r.addRemark m).variant = r.variant := by
  unfold Record.addRemark; repeat' split
  all_goals rfl
@[simp] theorem Record.addRemark_recipeVariant (r : Record) (m : Remark) : (r.addRemark m).recipeVariant = r.recipeVariant := by
  unfold Record.addRemark; repeat' split
  all_goals rfl
@[simp] theorem Record.addRemark_revision (r : Record) (m : Remark) : (r.addRemark m).revision = r.revision := by
  unfold Record.addRemark; repeat' split
  all_goals rfl
@[simp] theorem Record.addRemark_fingerprint (r : Record) (m : Remark) : (r.addRemark m).fingerprint = r.fingerprint := by
  unfold Record.addRemark; repeat' split
  all_goals rfl
@[simp] theorem Record.addRemark_transient (r : Record) (m : Remark) : (r.addRemark m).transient = r.transient := by
  unfold Record.addRemark; repeat' split
  all_goals rfl
@[simp] theorem Record.addRemark_verification (r : Record) (m : Remark) : (r.addRemark m).verification = r.verification := by
  unfold Record.addRemark; repeat' split
  all_goals rfl
@[simp] theorem Record.addRemark_start (r : Record) (m : Remark) : (r.addRemark m).start = r.start := by
  unfold Record.addRemark; repeat' split
  all_goals rfl
@[simp] theorem Record.addRemark_endTime (r : Record) (m : Remark) : (r.addRemark m).endTime = r.endTime := by
  unfold Record.addRemark; repeat' split
  all_goals rfl
@[simp] theorem Record.addRemark_verdict (r : Record) (m : Remark) : (r.addRemark m).verdict = r.verdict := by
  unfold Record.addRemark; repeat' split
  all_goals rfl
@[simp] theorem Record.addRemark_cause (r : Record) (m : Remark) : (r.addRemark m).cause = r.cause := by
  unfold Record.addRemark; repeat' split
  all_goals rfl
@[simp] theorem Record.addRemark_steps (r : Record) (m : Remark) : (r.addRemark m).steps = r.steps := by
  unfold Record.addRemark; repeat' split
  all_goals rfl
@[simp] theorem Record.addRemark_groups (r : Record) (m : Remark) : (r.addRemark m).groups = r.groups := by
  unfold Record.addRemark; repeat' split
  all_goals rfl
@[simp] theorem Record.addRemark_leaks (r : Record) (m : Remark) : (r.addRemark m).leaks = r.leaks := by
  unfold Record.addRemark; repeat' split
  all_goals rfl
@[simp] theorem Record.addRemark_checks (r : Record) (m : Remark) : (r.addRemark m).checks = r.checks := by
  unfold Record.addRemark; repeat' split
  all_goals rfl
@[simp] theorem Record.heading_steps (r : Record) (x) : ({ r with steps := x } : Record).heading = r.heading := rfl
@[simp] theorem Record.heading_groups (r : Record) (x) : ({ r with groups := x } : Record).heading = r.heading := rfl
@[simp] theorem Record.heading_leaks (r : Record) (x) : ({ r with leaks := x } : Record).heading = r.heading := rfl
@[simp] theorem Record.heading_checks (r : Record) (x) : ({ r with checks := x } : Record).heading = r.heading := rfl
@[simp] theorem Record.heading_remarks (r : Record) (x) : ({ r with remarks := x } : Record).heading = r.heading := rfl
@[simp] theorem Record.heading_remarksFull (r : Record) (x) : ({ r with remarksFull := x } : Record).heading = r.heading := rfl
@[simp] theorem Record.addRemark_heading (r : Record) (m : Remark) : (r.addRemark m).heading = r.heading := by
  unfold Record.addRemark; repeat' split
  all_goals rfl

namespace State

variable (s : State) (j st : Station)

@[simp] theorem modStep_ctx_state (f : StepCtx → StepCtx) : (s.modStep st f).seq[j.val].state = s.seq[j.val].state := by
  unfold modStep; simp; split <;> simp_all
@[simp] theorem modStep_ctx_enabled (f : StepCtx → StepCtx) : (s.modStep st f).seq[j.val].enabled = s.seq[j.val].enabled := by
  unfold modStep; simp; split <;> simp_all
@[simp] theorem modStep_ctx_test (f : StepCtx → StepCtx) : (s.modStep st f).seq[j.val].test = s.seq[j.val].test := by
  unfold modStep; simp; split <;> simp_all
@[simp] theorem modStep_ctx_stopStart (f : StepCtx → StepCtx) : (s.modStep st f).seq[j.val].stopStart = s.seq[j.val].stopStart := by
  unfold modStep; simp; split <;> simp_all
@[simp] theorem modStep_ctx_privateSlot (f : StepCtx → StepCtx) : (s.modStep st f).seq[j.val].privateSlot = s.seq[j.val].privateSlot := by
  unfold modStep; simp; split <;> simp_all
@[simp] theorem modStep_ctx_record (f : StepCtx → StepCtx) : (s.modStep st f).seq[j.val].record = s.seq[j.val].record := by
  unfold modStep; simp; split <;> simp_all
@[simp] theorem modRecord_ctx_state (f : Record → Record) : (s.modRecord st f).seq[j.val].state = s.seq[j.val].state := by
  unfold modRecord; simp; split <;> simp_all
@[simp] theorem modRecord_ctx_enabled (f : Record → Record) : (s.modRecord st f).seq[j.val].enabled = s.seq[j.val].enabled := by
  unfold modRecord; simp; split <;> simp_all
@[simp] theorem modRecord_ctx_test (f : Record → Record) : (s.modRecord st f).seq[j.val].test = s.seq[j.val].test := by
  unfold modRecord; simp; split <;> simp_all
@[simp] theorem modRecord_ctx_stopStart (f : Record → Record) : (s.modRecord st f).seq[j.val].stopStart = s.seq[j.val].stopStart := by
  unfold modRecord; simp; split <;> simp_all
@[simp] theorem modRecord_ctx_privateSlot (f : Record → Record) : (s.modRecord st f).seq[j.val].privateSlot = s.seq[j.val].privateSlot := by
  unfold modRecord; simp; split <;> simp_all
@[simp] theorem modRecord_ctx_step (f : Record → Record) : (s.modRecord st f).seq[j.val].step = s.seq[j.val].step := by
  unfold modRecord; simp; split <;> simp_all
@[simp] theorem remark_ctx_state (m : Remark) : (s.remark st m).seq[j.val].state = s.seq[j.val].state := by
  unfold remark; simp; split <;> simp_all
@[simp] theorem remark_ctx_enabled (m : Remark) : (s.remark st m).seq[j.val].enabled = s.seq[j.val].enabled := by
  unfold remark; simp; split <;> simp_all
@[simp] theorem remark_ctx_test (m : Remark) : (s.remark st m).seq[j.val].test = s.seq[j.val].test := by
  unfold remark; simp; split <;> simp_all
@[simp] theorem remark_ctx_stopStart (m : Remark) : (s.remark st m).seq[j.val].stopStart = s.seq[j.val].stopStart := by
  unfold remark; simp; split <;> simp_all
@[simp] theorem remark_ctx_privateSlot (m : Remark) : (s.remark st m).seq[j.val].privateSlot = s.seq[j.val].privateSlot := by
  unfold remark; simp; split <;> simp_all
@[simp] theorem remark_ctx_step (m : Remark) : (s.remark st m).seq[j.val].step = s.seq[j.val].step := by
  unfold remark; simp; split <;> simp_all
@[simp] theorem addStepEntry_ctx_state (e : StepEntry) : (s.addStepEntry st e).seq[j.val].state = s.seq[j.val].state := by
  unfold addStepEntry; simp; split <;> simp_all
@[simp] theorem addStepEntry_ctx_enabled (e : StepEntry) : (s.addStepEntry st e).seq[j.val].enabled = s.seq[j.val].enabled := by
  unfold addStepEntry; simp; split <;> simp_all
@[simp] theorem addStepEntry_ctx_test (e : StepEntry) : (s.addStepEntry st e).seq[j.val].test = s.seq[j.val].test := by
  unfold addStepEntry; simp; split <;> simp_all
@[simp] theorem addStepEntry_ctx_stopStart (e : StepEntry) : (s.addStepEntry st e).seq[j.val].stopStart = s.seq[j.val].stopStart := by
  unfold addStepEntry; simp; split <;> simp_all
@[simp] theorem addStepEntry_ctx_privateSlot (e : StepEntry) : (s.addStepEntry st e).seq[j.val].privateSlot = s.seq[j.val].privateSlot := by
  unfold addStepEntry; simp; split <;> simp_all
@[simp] theorem addStepEntry_ctx_step (e : StepEntry) : (s.addStepEntry st e).seq[j.val].step = s.seq[j.val].step := by
  unfold addStepEntry; simp; split <;> simp_all
@[simp] theorem addGroupResult_ctx_state (e : GroupResult) : (s.addGroupResult st e).seq[j.val].state = s.seq[j.val].state := by
  unfold addGroupResult; simp; split <;> simp_all
@[simp] theorem addGroupResult_ctx_enabled (e : GroupResult) : (s.addGroupResult st e).seq[j.val].enabled = s.seq[j.val].enabled := by
  unfold addGroupResult; simp; split <;> simp_all
@[simp] theorem addGroupResult_ctx_test (e : GroupResult) : (s.addGroupResult st e).seq[j.val].test = s.seq[j.val].test := by
  unfold addGroupResult; simp; split <;> simp_all
@[simp] theorem addGroupResult_ctx_stopStart (e : GroupResult) : (s.addGroupResult st e).seq[j.val].stopStart = s.seq[j.val].stopStart := by
  unfold addGroupResult; simp; split <;> simp_all
@[simp] theorem addGroupResult_ctx_privateSlot (e : GroupResult) : (s.addGroupResult st e).seq[j.val].privateSlot = s.seq[j.val].privateSlot := by
  unfold addGroupResult; simp; split <;> simp_all
@[simp] theorem addGroupResult_ctx_step (e : GroupResult) : (s.addGroupResult st e).seq[j.val].step = s.seq[j.val].step := by
  unfold addGroupResult; simp; split <;> simp_all
@[simp] theorem addLeakResult_ctx_state (e : LeakResult) : (s.addLeakResult st e).seq[j.val].state = s.seq[j.val].state := by
  unfold addLeakResult; simp; split <;> simp_all
@[simp] theorem addLeakResult_ctx_enabled (e : LeakResult) : (s.addLeakResult st e).seq[j.val].enabled = s.seq[j.val].enabled := by
  unfold addLeakResult; simp; split <;> simp_all
@[simp] theorem addLeakResult_ctx_test (e : LeakResult) : (s.addLeakResult st e).seq[j.val].test = s.seq[j.val].test := by
  unfold addLeakResult; simp; split <;> simp_all
@[simp] theorem addLeakResult_ctx_stopStart (e : LeakResult) : (s.addLeakResult st e).seq[j.val].stopStart = s.seq[j.val].stopStart := by
  unfold addLeakResult; simp; split <;> simp_all
@[simp] theorem addLeakResult_ctx_privateSlot (e : LeakResult) : (s.addLeakResult st e).seq[j.val].privateSlot = s.seq[j.val].privateSlot := by
  unfold addLeakResult; simp; split <;> simp_all
@[simp] theorem addLeakResult_ctx_step (e : LeakResult) : (s.addLeakResult st e).seq[j.val].step = s.seq[j.val].step := by
  unfold addLeakResult; simp; split <;> simp_all
@[simp] theorem addCheckResult_ctx_state (e : CheckResult) : (s.addCheckResult st e).seq[j.val].state = s.seq[j.val].state := by
  unfold addCheckResult; simp; split <;> simp_all
@[simp] theorem addCheckResult_ctx_enabled (e : CheckResult) : (s.addCheckResult st e).seq[j.val].enabled = s.seq[j.val].enabled := by
  unfold addCheckResult; simp; split <;> simp_all
@[simp] theorem addCheckResult_ctx_test (e : CheckResult) : (s.addCheckResult st e).seq[j.val].test = s.seq[j.val].test := by
  unfold addCheckResult; simp; split <;> simp_all
@[simp] theorem addCheckResult_ctx_stopStart (e : CheckResult) : (s.addCheckResult st e).seq[j.val].stopStart = s.seq[j.val].stopStart := by
  unfold addCheckResult; simp; split <;> simp_all
@[simp] theorem addCheckResult_ctx_privateSlot (e : CheckResult) : (s.addCheckResult st e).seq[j.val].privateSlot = s.seq[j.val].privateSlot := by
  unfold addCheckResult; simp; split <;> simp_all
@[simp] theorem addCheckResult_ctx_step (e : CheckResult) : (s.addCheckResult st e).seq[j.val].step = s.seq[j.val].step := by
  unfold addCheckResult; simp; split <;> simp_all
@[simp] theorem closeRecord_ctx_state : (s.closeRecord st).seq[j.val].state = s.seq[j.val].state := by
  unfold closeRecord; simp; split <;> simp_all
@[simp] theorem closeRecord_ctx_enabled : (s.closeRecord st).seq[j.val].enabled = s.seq[j.val].enabled := by
  unfold closeRecord; simp; split <;> simp_all
@[simp] theorem closeRecord_ctx_test : (s.closeRecord st).seq[j.val].test = s.seq[j.val].test := by
  unfold closeRecord; simp; split <;> simp_all
@[simp] theorem closeRecord_ctx_stopStart : (s.closeRecord st).seq[j.val].stopStart = s.seq[j.val].stopStart := by
  unfold closeRecord; simp; split <;> simp_all
@[simp] theorem closeRecord_ctx_privateSlot : (s.closeRecord st).seq[j.val].privateSlot = s.seq[j.val].privateSlot := by
  unfold closeRecord; simp; split <;> simp_all
@[simp] theorem closeRecord_ctx_step : (s.closeRecord st).seq[j.val].step = s.seq[j.val].step := by
  unfold closeRecord; simp; split <;> simp_all
@[simp] theorem enterGroup_ctx_state (r : GroupResult) : (s.enterGroup st r).seq[j.val].state = s.seq[j.val].state := by
  unfold enterGroup; simp; split <;> simp_all
@[simp] theorem enterGroup_ctx_enabled (r : GroupResult) : (s.enterGroup st r).seq[j.val].enabled = s.seq[j.val].enabled := by
  unfold enterGroup; simp; split <;> simp_all
@[simp] theorem enterGroup_ctx_test (r : GroupResult) : (s.enterGroup st r).seq[j.val].test = s.seq[j.val].test := by
  unfold enterGroup; simp; split <;> simp_all
@[simp] theorem enterGroup_ctx_stopStart (r : GroupResult) : (s.enterGroup st r).seq[j.val].stopStart = s.seq[j.val].stopStart := by
  unfold enterGroup; simp; split <;> simp_all
@[simp] theorem enterGroup_ctx_privateSlot (r : GroupResult) : (s.enterGroup st r).seq[j.val].privateSlot = s.seq[j.val].privateSlot := by
  unfold enterGroup; simp; split <;> simp_all
@[simp] theorem enterGroup_ctx_step (r : GroupResult) : (s.enterGroup st r).seq[j.val].step = s.seq[j.val].step := by
  unfold enterGroup; simp; split <;> simp_all
@[simp] theorem settleGroups_ctx_state : (s.settleGroups st).seq[j.val].state = s.seq[j.val].state := by
  unfold settleGroups; simp; split <;> simp_all
@[simp] theorem settleGroups_ctx_enabled : (s.settleGroups st).seq[j.val].enabled = s.seq[j.val].enabled := by
  unfold settleGroups; simp; split <;> simp_all
@[simp] theorem settleGroups_ctx_test : (s.settleGroups st).seq[j.val].test = s.seq[j.val].test := by
  unfold settleGroups; simp; split <;> simp_all
@[simp] theorem settleGroups_ctx_stopStart : (s.settleGroups st).seq[j.val].stopStart = s.seq[j.val].stopStart := by
  unfold settleGroups; simp; split <;> simp_all
@[simp] theorem settleGroups_ctx_privateSlot : (s.settleGroups st).seq[j.val].privateSlot = s.seq[j.val].privateSlot := by
  unfold settleGroups; simp; split <;> simp_all
@[simp] theorem settleGroups_ctx_step : (s.settleGroups st).seq[j.val].step = s.seq[j.val].step := by
  unfold settleGroups; simp; split <;> simp_all
@[simp] theorem deliver_ctx_state (r : GroupResult) : (s.deliver st r).seq[j.val].state = s.seq[j.val].state := by
  unfold deliver; simp; split <;> simp_all
@[simp] theorem deliver_ctx_enabled (r : GroupResult) : (s.deliver st r).seq[j.val].enabled = s.seq[j.val].enabled := by
  unfold deliver; simp; split <;> simp_all
@[simp] theorem deliver_ctx_test (r : GroupResult) : (s.deliver st r).seq[j.val].test = s.seq[j.val].test := by
  unfold deliver; simp; split <;> simp_all
@[simp] theorem deliver_ctx_stopStart (r : GroupResult) : (s.deliver st r).seq[j.val].stopStart = s.seq[j.val].stopStart := by
  unfold deliver; simp; split <;> simp_all
@[simp] theorem deliver_ctx_privateSlot (r : GroupResult) : (s.deliver st r).seq[j.val].privateSlot = s.seq[j.val].privateSlot := by
  unfold deliver; simp; split <;> simp_all
@[simp] theorem deliver_ctx_step (r : GroupResult) : (s.deliver st r).seq[j.val].step = s.seq[j.val].step := by
  unfold deliver; simp; split <;> simp_all
@[simp] theorem decideLeak_ctx_state (r : LeakResult) : (s.decideLeak st r).seq[j.val].state = s.seq[j.val].state := by
  by_cases hj : st = j
  · subst hj; (unfold decideLeak; dsimp only; split) <;> simp
  · (unfold decideLeak; dsimp only; split) <;> simp [hj]
@[simp] theorem decideLeak_ctx_enabled (r : LeakResult) : (s.decideLeak st r).seq[j.val].enabled = s.seq[j.val].enabled := by
  by_cases hj : st = j
  · subst hj; (unfold decideLeak; dsimp only; split) <;> simp
  · (unfold decideLeak; dsimp only; split) <;> simp [hj]
@[simp] theorem decideLeak_ctx_test (r : LeakResult) : (s.decideLeak st r).seq[j.val].test = s.seq[j.val].test := by
  by_cases hj : st = j
  · subst hj; (unfold decideLeak; dsimp only; split) <;> simp
  · (unfold decideLeak; dsimp only; split) <;> simp [hj]
@[simp] theorem decideLeak_ctx_stopStart (r : LeakResult) : (s.decideLeak st r).seq[j.val].stopStart = s.seq[j.val].stopStart := by
  by_cases hj : st = j
  · subst hj; (unfold decideLeak; dsimp only; split) <;> simp
  · (unfold decideLeak; dsimp only; split) <;> simp [hj]
@[simp] theorem decideLeak_ctx_privateSlot (r : LeakResult) : (s.decideLeak st r).seq[j.val].privateSlot = s.seq[j.val].privateSlot := by
  by_cases hj : st = j
  · subst hj; (unfold decideLeak; dsimp only; split) <;> simp
  · (unfold decideLeak; dsimp only; split) <;> simp [hj]
@[simp] theorem decideLeak_ctx_step (r : LeakResult) : (s.decideLeak st r).seq[j.val].step = s.seq[j.val].step := by
  by_cases hj : st = j
  · subst hj; (unfold decideLeak; dsimp only; split) <;> simp
  · (unfold decideLeak; dsimp only; split) <;> simp [hj]
@[simp] theorem leakExit_ctx_state : (s.leakExit st).seq[j.val].state = s.seq[j.val].state := by
  by_cases hj : st = j
  · subst hj; (unfold leakExit; dsimp only; split) <;> simp
  · (unfold leakExit; dsimp only; split) <;> simp [hj]
@[simp] theorem leakExit_ctx_enabled : (s.leakExit st).seq[j.val].enabled = s.seq[j.val].enabled := by
  by_cases hj : st = j
  · subst hj; (unfold leakExit; dsimp only; split) <;> simp
  · (unfold leakExit; dsimp only; split) <;> simp [hj]
@[simp] theorem leakExit_ctx_test : (s.leakExit st).seq[j.val].test = s.seq[j.val].test := by
  by_cases hj : st = j
  · subst hj; (unfold leakExit; dsimp only; split) <;> simp
  · (unfold leakExit; dsimp only; split) <;> simp [hj]
@[simp] theorem leakExit_ctx_stopStart : (s.leakExit st).seq[j.val].stopStart = s.seq[j.val].stopStart := by
  by_cases hj : st = j
  · subst hj; (unfold leakExit; dsimp only; split) <;> simp
  · (unfold leakExit; dsimp only; split) <;> simp [hj]
@[simp] theorem leakExit_ctx_privateSlot : (s.leakExit st).seq[j.val].privateSlot = s.seq[j.val].privateSlot := by
  by_cases hj : st = j
  · subst hj; (unfold leakExit; dsimp only; split) <;> simp
  · (unfold leakExit; dsimp only; split) <;> simp [hj]
@[simp] theorem leakExit_ctx_step : (s.leakExit st).seq[j.val].step = s.seq[j.val].step := by
  by_cases hj : st = j
  · subst hj; (unfold leakExit; dsimp only; split) <;> simp
  · (unfold leakExit; dsimp only; split) <;> simp [hj]
@[simp] theorem leakClose_ctx_state : (s.leakClose st).seq[j.val].state = s.seq[j.val].state := by
  by_cases hj : st = j
  · subst hj; (unfold leakClose; split) <;> simp
  · (unfold leakClose; split) <;> simp [hj]
@[simp] theorem leakClose_ctx_enabled : (s.leakClose st).seq[j.val].enabled = s.seq[j.val].enabled := by
  by_cases hj : st = j
  · subst hj; (unfold leakClose; split) <;> simp
  · (unfold leakClose; split) <;> simp [hj]
@[simp] theorem leakClose_ctx_test : (s.leakClose st).seq[j.val].test = s.seq[j.val].test := by
  by_cases hj : st = j
  · subst hj; (unfold leakClose; split) <;> simp
  · (unfold leakClose; split) <;> simp [hj]
@[simp] theorem leakClose_ctx_stopStart : (s.leakClose st).seq[j.val].stopStart = s.seq[j.val].stopStart := by
  by_cases hj : st = j
  · subst hj; (unfold leakClose; split) <;> simp
  · (unfold leakClose; split) <;> simp [hj]
@[simp] theorem leakClose_ctx_privateSlot : (s.leakClose st).seq[j.val].privateSlot = s.seq[j.val].privateSlot := by
  by_cases hj : st = j
  · subst hj; (unfold leakClose; split) <;> simp
  · (unfold leakClose; split) <;> simp [hj]
@[simp] theorem leakClose_ctx_step : (s.leakClose st).seq[j.val].step = s.seq[j.val].step := by
  by_cases hj : st = j
  · subst hj; (unfold leakClose; split) <;> simp
  · (unfold leakClose; split) <;> simp [hj]
@[simp] theorem unmeasured_ctx_state (g : Nat) : (s.unmeasured st g).seq[j.val].state = s.seq[j.val].state := by
  by_cases hj : st = j
  · subst hj; (unfold unmeasured; dsimp only; repeat' split) <;> simp
  · (unfold unmeasured; dsimp only; repeat' split) <;> simp [hj]
@[simp] theorem unmeasured_ctx_enabled (g : Nat) : (s.unmeasured st g).seq[j.val].enabled = s.seq[j.val].enabled := by
  by_cases hj : st = j
  · subst hj; (unfold unmeasured; dsimp only; repeat' split) <;> simp
  · (unfold unmeasured; dsimp only; repeat' split) <;> simp [hj]
@[simp] theorem unmeasured_ctx_test (g : Nat) : (s.unmeasured st g).seq[j.val].test = s.seq[j.val].test := by
  by_cases hj : st = j
  · subst hj; (unfold unmeasured; dsimp only; repeat' split) <;> simp
  · (unfold unmeasured; dsimp only; repeat' split) <;> simp [hj]
@[simp] theorem unmeasured_ctx_stopStart (g : Nat) : (s.unmeasured st g).seq[j.val].stopStart = s.seq[j.val].stopStart := by
  by_cases hj : st = j
  · subst hj; (unfold unmeasured; dsimp only; repeat' split) <;> simp
  · (unfold unmeasured; dsimp only; repeat' split) <;> simp [hj]
@[simp] theorem unmeasured_ctx_privateSlot (g : Nat) : (s.unmeasured st g).seq[j.val].privateSlot = s.seq[j.val].privateSlot := by
  by_cases hj : st = j
  · subst hj; (unfold unmeasured; dsimp only; repeat' split) <;> simp
  · (unfold unmeasured; dsimp only; repeat' split) <;> simp [hj]
@[simp] theorem claimEngine_ctx_state (g : Nat) : (s.claimEngine st g).seq[j.val].state = s.seq[j.val].state := by
  by_cases hj : st = j
  · subst hj; (unfold claimEngine; repeat' split) <;> simp
  · (unfold claimEngine; repeat' split) <;> simp [hj]
@[simp] theorem claimEngine_ctx_enabled (g : Nat) : (s.claimEngine st g).seq[j.val].enabled = s.seq[j.val].enabled := by
  by_cases hj : st = j
  · subst hj; (unfold claimEngine; repeat' split) <;> simp
  · (unfold claimEngine; repeat' split) <;> simp [hj]
@[simp] theorem claimEngine_ctx_test (g : Nat) : (s.claimEngine st g).seq[j.val].test = s.seq[j.val].test := by
  by_cases hj : st = j
  · subst hj; (unfold claimEngine; repeat' split) <;> simp
  · (unfold claimEngine; repeat' split) <;> simp [hj]
@[simp] theorem claimEngine_ctx_stopStart (g : Nat) : (s.claimEngine st g).seq[j.val].stopStart = s.seq[j.val].stopStart := by
  by_cases hj : st = j
  · subst hj; (unfold claimEngine; repeat' split) <;> simp
  · (unfold claimEngine; repeat' split) <;> simp [hj]
@[simp] theorem claimEngine_ctx_privateSlot (g : Nat) : (s.claimEngine st g).seq[j.val].privateSlot = s.seq[j.val].privateSlot := by
  by_cases hj : st = j
  · subst hj; (unfold claimEngine; repeat' split) <;> simp
  · (unfold claimEngine; repeat' split) <;> simp [hj]
@[simp] theorem windowStart_ctx_state (g : Nat) : (s.windowStart st g).seq[j.val].state = s.seq[j.val].state := by
  by_cases hj : st = j
  · subst hj; (unfold windowStart; dsimp only; repeat' split) <;> simp
  · (unfold windowStart; dsimp only; repeat' split) <;> simp [hj]
@[simp] theorem windowStart_ctx_enabled (g : Nat) : (s.windowStart st g).seq[j.val].enabled = s.seq[j.val].enabled := by
  by_cases hj : st = j
  · subst hj; (unfold windowStart; dsimp only; repeat' split) <;> simp
  · (unfold windowStart; dsimp only; repeat' split) <;> simp [hj]
@[simp] theorem windowStart_ctx_test (g : Nat) : (s.windowStart st g).seq[j.val].test = s.seq[j.val].test := by
  by_cases hj : st = j
  · subst hj; (unfold windowStart; dsimp only; repeat' split) <;> simp
  · (unfold windowStart; dsimp only; repeat' split) <;> simp [hj]
@[simp] theorem windowStart_ctx_stopStart (g : Nat) : (s.windowStart st g).seq[j.val].stopStart = s.seq[j.val].stopStart := by
  by_cases hj : st = j
  · subst hj; (unfold windowStart; dsimp only; repeat' split) <;> simp
  · (unfold windowStart; dsimp only; repeat' split) <;> simp [hj]
@[simp] theorem windowStart_ctx_privateSlot (g : Nat) : (s.windowStart st g).seq[j.val].privateSlot = s.seq[j.val].privateSlot := by
  by_cases hj : st = j
  · subst hj; (unfold windowStart; dsimp only; repeat' split) <;> simp
  · (unfold windowStart; dsimp only; repeat' split) <;> simp [hj]
@[simp] theorem windowEnd_ctx_state (g i : Nat) : (s.windowEnd st g i).seq[j.val].state = s.seq[j.val].state := by
  by_cases hj : st = j
  · subst hj; (unfold windowEnd; dsimp only; repeat' split) <;> simp
  · (unfold windowEnd; dsimp only; repeat' split) <;> simp [hj]
@[simp] theorem windowEnd_ctx_enabled (g i : Nat) : (s.windowEnd st g i).seq[j.val].enabled = s.seq[j.val].enabled := by
  by_cases hj : st = j
  · subst hj; (unfold windowEnd; dsimp only; repeat' split) <;> simp
  · (unfold windowEnd; dsimp only; repeat' split) <;> simp [hj]
@[simp] theorem windowEnd_ctx_test (g i : Nat) : (s.windowEnd st g i).seq[j.val].test = s.seq[j.val].test := by
  by_cases hj : st = j
  · subst hj; (unfold windowEnd; dsimp only; repeat' split) <;> simp
  · (unfold windowEnd; dsimp only; repeat' split) <;> simp [hj]
@[simp] theorem windowEnd_ctx_stopStart (g i : Nat) : (s.windowEnd st g i).seq[j.val].stopStart = s.seq[j.val].stopStart := by
  by_cases hj : st = j
  · subst hj; (unfold windowEnd; dsimp only; repeat' split) <;> simp
  · (unfold windowEnd; dsimp only; repeat' split) <;> simp [hj]
@[simp] theorem windowEnd_ctx_privateSlot (g i : Nat) : (s.windowEnd st g i).seq[j.val].privateSlot = s.seq[j.val].privateSlot := by
  by_cases hj : st = j
  · subst hj; (unfold windowEnd; dsimp only; repeat' split) <;> simp
  · (unfold windowEnd; dsimp only; repeat' split) <;> simp [hj]
@[simp] theorem noiseExit_ctx_state : (s.noiseExit st).seq[j.val].state = s.seq[j.val].state := by
  by_cases hj : st = j
  · subst hj; (unfold noiseExit; dsimp only; repeat' split) <;> simp
  · (unfold noiseExit; dsimp only; repeat' split) <;> simp [hj]
@[simp] theorem noiseExit_ctx_enabled : (s.noiseExit st).seq[j.val].enabled = s.seq[j.val].enabled := by
  by_cases hj : st = j
  · subst hj; (unfold noiseExit; dsimp only; repeat' split) <;> simp
  · (unfold noiseExit; dsimp only; repeat' split) <;> simp [hj]
@[simp] theorem noiseExit_ctx_test : (s.noiseExit st).seq[j.val].test = s.seq[j.val].test := by
  by_cases hj : st = j
  · subst hj; (unfold noiseExit; dsimp only; repeat' split) <;> simp
  · (unfold noiseExit; dsimp only; repeat' split) <;> simp [hj]
@[simp] theorem noiseExit_ctx_stopStart : (s.noiseExit st).seq[j.val].stopStart = s.seq[j.val].stopStart := by
  by_cases hj : st = j
  · subst hj; (unfold noiseExit; dsimp only; repeat' split) <;> simp
  · (unfold noiseExit; dsimp only; repeat' split) <;> simp [hj]
@[simp] theorem noiseExit_ctx_privateSlot : (s.noiseExit st).seq[j.val].privateSlot = s.seq[j.val].privateSlot := by
  by_cases hj : st = j
  · subst hj; (unfold noiseExit; dsimp only; repeat' split) <;> simp
  · (unfold noiseExit; dsimp only; repeat' split) <;> simp [hj]
@[simp] theorem noiseExit_ctx_step : (s.noiseExit st).seq[j.val].step = s.seq[j.val].step := by
  by_cases hj : st = j
  · subst hj; (unfold noiseExit; dsimp only; repeat' split) <;> simp
  · (unfold noiseExit; dsimp only; repeat' split) <;> simp [hj]
@[simp] theorem closeStep_ctx_state : (s.closeStep st).seq[j.val].state = s.seq[j.val].state := by
  by_cases hj : st = j
  · subst hj; (unfold closeStep; split) <;> simp
  · (unfold closeStep; split) <;> simp [hj]
@[simp] theorem closeStep_ctx_enabled : (s.closeStep st).seq[j.val].enabled = s.seq[j.val].enabled := by
  by_cases hj : st = j
  · subst hj; (unfold closeStep; split) <;> simp
  · (unfold closeStep; split) <;> simp [hj]
@[simp] theorem closeStep_ctx_test : (s.closeStep st).seq[j.val].test = s.seq[j.val].test := by
  by_cases hj : st = j
  · subst hj; (unfold closeStep; split) <;> simp
  · (unfold closeStep; split) <;> simp [hj]
@[simp] theorem closeStep_ctx_stopStart : (s.closeStep st).seq[j.val].stopStart = s.seq[j.val].stopStart := by
  by_cases hj : st = j
  · subst hj; (unfold closeStep; split) <;> simp
  · (unfold closeStep; split) <;> simp [hj]
@[simp] theorem closeStep_ctx_privateSlot : (s.closeStep st).seq[j.val].privateSlot = s.seq[j.val].privateSlot := by
  by_cases hj : st = j
  · subst hj; (unfold closeStep; split) <;> simp
  · (unfold closeStep; split) <;> simp [hj]
@[simp] theorem leaveRunning_ctx_state : (s.leaveRunning st).seq[j.val].state = s.seq[j.val].state := by
  by_cases hj : st = j
  · subst hj; (unfold leaveRunning; skip) <;> simp
  · (unfold leaveRunning; skip) <;> simp [hj]
@[simp] theorem leaveRunning_ctx_enabled : (s.leaveRunning st).seq[j.val].enabled = s.seq[j.val].enabled := by
  by_cases hj : st = j
  · subst hj; (unfold leaveRunning; skip) <;> simp
  · (unfold leaveRunning; skip) <;> simp [hj]
@[simp] theorem leaveRunning_ctx_test : (s.leaveRunning st).seq[j.val].test = s.seq[j.val].test := by
  by_cases hj : st = j
  · subst hj; (unfold leaveRunning; skip) <;> simp
  · (unfold leaveRunning; skip) <;> simp [hj]
@[simp] theorem leaveRunning_ctx_stopStart : (s.leaveRunning st).seq[j.val].stopStart = s.seq[j.val].stopStart := by
  by_cases hj : st = j
  · subst hj; (unfold leaveRunning; skip) <;> simp
  · (unfold leaveRunning; skip) <;> simp [hj]
@[simp] theorem leaveRunning_ctx_privateSlot : (s.leaveRunning st).seq[j.val].privateSlot = s.seq[j.val].privateSlot := by
  by_cases hj : st = j
  · subst hj; (unfold leaveRunning; skip) <;> simp
  · (unfold leaveRunning; skip) <;> simp [hj]
@[simp] theorem finishStep_ctx_state (o : StepOutcome) (c : Option StepCause) : (s.finishStep st o c).seq[j.val].state = s.seq[j.val].state := by
  by_cases hj : st = j
  · subst hj; (unfold finishStep; split) <;> simp
  · (unfold finishStep; split) <;> simp [hj]
@[simp] theorem finishStep_ctx_enabled (o : StepOutcome) (c : Option StepCause) : (s.finishStep st o c).seq[j.val].enabled = s.seq[j.val].enabled := by
  by_cases hj : st = j
  · subst hj; (unfold finishStep; split) <;> simp
  · (unfold finishStep; split) <;> simp [hj]
@[simp] theorem finishStep_ctx_test (o : StepOutcome) (c : Option StepCause) : (s.finishStep st o c).seq[j.val].test = s.seq[j.val].test := by
  by_cases hj : st = j
  · subst hj; (unfold finishStep; split) <;> simp
  · (unfold finishStep; split) <;> simp [hj]
@[simp] theorem finishStep_ctx_stopStart (o : StepOutcome) (c : Option StepCause) : (s.finishStep st o c).seq[j.val].stopStart = s.seq[j.val].stopStart := by
  by_cases hj : st = j
  · subst hj; (unfold finishStep; split) <;> simp
  · (unfold finishStep; split) <;> simp [hj]
@[simp] theorem finishStep_ctx_privateSlot (o : StepOutcome) (c : Option StepCause) : (s.finishStep st o c).seq[j.val].privateSlot = s.seq[j.val].privateSlot := by
  by_cases hj : st = j
  · subst hj; (unfold finishStep; split) <;> simp
  · (unfold finishStep; split) <;> simp [hj]
@[simp] theorem warn_ctx_state (q : StQuantity) (k : FlagKind) : (s.warn st q k).seq[j.val].state = s.seq[j.val].state := by
  by_cases hj : st = j
  · subst hj; (unfold warn; split) <;> simp
  · (unfold warn; split) <;> simp [hj]
@[simp] theorem warn_ctx_enabled (q : StQuantity) (k : FlagKind) : (s.warn st q k).seq[j.val].enabled = s.seq[j.val].enabled := by
  by_cases hj : st = j
  · subst hj; (unfold warn; split) <;> simp
  · (unfold warn; split) <;> simp [hj]
@[simp] theorem warn_ctx_test (q : StQuantity) (k : FlagKind) : (s.warn st q k).seq[j.val].test = s.seq[j.val].test := by
  by_cases hj : st = j
  · subst hj; (unfold warn; split) <;> simp
  · (unfold warn; split) <;> simp [hj]
@[simp] theorem warn_ctx_stopStart (q : StQuantity) (k : FlagKind) : (s.warn st q k).seq[j.val].stopStart = s.seq[j.val].stopStart := by
  by_cases hj : st = j
  · subst hj; (unfold warn; split) <;> simp
  · (unfold warn; split) <;> simp [hj]
@[simp] theorem warn_ctx_privateSlot (q : StQuantity) (k : FlagKind) : (s.warn st q k).seq[j.val].privateSlot = s.seq[j.val].privateSlot := by
  by_cases hj : st = j
  · subst hj; (unfold warn; split) <;> simp
  · (unfold warn; split) <;> simp [hj]
@[simp] theorem warn_ctx_step (q : StQuantity) (k : FlagKind) : (s.warn st q k).seq[j.val].step = s.seq[j.val].step := by
  by_cases hj : st = j
  · subst hj; (unfold warn; split) <;> simp
  · (unfold warn; split) <;> simp [hj]
/-! ### The record in progress: the lists an operation leaves -/

@[simp] theorem remark_record_steps (m : Remark) :
    (s.remark st m).seq[j.val].record.map Record.steps = s.seq[j.val].record.map Record.steps := by
  by_cases hj : st = j
  · subst hj; (unfold remark; skip) <;> simp [Function.comp_def]
  · (unfold remark; skip) <;> simp [hj]
@[simp] theorem remark_record_groups (m : Remark) :
    (s.remark st m).seq[j.val].record.map Record.groups = s.seq[j.val].record.map Record.groups := by
  by_cases hj : st = j
  · subst hj; (unfold remark; skip) <;> simp [Function.comp_def]
  · (unfold remark; skip) <;> simp [hj]
@[simp] theorem remark_record_leaks (m : Remark) :
    (s.remark st m).seq[j.val].record.map Record.leaks = s.seq[j.val].record.map Record.leaks := by
  by_cases hj : st = j
  · subst hj; (unfold remark; skip) <;> simp [Function.comp_def]
  · (unfold remark; skip) <;> simp [hj]
@[simp] theorem remark_record_checks (m : Remark) :
    (s.remark st m).seq[j.val].record.map Record.checks = s.seq[j.val].record.map Record.checks := by
  by_cases hj : st = j
  · subst hj; (unfold remark; skip) <;> simp [Function.comp_def]
  · (unfold remark; skip) <;> simp [hj]
@[simp] theorem remark_record_cause (m : Remark) :
    (s.remark st m).seq[j.val].record.map Record.cause = s.seq[j.val].record.map Record.cause := by
  by_cases hj : st = j
  · subst hj; (unfold remark; skip) <;> simp [Function.comp_def]
  · (unfold remark; skip) <;> simp [hj]
@[simp] theorem remark_record_heading (m : Remark) :
    (s.remark st m).seq[j.val].record.map Record.heading = s.seq[j.val].record.map Record.heading := by
  by_cases hj : st = j
  · subst hj; (unfold remark; skip) <;> simp [Function.comp_def]
  · (unfold remark; skip) <;> simp [hj]
@[simp] theorem addStepEntry_record_groups (e : StepEntry) :
    (s.addStepEntry st e).seq[j.val].record.map Record.groups = s.seq[j.val].record.map Record.groups := by
  by_cases hj : st = j
  · subst hj; (unfold addStepEntry; skip) <;> simp [Function.comp_def]
  · (unfold addStepEntry; skip) <;> simp [hj]
@[simp] theorem addStepEntry_record_leaks (e : StepEntry) :
    (s.addStepEntry st e).seq[j.val].record.map Record.leaks = s.seq[j.val].record.map Record.leaks := by
  by_cases hj : st = j
  · subst hj; (unfold addStepEntry; skip) <;> simp [Function.comp_def]
  · (unfold addStepEntry; skip) <;> simp [hj]
@[simp] theorem addStepEntry_record_checks (e : StepEntry) :
    (s.addStepEntry st e).seq[j.val].record.map Record.checks = s.seq[j.val].record.map Record.checks := by
  by_cases hj : st = j
  · subst hj; (unfold addStepEntry; skip) <;> simp [Function.comp_def]
  · (unfold addStepEntry; skip) <;> simp [hj]
@[simp] theorem addStepEntry_record_cause (e : StepEntry) :
    (s.addStepEntry st e).seq[j.val].record.map Record.cause = s.seq[j.val].record.map Record.cause := by
  by_cases hj : st = j
  · subst hj; (unfold addStepEntry; skip) <;> simp [Function.comp_def]
  · (unfold addStepEntry; skip) <;> simp [hj]
@[simp] theorem addStepEntry_record_heading (e : StepEntry) :
    (s.addStepEntry st e).seq[j.val].record.map Record.heading = s.seq[j.val].record.map Record.heading := by
  by_cases hj : st = j
  · subst hj; (unfold addStepEntry; skip) <;> simp [Function.comp_def]
  · (unfold addStepEntry; skip) <;> simp [hj]
@[simp] theorem addGroupResult_record_steps (e : GroupResult) :
    (s.addGroupResult st e).seq[j.val].record.map Record.steps = s.seq[j.val].record.map Record.steps := by
  by_cases hj : st = j
  · subst hj; (unfold addGroupResult; skip) <;> simp [Function.comp_def]
  · (unfold addGroupResult; skip) <;> simp [hj]
@[simp] theorem addGroupResult_record_leaks (e : GroupResult) :
    (s.addGroupResult st e).seq[j.val].record.map Record.leaks = s.seq[j.val].record.map Record.leaks := by
  by_cases hj : st = j
  · subst hj; (unfold addGroupResult; skip) <;> simp [Function.comp_def]
  · (unfold addGroupResult; skip) <;> simp [hj]
@[simp] theorem addGroupResult_record_checks (e : GroupResult) :
    (s.addGroupResult st e).seq[j.val].record.map Record.checks = s.seq[j.val].record.map Record.checks := by
  by_cases hj : st = j
  · subst hj; (unfold addGroupResult; skip) <;> simp [Function.comp_def]
  · (unfold addGroupResult; skip) <;> simp [hj]
@[simp] theorem addGroupResult_record_cause (e : GroupResult) :
    (s.addGroupResult st e).seq[j.val].record.map Record.cause = s.seq[j.val].record.map Record.cause := by
  by_cases hj : st = j
  · subst hj; (unfold addGroupResult; skip) <;> simp [Function.comp_def]
  · (unfold addGroupResult; skip) <;> simp [hj]
@[simp] theorem addGroupResult_record_heading (e : GroupResult) :
    (s.addGroupResult st e).seq[j.val].record.map Record.heading = s.seq[j.val].record.map Record.heading := by
  by_cases hj : st = j
  · subst hj; (unfold addGroupResult; skip) <;> simp [Function.comp_def]
  · (unfold addGroupResult; skip) <;> simp [hj]
@[simp] theorem addLeakResult_record_steps (e : LeakResult) :
    (s.addLeakResult st e).seq[j.val].record.map Record.steps = s.seq[j.val].record.map Record.steps := by
  by_cases hj : st = j
  · subst hj; (unfold addLeakResult; skip) <;> simp [Function.comp_def]
  · (unfold addLeakResult; skip) <;> simp [hj]
@[simp] theorem addLeakResult_record_groups (e : LeakResult) :
    (s.addLeakResult st e).seq[j.val].record.map Record.groups = s.seq[j.val].record.map Record.groups := by
  by_cases hj : st = j
  · subst hj; (unfold addLeakResult; skip) <;> simp [Function.comp_def]
  · (unfold addLeakResult; skip) <;> simp [hj]
@[simp] theorem addLeakResult_record_checks (e : LeakResult) :
    (s.addLeakResult st e).seq[j.val].record.map Record.checks = s.seq[j.val].record.map Record.checks := by
  by_cases hj : st = j
  · subst hj; (unfold addLeakResult; skip) <;> simp [Function.comp_def]
  · (unfold addLeakResult; skip) <;> simp [hj]
@[simp] theorem addLeakResult_record_cause (e : LeakResult) :
    (s.addLeakResult st e).seq[j.val].record.map Record.cause = s.seq[j.val].record.map Record.cause := by
  by_cases hj : st = j
  · subst hj; (unfold addLeakResult; skip) <;> simp [Function.comp_def]
  · (unfold addLeakResult; skip) <;> simp [hj]
@[simp] theorem addLeakResult_record_heading (e : LeakResult) :
    (s.addLeakResult st e).seq[j.val].record.map Record.heading = s.seq[j.val].record.map Record.heading := by
  by_cases hj : st = j
  · subst hj; (unfold addLeakResult; skip) <;> simp [Function.comp_def]
  · (unfold addLeakResult; skip) <;> simp [hj]
@[simp] theorem addCheckResult_record_steps (e : CheckResult) :
    (s.addCheckResult st e).seq[j.val].record.map Record.steps = s.seq[j.val].record.map Record.steps := by
  by_cases hj : st = j
  · subst hj; (unfold addCheckResult; skip) <;> simp [Function.comp_def]
  · (unfold addCheckResult; skip) <;> simp [hj]
@[simp] theorem addCheckResult_record_groups (e : CheckResult) :
    (s.addCheckResult st e).seq[j.val].record.map Record.groups = s.seq[j.val].record.map Record.groups := by
  by_cases hj : st = j
  · subst hj; (unfold addCheckResult; skip) <;> simp [Function.comp_def]
  · (unfold addCheckResult; skip) <;> simp [hj]
@[simp] theorem addCheckResult_record_leaks (e : CheckResult) :
    (s.addCheckResult st e).seq[j.val].record.map Record.leaks = s.seq[j.val].record.map Record.leaks := by
  by_cases hj : st = j
  · subst hj; (unfold addCheckResult; skip) <;> simp [Function.comp_def]
  · (unfold addCheckResult; skip) <;> simp [hj]
@[simp] theorem addCheckResult_record_cause (e : CheckResult) :
    (s.addCheckResult st e).seq[j.val].record.map Record.cause = s.seq[j.val].record.map Record.cause := by
  by_cases hj : st = j
  · subst hj; (unfold addCheckResult; skip) <;> simp [Function.comp_def]
  · (unfold addCheckResult; skip) <;> simp [hj]
@[simp] theorem addCheckResult_record_heading (e : CheckResult) :
    (s.addCheckResult st e).seq[j.val].record.map Record.heading = s.seq[j.val].record.map Record.heading := by
  by_cases hj : st = j
  · subst hj; (unfold addCheckResult; skip) <;> simp [Function.comp_def]
  · (unfold addCheckResult; skip) <;> simp [hj]
@[simp] theorem enterGroup_record_steps (r : GroupResult) :
    (s.enterGroup st r).seq[j.val].record.map Record.steps = s.seq[j.val].record.map Record.steps := by
  by_cases hj : st = j
  · subst hj; (unfold enterGroup; skip) <;> simp [Function.comp_def]
  · (unfold enterGroup; skip) <;> simp [hj]
@[simp] theorem enterGroup_record_leaks (r : GroupResult) :
    (s.enterGroup st r).seq[j.val].record.map Record.leaks = s.seq[j.val].record.map Record.leaks := by
  by_cases hj : st = j
  · subst hj; (unfold enterGroup; skip) <;> simp [Function.comp_def]
  · (unfold enterGroup; skip) <;> simp [hj]
@[simp] theorem enterGroup_record_checks (r : GroupResult) :
    (s.enterGroup st r).seq[j.val].record.map Record.checks = s.seq[j.val].record.map Record.checks := by
  by_cases hj : st = j
  · subst hj; (unfold enterGroup; skip) <;> simp [Function.comp_def]
  · (unfold enterGroup; skip) <;> simp [hj]
@[simp] theorem enterGroup_record_cause (r : GroupResult) :
    (s.enterGroup st r).seq[j.val].record.map Record.cause = s.seq[j.val].record.map Record.cause := by
  by_cases hj : st = j
  · subst hj; (unfold enterGroup; skip) <;> simp [Function.comp_def]
  · (unfold enterGroup; skip) <;> simp [hj]
@[simp] theorem enterGroup_record_heading (r : GroupResult) :
    (s.enterGroup st r).seq[j.val].record.map Record.heading = s.seq[j.val].record.map Record.heading := by
  by_cases hj : st = j
  · subst hj; (unfold enterGroup; skip) <;> simp [Function.comp_def]
  · (unfold enterGroup; skip) <;> simp [hj]
@[simp] theorem settleGroups_record_steps :
    (s.settleGroups st).seq[j.val].record.map Record.steps = s.seq[j.val].record.map Record.steps := by
  by_cases hj : st = j
  · subst hj; (unfold settleGroups; skip) <;> simp [Function.comp_def]
  · (unfold settleGroups; skip) <;> simp [hj]
@[simp] theorem settleGroups_record_leaks :
    (s.settleGroups st).seq[j.val].record.map Record.leaks = s.seq[j.val].record.map Record.leaks := by
  by_cases hj : st = j
  · subst hj; (unfold settleGroups; skip) <;> simp [Function.comp_def]
  · (unfold settleGroups; skip) <;> simp [hj]
@[simp] theorem settleGroups_record_checks :
    (s.settleGroups st).seq[j.val].record.map Record.checks = s.seq[j.val].record.map Record.checks := by
  by_cases hj : st = j
  · subst hj; (unfold settleGroups; skip) <;> simp [Function.comp_def]
  · (unfold settleGroups; skip) <;> simp [hj]
@[simp] theorem settleGroups_record_cause :
    (s.settleGroups st).seq[j.val].record.map Record.cause = s.seq[j.val].record.map Record.cause := by
  by_cases hj : st = j
  · subst hj; (unfold settleGroups; skip) <;> simp [Function.comp_def]
  · (unfold settleGroups; skip) <;> simp [hj]
@[simp] theorem settleGroups_record_heading :
    (s.settleGroups st).seq[j.val].record.map Record.heading = s.seq[j.val].record.map Record.heading := by
  by_cases hj : st = j
  · subst hj; (unfold settleGroups; skip) <;> simp [Function.comp_def]
  · (unfold settleGroups; skip) <;> simp [hj]
@[simp] theorem deliver_record_steps (r : GroupResult) :
    (s.deliver st r).seq[j.val].record.map Record.steps = s.seq[j.val].record.map Record.steps := by
  by_cases hj : st = j
  · subst hj; (unfold deliver; skip) <;> simp [Function.comp_def]
  · (unfold deliver; skip) <;> simp [hj]
@[simp] theorem deliver_record_leaks (r : GroupResult) :
    (s.deliver st r).seq[j.val].record.map Record.leaks = s.seq[j.val].record.map Record.leaks := by
  by_cases hj : st = j
  · subst hj; (unfold deliver; skip) <;> simp [Function.comp_def]
  · (unfold deliver; skip) <;> simp [hj]
@[simp] theorem deliver_record_checks (r : GroupResult) :
    (s.deliver st r).seq[j.val].record.map Record.checks = s.seq[j.val].record.map Record.checks := by
  by_cases hj : st = j
  · subst hj; (unfold deliver; skip) <;> simp [Function.comp_def]
  · (unfold deliver; skip) <;> simp [hj]
@[simp] theorem deliver_record_cause (r : GroupResult) :
    (s.deliver st r).seq[j.val].record.map Record.cause = s.seq[j.val].record.map Record.cause := by
  by_cases hj : st = j
  · subst hj; (unfold deliver; skip) <;> simp [Function.comp_def]
  · (unfold deliver; skip) <;> simp [hj]
@[simp] theorem deliver_record_heading (r : GroupResult) :
    (s.deliver st r).seq[j.val].record.map Record.heading = s.seq[j.val].record.map Record.heading := by
  by_cases hj : st = j
  · subst hj; (unfold deliver; skip) <;> simp [Function.comp_def]
  · (unfold deliver; skip) <;> simp [hj]
@[simp] theorem decideLeak_record_steps (r : LeakResult) :
    (s.decideLeak st r).seq[j.val].record.map Record.steps = s.seq[j.val].record.map Record.steps := by
  by_cases hj : st = j
  · subst hj; (unfold decideLeak; dsimp only; split) <;> simp [Function.comp_def]
  · (unfold decideLeak; dsimp only; split) <;> simp [hj]
@[simp] theorem decideLeak_record_groups (r : LeakResult) :
    (s.decideLeak st r).seq[j.val].record.map Record.groups = s.seq[j.val].record.map Record.groups := by
  by_cases hj : st = j
  · subst hj; (unfold decideLeak; dsimp only; split) <;> simp [Function.comp_def]
  · (unfold decideLeak; dsimp only; split) <;> simp [hj]
@[simp] theorem decideLeak_record_checks (r : LeakResult) :
    (s.decideLeak st r).seq[j.val].record.map Record.checks = s.seq[j.val].record.map Record.checks := by
  by_cases hj : st = j
  · subst hj; (unfold decideLeak; dsimp only; split) <;> simp [Function.comp_def]
  · (unfold decideLeak; dsimp only; split) <;> simp [hj]
@[simp] theorem decideLeak_record_cause (r : LeakResult) :
    (s.decideLeak st r).seq[j.val].record.map Record.cause = s.seq[j.val].record.map Record.cause := by
  by_cases hj : st = j
  · subst hj; (unfold decideLeak; dsimp only; split) <;> simp [Function.comp_def]
  · (unfold decideLeak; dsimp only; split) <;> simp [hj]
@[simp] theorem decideLeak_record_heading (r : LeakResult) :
    (s.decideLeak st r).seq[j.val].record.map Record.heading = s.seq[j.val].record.map Record.heading := by
  by_cases hj : st = j
  · subst hj; (unfold decideLeak; dsimp only; split) <;> simp [Function.comp_def]
  · (unfold decideLeak; dsimp only; split) <;> simp [hj]
@[simp] theorem leakExit_record_steps :
    (s.leakExit st).seq[j.val].record.map Record.steps = s.seq[j.val].record.map Record.steps := by
  by_cases hj : st = j
  · subst hj; (unfold leakExit; dsimp only; split) <;> simp
  · (unfold leakExit; dsimp only; split) <;> simp [hj]
@[simp] theorem leakExit_record_groups :
    (s.leakExit st).seq[j.val].record.map Record.groups = s.seq[j.val].record.map Record.groups := by
  by_cases hj : st = j
  · subst hj; (unfold leakExit; dsimp only; split) <;> simp
  · (unfold leakExit; dsimp only; split) <;> simp [hj]
@[simp] theorem leakExit_record_checks :
    (s.leakExit st).seq[j.val].record.map Record.checks = s.seq[j.val].record.map Record.checks := by
  by_cases hj : st = j
  · subst hj; (unfold leakExit; dsimp only; split) <;> simp
  · (unfold leakExit; dsimp only; split) <;> simp [hj]
@[simp] theorem leakExit_record_cause :
    (s.leakExit st).seq[j.val].record.map Record.cause = s.seq[j.val].record.map Record.cause := by
  by_cases hj : st = j
  · subst hj; (unfold leakExit; dsimp only; split) <;> simp
  · (unfold leakExit; dsimp only; split) <;> simp [hj]
@[simp] theorem leakExit_record_heading :
    (s.leakExit st).seq[j.val].record.map Record.heading = s.seq[j.val].record.map Record.heading := by
  by_cases hj : st = j
  · subst hj; (unfold leakExit; dsimp only; split) <;> simp
  · (unfold leakExit; dsimp only; split) <;> simp [hj]
@[simp] theorem leakClose_record_steps :
    (s.leakClose st).seq[j.val].record.map Record.steps = s.seq[j.val].record.map Record.steps := by
  by_cases hj : st = j
  · subst hj; (unfold leakClose; split) <;> simp
  · (unfold leakClose; split) <;> simp [hj]
@[simp] theorem leakClose_record_groups :
    (s.leakClose st).seq[j.val].record.map Record.groups = s.seq[j.val].record.map Record.groups := by
  by_cases hj : st = j
  · subst hj; (unfold leakClose; split) <;> simp
  · (unfold leakClose; split) <;> simp [hj]
@[simp] theorem leakClose_record_checks :
    (s.leakClose st).seq[j.val].record.map Record.checks = s.seq[j.val].record.map Record.checks := by
  by_cases hj : st = j
  · subst hj; (unfold leakClose; split) <;> simp
  · (unfold leakClose; split) <;> simp [hj]
@[simp] theorem leakClose_record_cause :
    (s.leakClose st).seq[j.val].record.map Record.cause = s.seq[j.val].record.map Record.cause := by
  by_cases hj : st = j
  · subst hj; (unfold leakClose; split) <;> simp
  · (unfold leakClose; split) <;> simp [hj]
@[simp] theorem leakClose_record_heading :
    (s.leakClose st).seq[j.val].record.map Record.heading = s.seq[j.val].record.map Record.heading := by
  by_cases hj : st = j
  · subst hj; (unfold leakClose; split) <;> simp
  · (unfold leakClose; split) <;> simp [hj]
@[simp] theorem unmeasured_record_steps (g : Nat) :
    (s.unmeasured st g).seq[j.val].record.map Record.steps = s.seq[j.val].record.map Record.steps := by
  by_cases hj : st = j
  · subst hj; (unfold unmeasured; dsimp only; repeat' split) <;> simp [Function.comp_def]
  · (unfold unmeasured; dsimp only; repeat' split) <;> simp [hj]
@[simp] theorem unmeasured_record_leaks (g : Nat) :
    (s.unmeasured st g).seq[j.val].record.map Record.leaks = s.seq[j.val].record.map Record.leaks := by
  by_cases hj : st = j
  · subst hj; (unfold unmeasured; dsimp only; repeat' split) <;> simp [Function.comp_def]
  · (unfold unmeasured; dsimp only; repeat' split) <;> simp [hj]
@[simp] theorem unmeasured_record_checks (g : Nat) :
    (s.unmeasured st g).seq[j.val].record.map Record.checks = s.seq[j.val].record.map Record.checks := by
  by_cases hj : st = j
  · subst hj; (unfold unmeasured; dsimp only; repeat' split) <;> simp [Function.comp_def]
  · (unfold unmeasured; dsimp only; repeat' split) <;> simp [hj]
@[simp] theorem unmeasured_record_cause (g : Nat) :
    (s.unmeasured st g).seq[j.val].record.map Record.cause = s.seq[j.val].record.map Record.cause := by
  by_cases hj : st = j
  · subst hj; (unfold unmeasured; dsimp only; repeat' split) <;> simp [Function.comp_def]
  · (unfold unmeasured; dsimp only; repeat' split) <;> simp [hj]
@[simp] theorem unmeasured_record_heading (g : Nat) :
    (s.unmeasured st g).seq[j.val].record.map Record.heading = s.seq[j.val].record.map Record.heading := by
  by_cases hj : st = j
  · subst hj; (unfold unmeasured; dsimp only; repeat' split) <;> simp [Function.comp_def]
  · (unfold unmeasured; dsimp only; repeat' split) <;> simp [hj]
@[simp] theorem claimEngine_record_steps (g : Nat) :
    (s.claimEngine st g).seq[j.val].record.map Record.steps = s.seq[j.val].record.map Record.steps := by
  by_cases hj : st = j
  · subst hj; (unfold claimEngine; repeat' split) <;> simp
  · (unfold claimEngine; repeat' split) <;> simp [hj]
@[simp] theorem claimEngine_record_leaks (g : Nat) :
    (s.claimEngine st g).seq[j.val].record.map Record.leaks = s.seq[j.val].record.map Record.leaks := by
  by_cases hj : st = j
  · subst hj; (unfold claimEngine; repeat' split) <;> simp
  · (unfold claimEngine; repeat' split) <;> simp [hj]
@[simp] theorem claimEngine_record_checks (g : Nat) :
    (s.claimEngine st g).seq[j.val].record.map Record.checks = s.seq[j.val].record.map Record.checks := by
  by_cases hj : st = j
  · subst hj; (unfold claimEngine; repeat' split) <;> simp
  · (unfold claimEngine; repeat' split) <;> simp [hj]
@[simp] theorem claimEngine_record_cause (g : Nat) :
    (s.claimEngine st g).seq[j.val].record.map Record.cause = s.seq[j.val].record.map Record.cause := by
  by_cases hj : st = j
  · subst hj; (unfold claimEngine; repeat' split) <;> simp
  · (unfold claimEngine; repeat' split) <;> simp [hj]
@[simp] theorem claimEngine_record_heading (g : Nat) :
    (s.claimEngine st g).seq[j.val].record.map Record.heading = s.seq[j.val].record.map Record.heading := by
  by_cases hj : st = j
  · subst hj; (unfold claimEngine; repeat' split) <;> simp
  · (unfold claimEngine; repeat' split) <;> simp [hj]
@[simp] theorem windowStart_record_steps (g : Nat) :
    (s.windowStart st g).seq[j.val].record.map Record.steps = s.seq[j.val].record.map Record.steps := by
  by_cases hj : st = j
  · subst hj; (unfold windowStart; dsimp only; repeat' split) <;> simp
  · (unfold windowStart; dsimp only; repeat' split) <;> simp [hj]
@[simp] theorem windowStart_record_leaks (g : Nat) :
    (s.windowStart st g).seq[j.val].record.map Record.leaks = s.seq[j.val].record.map Record.leaks := by
  by_cases hj : st = j
  · subst hj; (unfold windowStart; dsimp only; repeat' split) <;> simp
  · (unfold windowStart; dsimp only; repeat' split) <;> simp [hj]
@[simp] theorem windowStart_record_checks (g : Nat) :
    (s.windowStart st g).seq[j.val].record.map Record.checks = s.seq[j.val].record.map Record.checks := by
  by_cases hj : st = j
  · subst hj; (unfold windowStart; dsimp only; repeat' split) <;> simp
  · (unfold windowStart; dsimp only; repeat' split) <;> simp [hj]
@[simp] theorem windowStart_record_cause (g : Nat) :
    (s.windowStart st g).seq[j.val].record.map Record.cause = s.seq[j.val].record.map Record.cause := by
  by_cases hj : st = j
  · subst hj; (unfold windowStart; dsimp only; repeat' split) <;> simp
  · (unfold windowStart; dsimp only; repeat' split) <;> simp [hj]
@[simp] theorem windowStart_record_heading (g : Nat) :
    (s.windowStart st g).seq[j.val].record.map Record.heading = s.seq[j.val].record.map Record.heading := by
  by_cases hj : st = j
  · subst hj; (unfold windowStart; dsimp only; repeat' split) <;> simp
  · (unfold windowStart; dsimp only; repeat' split) <;> simp [hj]
@[simp] theorem windowEnd_record_steps (g i : Nat) :
    (s.windowEnd st g i).seq[j.val].record.map Record.steps = s.seq[j.val].record.map Record.steps := by
  by_cases hj : st = j
  · subst hj; (unfold windowEnd; dsimp only; repeat' split) <;> simp
  · (unfold windowEnd; dsimp only; repeat' split) <;> simp [hj]
@[simp] theorem windowEnd_record_leaks (g i : Nat) :
    (s.windowEnd st g i).seq[j.val].record.map Record.leaks = s.seq[j.val].record.map Record.leaks := by
  by_cases hj : st = j
  · subst hj; (unfold windowEnd; dsimp only; repeat' split) <;> simp
  · (unfold windowEnd; dsimp only; repeat' split) <;> simp [hj]
@[simp] theorem windowEnd_record_checks (g i : Nat) :
    (s.windowEnd st g i).seq[j.val].record.map Record.checks = s.seq[j.val].record.map Record.checks := by
  by_cases hj : st = j
  · subst hj; (unfold windowEnd; dsimp only; repeat' split) <;> simp
  · (unfold windowEnd; dsimp only; repeat' split) <;> simp [hj]
@[simp] theorem windowEnd_record_cause (g i : Nat) :
    (s.windowEnd st g i).seq[j.val].record.map Record.cause = s.seq[j.val].record.map Record.cause := by
  by_cases hj : st = j
  · subst hj; (unfold windowEnd; dsimp only; repeat' split) <;> simp
  · (unfold windowEnd; dsimp only; repeat' split) <;> simp [hj]
@[simp] theorem windowEnd_record_heading (g i : Nat) :
    (s.windowEnd st g i).seq[j.val].record.map Record.heading = s.seq[j.val].record.map Record.heading := by
  by_cases hj : st = j
  · subst hj; (unfold windowEnd; dsimp only; repeat' split) <;> simp
  · (unfold windowEnd; dsimp only; repeat' split) <;> simp [hj]
@[simp] theorem noiseExit_record_steps :
    (s.noiseExit st).seq[j.val].record.map Record.steps = s.seq[j.val].record.map Record.steps := by
  by_cases hj : st = j
  · subst hj; (unfold noiseExit; dsimp only; repeat' split) <;> simp [Function.comp_def]
  · (unfold noiseExit; dsimp only; repeat' split) <;> simp [hj]
@[simp] theorem noiseExit_record_leaks :
    (s.noiseExit st).seq[j.val].record.map Record.leaks = s.seq[j.val].record.map Record.leaks := by
  by_cases hj : st = j
  · subst hj; (unfold noiseExit; dsimp only; repeat' split) <;> simp [Function.comp_def]
  · (unfold noiseExit; dsimp only; repeat' split) <;> simp [hj]
@[simp] theorem noiseExit_record_checks :
    (s.noiseExit st).seq[j.val].record.map Record.checks = s.seq[j.val].record.map Record.checks := by
  by_cases hj : st = j
  · subst hj; (unfold noiseExit; dsimp only; repeat' split) <;> simp [Function.comp_def]
  · (unfold noiseExit; dsimp only; repeat' split) <;> simp [hj]
@[simp] theorem noiseExit_record_cause :
    (s.noiseExit st).seq[j.val].record.map Record.cause = s.seq[j.val].record.map Record.cause := by
  by_cases hj : st = j
  · subst hj; (unfold noiseExit; dsimp only; repeat' split) <;> simp [Function.comp_def]
  · (unfold noiseExit; dsimp only; repeat' split) <;> simp [hj]
@[simp] theorem noiseExit_record_heading :
    (s.noiseExit st).seq[j.val].record.map Record.heading = s.seq[j.val].record.map Record.heading := by
  by_cases hj : st = j
  · subst hj; (unfold noiseExit; dsimp only; repeat' split) <;> simp [Function.comp_def]
  · (unfold noiseExit; dsimp only; repeat' split) <;> simp [hj]
@[simp] theorem closeStep_record_groups :
    (s.closeStep st).seq[j.val].record.map Record.groups = s.seq[j.val].record.map Record.groups := by
  by_cases hj : st = j
  · subst hj; (unfold closeStep; split) <;> simp [Function.comp_def]
  · (unfold closeStep; split) <;> simp [hj]
@[simp] theorem closeStep_record_leaks :
    (s.closeStep st).seq[j.val].record.map Record.leaks = s.seq[j.val].record.map Record.leaks := by
  by_cases hj : st = j
  · subst hj; (unfold closeStep; split) <;> simp [Function.comp_def]
  · (unfold closeStep; split) <;> simp [hj]
@[simp] theorem closeStep_record_checks :
    (s.closeStep st).seq[j.val].record.map Record.checks = s.seq[j.val].record.map Record.checks := by
  by_cases hj : st = j
  · subst hj; (unfold closeStep; split) <;> simp [Function.comp_def]
  · (unfold closeStep; split) <;> simp [hj]
@[simp] theorem closeStep_record_cause :
    (s.closeStep st).seq[j.val].record.map Record.cause = s.seq[j.val].record.map Record.cause := by
  by_cases hj : st = j
  · subst hj; (unfold closeStep; split) <;> simp [Function.comp_def]
  · (unfold closeStep; split) <;> simp [hj]
@[simp] theorem closeStep_record_heading :
    (s.closeStep st).seq[j.val].record.map Record.heading = s.seq[j.val].record.map Record.heading := by
  by_cases hj : st = j
  · subst hj; (unfold closeStep; split) <;> simp [Function.comp_def]
  · (unfold closeStep; split) <;> simp [hj]
@[simp] theorem finishStep_record_groups (o : StepOutcome) (c : Option StepCause) :
    (s.finishStep st o c).seq[j.val].record.map Record.groups = s.seq[j.val].record.map Record.groups := by
  by_cases hj : st = j
  · subst hj; (unfold finishStep; split) <;> simp [Function.comp_def]
  · (unfold finishStep; split) <;> simp [hj]
@[simp] theorem finishStep_record_leaks (o : StepOutcome) (c : Option StepCause) :
    (s.finishStep st o c).seq[j.val].record.map Record.leaks = s.seq[j.val].record.map Record.leaks := by
  by_cases hj : st = j
  · subst hj; (unfold finishStep; split) <;> simp [Function.comp_def]
  · (unfold finishStep; split) <;> simp [hj]
@[simp] theorem finishStep_record_checks (o : StepOutcome) (c : Option StepCause) :
    (s.finishStep st o c).seq[j.val].record.map Record.checks = s.seq[j.val].record.map Record.checks := by
  by_cases hj : st = j
  · subst hj; (unfold finishStep; split) <;> simp [Function.comp_def]
  · (unfold finishStep; split) <;> simp [hj]
@[simp] theorem finishStep_record_cause (o : StepOutcome) (c : Option StepCause) :
    (s.finishStep st o c).seq[j.val].record.map Record.cause = s.seq[j.val].record.map Record.cause := by
  by_cases hj : st = j
  · subst hj; (unfold finishStep; split) <;> simp [Function.comp_def]
  · (unfold finishStep; split) <;> simp [hj]
@[simp] theorem finishStep_record_heading (o : StepOutcome) (c : Option StepCause) :
    (s.finishStep st o c).seq[j.val].record.map Record.heading = s.seq[j.val].record.map Record.heading := by
  by_cases hj : st = j
  · subst hj; (unfold finishStep; split) <;> simp [Function.comp_def]
  · (unfold finishStep; split) <;> simp [hj]
@[simp] theorem leaveRunning_record_leaks :
    (s.leaveRunning st).seq[j.val].record.map Record.leaks = s.seq[j.val].record.map Record.leaks := by
  by_cases hj : st = j
  · subst hj; (unfold leaveRunning; skip) <;> simp
  · (unfold leaveRunning; skip) <;> simp [hj]
@[simp] theorem leaveRunning_record_checks :
    (s.leaveRunning st).seq[j.val].record.map Record.checks = s.seq[j.val].record.map Record.checks := by
  by_cases hj : st = j
  · subst hj; (unfold leaveRunning; skip) <;> simp
  · (unfold leaveRunning; skip) <;> simp [hj]
@[simp] theorem leaveRunning_record_cause :
    (s.leaveRunning st).seq[j.val].record.map Record.cause = s.seq[j.val].record.map Record.cause := by
  by_cases hj : st = j
  · subst hj; (unfold leaveRunning; skip) <;> simp
  · (unfold leaveRunning; skip) <;> simp [hj]
@[simp] theorem leaveRunning_record_heading :
    (s.leaveRunning st).seq[j.val].record.map Record.heading = s.seq[j.val].record.map Record.heading := by
  by_cases hj : st = j
  · subst hj; (unfold leaveRunning; skip) <;> simp
  · (unfold leaveRunning; skip) <;> simp [hj]
@[simp] theorem warn_record_steps (q : StQuantity) (k : FlagKind) :
    (s.warn st q k).seq[j.val].record.map Record.steps = s.seq[j.val].record.map Record.steps := by
  by_cases hj : st = j
  · subst hj; (unfold warn; split) <;> simp [Function.comp_def]
  · (unfold warn; split) <;> simp [hj]
@[simp] theorem warn_record_groups (q : StQuantity) (k : FlagKind) :
    (s.warn st q k).seq[j.val].record.map Record.groups = s.seq[j.val].record.map Record.groups := by
  by_cases hj : st = j
  · subst hj; (unfold warn; split) <;> simp [Function.comp_def]
  · (unfold warn; split) <;> simp [hj]
@[simp] theorem warn_record_leaks (q : StQuantity) (k : FlagKind) :
    (s.warn st q k).seq[j.val].record.map Record.leaks = s.seq[j.val].record.map Record.leaks := by
  by_cases hj : st = j
  · subst hj; (unfold warn; split) <;> simp [Function.comp_def]
  · (unfold warn; split) <;> simp [hj]
@[simp] theorem warn_record_checks (q : StQuantity) (k : FlagKind) :
    (s.warn st q k).seq[j.val].record.map Record.checks = s.seq[j.val].record.map Record.checks := by
  by_cases hj : st = j
  · subst hj; (unfold warn; split) <;> simp [Function.comp_def]
  · (unfold warn; split) <;> simp [hj]
@[simp] theorem warn_record_cause (q : StQuantity) (k : FlagKind) :
    (s.warn st q k).seq[j.val].record.map Record.cause = s.seq[j.val].record.map Record.cause := by
  by_cases hj : st = j
  · subst hj; (unfold warn; split) <;> simp [Function.comp_def]
  · (unfold warn; split) <;> simp [hj]
@[simp] theorem warn_record_heading (q : StQuantity) (k : FlagKind) :
    (s.warn st q k).seq[j.val].record.map Record.heading = s.seq[j.val].record.map Record.heading := by
  by_cases hj : st = j
  · subst hj; (unfold warn; split) <;> simp [Function.comp_def]
  · (unfold warn; split) <;> simp [hj]
/-! ### The step in progress: an operation on its window leaves all but the unmeasured mark -/

@[simp] theorem unmeasured_step_index (g : Nat) :
    (s.unmeasured st g).seq[j.val].step.map StepCtx.index = s.seq[j.val].step.map StepCtx.index := by
  by_cases hj : st = j
  · subst hj; (unfold unmeasured; dsimp only; repeat' split) <;> simp [Function.comp_def]
  · (unfold unmeasured; dsimp only; repeat' split) <;> simp [hj]
@[simp] theorem unmeasured_step_spec (g : Nat) :
    (s.unmeasured st g).seq[j.val].step.map StepCtx.spec = s.seq[j.val].step.map StepCtx.spec := by
  by_cases hj : st = j
  · subst hj; (unfold unmeasured; dsimp only; repeat' split) <;> simp [Function.comp_def]
  · (unfold unmeasured; dsimp only; repeat' split) <;> simp [hj]
@[simp] theorem unmeasured_step_phase (g : Nat) :
    (s.unmeasured st g).seq[j.val].step.map StepCtx.phase = s.seq[j.val].step.map StepCtx.phase := by
  by_cases hj : st = j
  · subst hj; (unfold unmeasured; dsimp only; repeat' split) <;> simp [Function.comp_def]
  · (unfold unmeasured; dsimp only; repeat' split) <;> simp [hj]
@[simp] theorem unmeasured_step_start (g : Nat) :
    (s.unmeasured st g).seq[j.val].step.map StepCtx.start = s.seq[j.val].step.map StepCtx.start := by
  by_cases hj : st = j
  · subst hj; (unfold unmeasured; dsimp only; repeat' split) <;> simp [Function.comp_def]
  · (unfold unmeasured; dsimp only; repeat' split) <;> simp [hj]
@[simp] theorem claimEngine_step_index (g : Nat) :
    (s.claimEngine st g).seq[j.val].step.map StepCtx.index = s.seq[j.val].step.map StepCtx.index := by
  by_cases hj : st = j
  · subst hj; (unfold claimEngine; repeat' split) <;> simp
  · (unfold claimEngine; repeat' split) <;> simp [hj]
@[simp] theorem claimEngine_step_spec (g : Nat) :
    (s.claimEngine st g).seq[j.val].step.map StepCtx.spec = s.seq[j.val].step.map StepCtx.spec := by
  by_cases hj : st = j
  · subst hj; (unfold claimEngine; repeat' split) <;> simp
  · (unfold claimEngine; repeat' split) <;> simp [hj]
@[simp] theorem claimEngine_step_phase (g : Nat) :
    (s.claimEngine st g).seq[j.val].step.map StepCtx.phase = s.seq[j.val].step.map StepCtx.phase := by
  by_cases hj : st = j
  · subst hj; (unfold claimEngine; repeat' split) <;> simp
  · (unfold claimEngine; repeat' split) <;> simp [hj]
@[simp] theorem claimEngine_step_start (g : Nat) :
    (s.claimEngine st g).seq[j.val].step.map StepCtx.start = s.seq[j.val].step.map StepCtx.start := by
  by_cases hj : st = j
  · subst hj; (unfold claimEngine; repeat' split) <;> simp
  · (unfold claimEngine; repeat' split) <;> simp [hj]
@[simp] theorem windowStart_step_index (g : Nat) :
    (s.windowStart st g).seq[j.val].step.map StepCtx.index = s.seq[j.val].step.map StepCtx.index := by
  by_cases hj : st = j
  · subst hj; (unfold windowStart; dsimp only; repeat' split) <;> simp
  · (unfold windowStart; dsimp only; repeat' split) <;> simp [hj]
@[simp] theorem windowStart_step_spec (g : Nat) :
    (s.windowStart st g).seq[j.val].step.map StepCtx.spec = s.seq[j.val].step.map StepCtx.spec := by
  by_cases hj : st = j
  · subst hj; (unfold windowStart; dsimp only; repeat' split) <;> simp
  · (unfold windowStart; dsimp only; repeat' split) <;> simp [hj]
@[simp] theorem windowStart_step_phase (g : Nat) :
    (s.windowStart st g).seq[j.val].step.map StepCtx.phase = s.seq[j.val].step.map StepCtx.phase := by
  by_cases hj : st = j
  · subst hj; (unfold windowStart; dsimp only; repeat' split) <;> simp
  · (unfold windowStart; dsimp only; repeat' split) <;> simp [hj]
@[simp] theorem windowStart_step_start (g : Nat) :
    (s.windowStart st g).seq[j.val].step.map StepCtx.start = s.seq[j.val].step.map StepCtx.start := by
  by_cases hj : st = j
  · subst hj; (unfold windowStart; dsimp only; repeat' split) <;> simp
  · (unfold windowStart; dsimp only; repeat' split) <;> simp [hj]
@[simp] theorem windowEnd_step_index (g i : Nat) :
    (s.windowEnd st g i).seq[j.val].step.map StepCtx.index = s.seq[j.val].step.map StepCtx.index := by
  by_cases hj : st = j
  · subst hj; (unfold windowEnd; dsimp only; repeat' split) <;> simp
  · (unfold windowEnd; dsimp only; repeat' split) <;> simp [hj]
@[simp] theorem windowEnd_step_spec (g i : Nat) :
    (s.windowEnd st g i).seq[j.val].step.map StepCtx.spec = s.seq[j.val].step.map StepCtx.spec := by
  by_cases hj : st = j
  · subst hj; (unfold windowEnd; dsimp only; repeat' split) <;> simp
  · (unfold windowEnd; dsimp only; repeat' split) <;> simp [hj]
@[simp] theorem windowEnd_step_phase (g i : Nat) :
    (s.windowEnd st g i).seq[j.val].step.map StepCtx.phase = s.seq[j.val].step.map StepCtx.phase := by
  by_cases hj : st = j
  · subst hj; (unfold windowEnd; dsimp only; repeat' split) <;> simp
  · (unfold windowEnd; dsimp only; repeat' split) <;> simp [hj]
@[simp] theorem windowEnd_step_start (g i : Nat) :
    (s.windowEnd st g i).seq[j.val].step.map StepCtx.start = s.seq[j.val].step.map StepCtx.start := by
  by_cases hj : st = j
  · subst hj; (unfold windowEnd; dsimp only; repeat' split) <;> simp
  · (unfold windowEnd; dsimp only; repeat' split) <;> simp [hj]

end State

end Sys2Proof.Machine
end

