-- ==== Sys2Proof/Laws/Counters.lean ====
section
/-! SUPPORT. What the operations leave of the counters: snapshot, interval start and auto-snapshot timer always; the
change-of-state set, the global and the station counters where an operation does not touch them. -/

namespace Sys2Proof.Machine

open Sys2Proof

set_option Elab.async false

namespace State

variable (s : State)

@[simp] theorem countVerdict_counters_snapshot (st : Station) (v : Verdict) : (s.countVerdict st v).counters.snapshot = s.counters.snapshot := rfl
@[simp] theorem countVerdict_counters_intervalStart (st : Station) (v : Verdict) : (s.countVerdict st v).counters.intervalStart = s.counters.intervalStart := rfl
@[simp] theorem countVerdict_counters_autoStart (st : Station) (v : Verdict) : (s.countVerdict st v).counters.autoStart = s.counters.autoStart := rfl
@[simp] theorem countVerdict_counters_changed (st : Station) (v : Verdict) : (s.countVerdict st v).counters.changed = s.counters.changed := rfl
@[simp] theorem countVerdict_counters_live_globals (st : Station) (v : Verdict) : (s.countVerdict st v).counters.live.globals = s.counters.live.globals := rfl
@[simp] theorem giveNotice_counters_snapshot (b : NoticeBody) : (s.giveNotice b).counters.snapshot = s.counters.snapshot := by
  (unfold giveNotice; split) <;> simp
@[simp] theorem giveNotice_counters_intervalStart (b : NoticeBody) : (s.giveNotice b).counters.intervalStart = s.counters.intervalStart := by
  (unfold giveNotice; split) <;> simp
@[simp] theorem giveNotice_counters_autoStart (b : NoticeBody) : (s.giveNotice b).counters.autoStart = s.counters.autoStart := by
  (unfold giveNotice; split) <;> simp
@[simp] theorem giveNotice_counters_changed (b : NoticeBody) : (s.giveNotice b).counters.changed = s.counters.changed := by
  (unfold giveNotice; split) <;> simp
@[simp] theorem giveNotice_counters_live_stations (b : NoticeBody) : (s.giveNotice b).counters.live.stations = s.counters.live.stations := by
  (unfold giveNotice; split) <;> simp
@[simp] theorem retire_counters_snapshot (e : Entry) : (s.retire e).counters.snapshot = s.counters.snapshot := by
  (unfold retire; split) <;> simp
@[simp] theorem retire_counters_intervalStart (e : Entry) : (s.retire e).counters.intervalStart = s.counters.intervalStart := by
  (unfold retire; split) <;> simp
@[simp] theorem retire_counters_autoStart (e : Entry) : (s.retire e).counters.autoStart = s.counters.autoStart := by
  (unfold retire; split) <;> simp
@[simp] theorem retire_counters_changed (e : Entry) : (s.retire e).counters.changed = s.counters.changed := by
  (unfold retire; split) <;> simp
@[simp] theorem retire_counters_live_stations (e : Entry) : (s.retire e).counters.live.stations = s.counters.live.stations := by
  (unfold retire; split) <;> simp
@[simp] theorem depositStation_counters_snapshot (st : Station) : (s.depositStation st).counters.snapshot = s.counters.snapshot := by
  (unfold depositStation; split) <;> simp
@[simp] theorem depositStation_counters_intervalStart (st : Station) : (s.depositStation st).counters.intervalStart = s.counters.intervalStart := by
  (unfold depositStation; split) <;> simp
@[simp] theorem depositStation_counters_autoStart (st : Station) : (s.depositStation st).counters.autoStart = s.counters.autoStart := by
  (unfold depositStation; split) <;> simp
@[simp] theorem depositHead_counters_snapshot : (s.depositHead).counters.snapshot = s.counters.snapshot := by
  (unfold depositHead; split) <;> simp
@[simp] theorem depositHead_counters_intervalStart : (s.depositHead).counters.intervalStart = s.counters.intervalStart := by
  (unfold depositHead; split) <;> simp
@[simp] theorem depositHead_counters_autoStart : (s.depositHead).counters.autoStart = s.counters.autoStart := by
  (unfold depositHead; split) <;> simp
@[simp] theorem offerRecord_counters_snapshot (st : Station) : (s.offerRecord st).counters.snapshot = s.counters.snapshot := by
  (unfold offerRecord; split) <;> simp
@[simp] theorem offerRecord_counters_intervalStart (st : Station) : (s.offerRecord st).counters.intervalStart = s.counters.intervalStart := by
  (unfold offerRecord; split) <;> simp
@[simp] theorem offerRecord_counters_autoStart (st : Station) : (s.offerRecord st).counters.autoStart = s.counters.autoStart := by
  (unfold offerRecord; split) <;> simp
@[simp] theorem examineSupply_counters_snapshot : (s.examineSupply).counters.snapshot = s.counters.snapshot := by
  (unfold examineSupply; split) <;> simp
@[simp] theorem examineSupply_counters_intervalStart : (s.examineSupply).counters.intervalStart = s.counters.intervalStart := by
  (unfold examineSupply; split) <;> simp
@[simp] theorem examineSupply_counters_autoStart : (s.examineSupply).counters.autoStart = s.counters.autoStart := by
  (unfold examineSupply; split) <;> simp
@[simp] theorem examineSupply_counters_changed : (s.examineSupply).counters.changed = s.counters.changed := by
  (unfold examineSupply; split) <;> simp
@[simp] theorem examineSupply_counters_live_stations : (s.examineSupply).counters.live.stations = s.counters.live.stations := by
  (unfold examineSupply; split) <;> simp
@[simp] theorem releaseGrant_counters_snapshot (st : Station) : (s.releaseGrant st).counters.snapshot = s.counters.snapshot := by
  (unfold releaseGrant; split) <;> simp
@[simp] theorem releaseGrant_counters_intervalStart (st : Station) : (s.releaseGrant st).counters.intervalStart = s.counters.intervalStart := by
  (unfold releaseGrant; split) <;> simp
@[simp] theorem releaseGrant_counters_autoStart (st : Station) : (s.releaseGrant st).counters.autoStart = s.counters.autoStart := by
  (unfold releaseGrant; split) <;> simp
@[simp] theorem releaseGrant_counters_changed (st : Station) : (s.releaseGrant st).counters.changed = s.counters.changed := by
  (unfold releaseGrant; split) <;> simp
@[simp] theorem releaseGrant_counters_live_stations (st : Station) : (s.releaseGrant st).counters.live.stations = s.counters.live.stations := by
  (unfold releaseGrant; split) <;> simp
@[simp] theorem leaveSupplyQueue_counters_snapshot (st : Station) : (s.leaveSupplyQueue st).counters.snapshot = s.counters.snapshot := by
  (unfold leaveSupplyQueue; split) <;> simp
@[simp] theorem leaveSupplyQueue_counters_intervalStart (st : Station) : (s.leaveSupplyQueue st).counters.intervalStart = s.counters.intervalStart := by
  (unfold leaveSupplyQueue; split) <;> simp
@[simp] theorem leaveSupplyQueue_counters_autoStart (st : Station) : (s.leaveSupplyQueue st).counters.autoStart = s.counters.autoStart := by
  (unfold leaveSupplyQueue; split) <;> simp
@[simp] theorem leaveSupplyQueue_counters_changed (st : Station) : (s.leaveSupplyQueue st).counters.changed = s.counters.changed := by
  (unfold leaveSupplyQueue; split) <;> simp
@[simp] theorem leaveSupplyQueue_counters_live_stations (st : Station) : (s.leaveSupplyQueue st).counters.live.stations = s.counters.live.stations := by
  (unfold leaveSupplyQueue; split) <;> simp
@[simp] theorem decideLeak_counters_snapshot (st : Station) (r : LeakResult) : (s.decideLeak st r).counters.snapshot = s.counters.snapshot := by
  (unfold decideLeak; dsimp only; split) <;> simp
@[simp] theorem decideLeak_counters_intervalStart (st : Station) (r : LeakResult) : (s.decideLeak st r).counters.intervalStart = s.counters.intervalStart := by
  (unfold decideLeak; dsimp only; split) <;> simp
@[simp] theorem decideLeak_counters_autoStart (st : Station) (r : LeakResult) : (s.decideLeak st r).counters.autoStart = s.counters.autoStart := by
  (unfold decideLeak; dsimp only; split) <;> simp
@[simp] theorem decideLeak_counters_changed (st : Station) (r : LeakResult) : (s.decideLeak st r).counters.changed = s.counters.changed := by
  (unfold decideLeak; dsimp only; split) <;> simp
@[simp] theorem decideLeak_counters_live_globals (st : Station) (r : LeakResult) : (s.decideLeak st r).counters.live.globals = s.counters.live.globals := by
  (unfold decideLeak; dsimp only; split) <;> simp
@[simp] theorem ventAfter_counters_snapshot (st : Station) : (s.ventAfter st).counters.snapshot = s.counters.snapshot := by
  (unfold ventAfter; skip) <;> simp
@[simp] theorem ventAfter_counters_intervalStart (st : Station) : (s.ventAfter st).counters.intervalStart = s.counters.intervalStart := by
  (unfold ventAfter; skip) <;> simp
@[simp] theorem ventAfter_counters_autoStart (st : Station) : (s.ventAfter st).counters.autoStart = s.counters.autoStart := by
  (unfold ventAfter; skip) <;> simp
@[simp] theorem ventAfter_counters_changed (st : Station) : (s.ventAfter st).counters.changed = s.counters.changed := by
  (unfold ventAfter; skip) <;> simp
@[simp] theorem ventAfter_counters_live_stations (st : Station) : (s.ventAfter st).counters.live.stations = s.counters.live.stations := by
  (unfold ventAfter; skip) <;> simp
@[simp] theorem leakExit_counters_snapshot (st : Station) : (s.leakExit st).counters.snapshot = s.counters.snapshot := by
  (unfold leakExit; dsimp only; split) <;> simp
@[simp] theorem leakExit_counters_intervalStart (st : Station) : (s.leakExit st).counters.intervalStart = s.counters.intervalStart := by
  (unfold leakExit; dsimp only; split) <;> simp
@[simp] theorem leakExit_counters_autoStart (st : Station) : (s.leakExit st).counters.autoStart = s.counters.autoStart := by
  (unfold leakExit; dsimp only; split) <;> simp
@[simp] theorem leakExit_counters_changed (st : Station) : (s.leakExit st).counters.changed = s.counters.changed := by
  (unfold leakExit; dsimp only; split) <;> simp
@[simp] theorem leakClose_counters_snapshot (st : Station) : (s.leakClose st).counters.snapshot = s.counters.snapshot := by
  (unfold leakClose; split) <;> simp
@[simp] theorem leakClose_counters_intervalStart (st : Station) : (s.leakClose st).counters.intervalStart = s.counters.intervalStart := by
  (unfold leakClose; split) <;> simp
@[simp] theorem leakClose_counters_autoStart (st : Station) : (s.leakClose st).counters.autoStart = s.counters.autoStart := by
  (unfold leakClose; split) <;> simp
@[simp] theorem leakClose_counters_changed (st : Station) : (s.leakClose st).counters.changed = s.counters.changed := by
  (unfold leakClose; split) <;> simp
@[simp] theorem claimEngine_counters_snapshot (st : Station) (g : Nat) : (s.claimEngine st g).counters.snapshot = s.counters.snapshot := by
  (unfold claimEngine; repeat' split) <;> simp
@[simp] theorem claimEngine_counters_intervalStart (st : Station) (g : Nat) : (s.claimEngine st g).counters.intervalStart = s.counters.intervalStart := by
  (unfold claimEngine; repeat' split) <;> simp
@[simp] theorem claimEngine_counters_autoStart (st : Station) (g : Nat) : (s.claimEngine st g).counters.autoStart = s.counters.autoStart := by
  (unfold claimEngine; repeat' split) <;> simp
@[simp] theorem claimEngine_counters_changed (st : Station) (g : Nat) : (s.claimEngine st g).counters.changed = s.counters.changed := by
  (unfold claimEngine; repeat' split) <;> simp
@[simp] theorem claimEngine_counters_live_globals (st : Station) (g : Nat) : (s.claimEngine st g).counters.live.globals = s.counters.live.globals := by
  (unfold claimEngine; repeat' split) <;> simp
@[simp] theorem windowStart_counters_snapshot (st : Station) (g : Nat) : (s.windowStart st g).counters.snapshot = s.counters.snapshot := by
  (unfold windowStart; dsimp only; repeat' split) <;> simp
@[simp] theorem windowStart_counters_intervalStart (st : Station) (g : Nat) : (s.windowStart st g).counters.intervalStart = s.counters.intervalStart := by
  (unfold windowStart; dsimp only; repeat' split) <;> simp
@[simp] theorem windowStart_counters_autoStart (st : Station) (g : Nat) : (s.windowStart st g).counters.autoStart = s.counters.autoStart := by
  (unfold windowStart; dsimp only; repeat' split) <;> simp
@[simp] theorem windowStart_counters_changed (st : Station) (g : Nat) : (s.windowStart st g).counters.changed = s.counters.changed := by
  (unfold windowStart; dsimp only; repeat' split) <;> simp
@[simp] theorem windowStart_counters_live_globals (st : Station) (g : Nat) : (s.windowStart st g).counters.live.globals = s.counters.live.globals := by
  (unfold windowStart; dsimp only; repeat' split) <;> simp
@[simp] theorem enterCompleting_counters_snapshot (st : Station) : (s.enterCompleting st).counters.snapshot = s.counters.snapshot := by
  (unfold enterCompleting; dsimp only) <;> simp
@[simp] theorem enterCompleting_counters_intervalStart (st : Station) : (s.enterCompleting st).counters.intervalStart = s.counters.intervalStart := by
  (unfold enterCompleting; dsimp only) <;> simp
@[simp] theorem enterCompleting_counters_autoStart (st : Station) : (s.enterCompleting st).counters.autoStart = s.counters.autoStart := by
  (unfold enterCompleting; dsimp only) <;> simp
@[simp] theorem enterStopping_counters_snapshot (st : Station) (c : Option AbortCause) (d : Bool) : (s.enterStopping st c d).counters.snapshot = s.counters.snapshot := by
  (unfold enterStopping; dsimp only; repeat' split) <;> simp
@[simp] theorem enterStopping_counters_intervalStart (st : Station) (c : Option AbortCause) (d : Bool) : (s.enterStopping st c d).counters.intervalStart = s.counters.intervalStart := by
  (unfold enterStopping; dsimp only; repeat' split) <;> simp
@[simp] theorem enterStopping_counters_autoStart (st : Station) (c : Option AbortCause) (d : Bool) : (s.enterStopping st c d).counters.autoStart = s.counters.autoStart := by
  (unfold enterStopping; dsimp only; repeat' split) <;> simp
@[simp] theorem chainEnd_counters_snapshot (st : Station) : (s.chainEnd st).counters.snapshot = s.counters.snapshot := by
  (unfold chainEnd; split) <;> simp
@[simp] theorem chainEnd_counters_intervalStart (st : Station) : (s.chainEnd st).counters.intervalStart = s.counters.intervalStart := by
  (unfold chainEnd; split) <;> simp
@[simp] theorem chainEnd_counters_autoStart (st : Station) : (s.chainEnd st).counters.autoStart = s.counters.autoStart := by
  (unfold chainEnd; split) <;> simp
@[simp] theorem beginStep_counters_snapshot (st : Station) (i : Nat) (x : StepSpec) : (s.beginStep st i x).counters.snapshot = s.counters.snapshot := by
  (unfold beginStep; dsimp only; split) <;> simp
@[simp] theorem beginStep_counters_intervalStart (st : Station) (i : Nat) (x : StepSpec) : (s.beginStep st i x).counters.intervalStart = s.counters.intervalStart := by
  (unfold beginStep; dsimp only; split) <;> simp
@[simp] theorem beginStep_counters_autoStart (st : Station) (i : Nat) (x : StepSpec) : (s.beginStep st i x).counters.autoStart = s.counters.autoStart := by
  (unfold beginStep; dsimp only; split) <;> simp
@[simp] theorem beginStep_counters_changed (st : Station) (i : Nat) (x : StepSpec) : (s.beginStep st i x).counters.changed = s.counters.changed := by
  (unfold beginStep; dsimp only; split) <;> simp
@[simp] theorem beginStep_counters_live_globals (st : Station) (i : Nat) (x : StepSpec) : (s.beginStep st i x).counters.live.globals = s.counters.live.globals := by
  (unfold beginStep; dsimp only; split) <;> simp
@[simp] theorem nextStep_counters_snapshot (st : Station) (i : Nat) : (s.nextStep st i).counters.snapshot = s.counters.snapshot := by
  (unfold nextStep; split) <;> simp
@[simp] theorem nextStep_counters_intervalStart (st : Station) (i : Nat) : (s.nextStep st i).counters.intervalStart = s.counters.intervalStart := by
  (unfold nextStep; split) <;> simp
@[simp] theorem nextStep_counters_autoStart (st : Station) (i : Nat) : (s.nextStep st i).counters.autoStart = s.counters.autoStart := by
  (unfold nextStep; split) <;> simp
@[simp] theorem endStep_counters_snapshot (st : Station) (o : StepOutcome) : (s.endStep st o).counters.snapshot = s.counters.snapshot := by
  (unfold endStep; split) <;> simp
@[simp] theorem endStep_counters_intervalStart (st : Station) (o : StepOutcome) : (s.endStep st o).counters.intervalStart = s.counters.intervalStart := by
  (unfold endStep; split) <;> simp
@[simp] theorem endStep_counters_autoStart (st : Station) (o : StepOutcome) : (s.endStep st o).counters.autoStart = s.counters.autoStart := by
  (unfold endStep; split) <;> simp
@[simp] theorem failStep_counters_snapshot (st : Station) (c : StepCause) : (s.failStep st c).counters.snapshot = s.counters.snapshot := by
  (unfold failStep; skip) <;> simp
@[simp] theorem failStep_counters_intervalStart (st : Station) (c : StepCause) : (s.failStep st c).counters.intervalStart = s.counters.intervalStart := by
  (unfold failStep; skip) <;> simp
@[simp] theorem failStep_counters_autoStart (st : Station) (c : StepCause) : (s.failStep st c).counters.autoStart = s.counters.autoStart := by
  (unfold failStep; skip) <;> simp
@[simp] theorem failedOutcome_counters_snapshot (st : Station) : (s.failedOutcome st).counters.snapshot = s.counters.snapshot := by
  (unfold failedOutcome; split) <;> simp
@[simp] theorem failedOutcome_counters_intervalStart (st : Station) : (s.failedOutcome st).counters.intervalStart = s.counters.intervalStart := by
  (unfold failedOutcome; split) <;> simp
@[simp] theorem failedOutcome_counters_autoStart (st : Station) : (s.failedOutcome st).counters.autoStart = s.counters.autoStart := by
  (unfold failedOutcome; split) <;> simp
@[simp] theorem endExtended_counters_snapshot (st : Station) : (s.endExtended st).counters.snapshot = s.counters.snapshot := by
  (unfold endExtended; split) <;> simp
@[simp] theorem endExtended_counters_intervalStart (st : Station) : (s.endExtended st).counters.intervalStart = s.counters.intervalStart := by
  (unfold endExtended; split) <;> simp
@[simp] theorem endExtended_counters_autoStart (st : Station) : (s.endExtended st).counters.autoStart = s.counters.autoStart := by
  (unfold endExtended; split) <;> simp
@[simp] theorem alarm_counters_snapshot (st : Station) (q : StQuantity) (k : FlagKind) : (s.alarm st q k).counters.snapshot = s.counters.snapshot := by
  (unfold alarm; split) <;> simp
@[simp] theorem alarm_counters_intervalStart (st : Station) (q : StQuantity) (k : FlagKind) : (s.alarm st q k).counters.intervalStart = s.counters.intervalStart := by
  (unfold alarm; split) <;> simp
@[simp] theorem alarm_counters_autoStart (st : Station) (q : StQuantity) (k : FlagKind) : (s.alarm st q k).counters.autoStart = s.counters.autoStart := by
  (unfold alarm; split) <;> simp
@[simp] theorem driveFaultReport_counters_snapshot (st : Station) : (s.driveFaultReport st).counters.snapshot = s.counters.snapshot := by
  (unfold driveFaultReport; repeat' split) <;> simp
@[simp] theorem driveFaultReport_counters_intervalStart (st : Station) : (s.driveFaultReport st).counters.intervalStart = s.counters.intervalStart := by
  (unfold driveFaultReport; repeat' split) <;> simp
@[simp] theorem driveFaultReport_counters_autoStart (st : Station) : (s.driveFaultReport st).counters.autoStart = s.counters.autoStart := by
  (unfold driveFaultReport; repeat' split) <;> simp
@[simp] theorem estopStation_counters_snapshot (st : Station) : (s.estopStation st).counters.snapshot = s.counters.snapshot := by
  (unfold estopStation; dsimp only; repeat' split) <;> simp
@[simp] theorem estopStation_counters_intervalStart (st : Station) : (s.estopStation st).counters.intervalStart = s.counters.intervalStart := by
  (unfold estopStation; dsimp only; repeat' split) <;> simp
@[simp] theorem estopStation_counters_autoStart (st : Station) : (s.estopStation st).counters.autoStart = s.counters.autoStart := by
  (unfold estopStation; dsimp only; repeat' split) <;> simp
@[simp] theorem startTest_counters_snapshot (st : Station) (f : SttFields) (r : Recipe) (ref : RecipeRef) (thr : Vector Thresholds 6) : (s.startTest st f r ref thr).counters.snapshot = s.counters.snapshot := by
  (unfold startTest; dsimp only; repeat' split) <;> simp
@[simp] theorem startTest_counters_intervalStart (st : Station) (f : SttFields) (r : Recipe) (ref : RecipeRef) (thr : Vector Thresholds 6) : (s.startTest st f r ref thr).counters.intervalStart = s.counters.intervalStart := by
  (unfold startTest; dsimp only; repeat' split) <;> simp
@[simp] theorem startTest_counters_autoStart (st : Station) (f : SttFields) (r : Recipe) (ref : RecipeRef) (thr : Vector Thresholds 6) : (s.startTest st f r ref thr).counters.autoStart = s.counters.autoStart := by
  (unfold startTest; dsimp only; repeat' split) <;> simp
@[simp] theorem decideAndVent_counters_snapshot (st : Station) (r : LeakResult) : (s.decideAndVent st r).counters.snapshot = s.counters.snapshot := by
  (unfold decideAndVent; dsimp only; split) <;> simp
@[simp] theorem decideAndVent_counters_intervalStart (st : Station) (r : LeakResult) : (s.decideAndVent st r).counters.intervalStart = s.counters.intervalStart := by
  (unfold decideAndVent; dsimp only; split) <;> simp
@[simp] theorem decideAndVent_counters_autoStart (st : Station) (r : LeakResult) : (s.decideAndVent st r).counters.autoStart = s.counters.autoStart := by
  (unfold decideAndVent; dsimp only; split) <;> simp
@[simp] theorem returnLeak_counters_snapshot (st : Station) : (s.returnLeak st).counters.snapshot = s.counters.snapshot := by
  (unfold returnLeak; dsimp only; split) <;> simp
@[simp] theorem returnLeak_counters_intervalStart (st : Station) : (s.returnLeak st).counters.intervalStart = s.counters.intervalStart := by
  (unfold returnLeak; dsimp only; split) <;> simp
@[simp] theorem returnLeak_counters_autoStart (st : Station) : (s.returnLeak st).counters.autoStart = s.counters.autoStart := by
  (unfold returnLeak; dsimp only; split) <;> simp
@[simp] theorem standstillExpiry_counters_snapshot (st : Station) : (s.standstillExpiry st).counters.snapshot = s.counters.snapshot := by
  (unfold standstillExpiry; skip) <;> simp
@[simp] theorem standstillExpiry_counters_intervalStart (st : Station) : (s.standstillExpiry st).counters.intervalStart = s.counters.intervalStart := by
  (unfold standstillExpiry; skip) <;> simp
@[simp] theorem standstillExpiry_counters_autoStart (st : Station) : (s.standstillExpiry st).counters.autoStart = s.counters.autoStart := by
  (unfold standstillExpiry; skip) <;> simp
@[simp] theorem fillExpiry_counters_snapshot (st : Station) : (s.fillExpiry st).counters.snapshot = s.counters.snapshot := by
  (unfold fillExpiry; dsimp only; repeat' split) <;> simp
@[simp] theorem fillExpiry_counters_intervalStart (st : Station) : (s.fillExpiry st).counters.intervalStart = s.counters.intervalStart := by
  (unfold fillExpiry; dsimp only; repeat' split) <;> simp
@[simp] theorem fillExpiry_counters_autoStart (st : Station) : (s.fillExpiry st).counters.autoStart = s.counters.autoStart := by
  (unfold fillExpiry; dsimp only; repeat' split) <;> simp
@[simp] theorem standstillWaitSample_counters_snapshot (st : Station) : (s.standstillWaitSample st).counters.snapshot = s.counters.snapshot := by
  (unfold standstillWaitSample; dsimp only; split) <;> simp
@[simp] theorem standstillWaitSample_counters_intervalStart (st : Station) : (s.standstillWaitSample st).counters.intervalStart = s.counters.intervalStart := by
  (unfold standstillWaitSample; dsimp only; split) <;> simp
@[simp] theorem standstillWaitSample_counters_autoStart (st : Station) : (s.standstillWaitSample st).counters.autoStart = s.counters.autoStart := by
  (unfold standstillWaitSample; dsimp only; split) <;> simp
@[simp] theorem standstillWaitSample_counters_changed (st : Station) : (s.standstillWaitSample st).counters.changed = s.counters.changed := by
  (unfold standstillWaitSample; dsimp only; split) <;> simp
@[simp] theorem standstillWaitSample_counters_live_stations (st : Station) : (s.standstillWaitSample st).counters.live.stations = s.counters.live.stations := by
  (unfold standstillWaitSample; dsimp only; split) <;> simp
@[simp] theorem settleSample_counters_snapshot (st : Station) (l : LeakSpec) : (s.settleSample st l).counters.snapshot = s.counters.snapshot := by
  (unfold settleSample; split) <;> simp
@[simp] theorem settleSample_counters_intervalStart (st : Station) (l : LeakSpec) : (s.settleSample st l).counters.intervalStart = s.counters.intervalStart := by
  (unfold settleSample; split) <;> simp
@[simp] theorem settleSample_counters_autoStart (st : Station) (l : LeakSpec) : (s.settleSample st l).counters.autoStart = s.counters.autoStart := by
  (unfold settleSample; split) <;> simp
@[simp] theorem measureEnd_counters_snapshot (st : Station) (l : LeakSpec) : (s.measureEnd st l).counters.snapshot = s.counters.snapshot := by
  (unfold measureEnd; skip) <;> simp
@[simp] theorem measureEnd_counters_intervalStart (st : Station) (l : LeakSpec) : (s.measureEnd st l).counters.intervalStart = s.counters.intervalStart := by
  (unfold measureEnd; skip) <;> simp
@[simp] theorem measureEnd_counters_autoStart (st : Station) (l : LeakSpec) : (s.measureEnd st l).counters.autoStart = s.counters.autoStart := by
  (unfold measureEnd; skip) <;> simp
@[simp] theorem measureSample_counters_snapshot (st : Station) (l : LeakSpec) (q : StQuantity) : (s.measureSample st l q).counters.snapshot = s.counters.snapshot := by
  (unfold measureSample; dsimp only; split) <;> simp
@[simp] theorem measureSample_counters_intervalStart (st : Station) (l : LeakSpec) (q : StQuantity) : (s.measureSample st l q).counters.intervalStart = s.counters.intervalStart := by
  (unfold measureSample; dsimp only; split) <;> simp
@[simp] theorem measureSample_counters_autoStart (st : Station) (l : LeakSpec) (q : StQuantity) : (s.measureSample st l q).counters.autoStart = s.counters.autoStart := by
  (unfold measureSample; dsimp only; split) <;> simp
@[simp] theorem leakSample_counters_snapshot (st : Station) (q : StQuantity) : (s.leakSample st q).counters.snapshot = s.counters.snapshot := by
  (unfold leakSample; split) <;> simp
@[simp] theorem leakSample_counters_intervalStart (st : Station) (q : StQuantity) : (s.leakSample st q).counters.intervalStart = s.counters.intervalStart := by
  (unfold leakSample; split) <;> simp
@[simp] theorem leakSample_counters_autoStart (st : Station) (q : StQuantity) : (s.leakSample st q).counters.autoStart = s.counters.autoStart := by
  (unfold leakSample; split) <;> simp
@[simp] theorem leakAlarm_counters_snapshot (st : Station) (q : StQuantity) (k : FlagKind) : (s.leakAlarm st q k).counters.snapshot = s.counters.snapshot := by
  (unfold leakAlarm; split) <;> simp
@[simp] theorem leakAlarm_counters_intervalStart (st : Station) (q : StQuantity) (k : FlagKind) : (s.leakAlarm st q k).counters.intervalStart = s.counters.intervalStart := by
  (unfold leakAlarm; split) <;> simp
@[simp] theorem leakAlarm_counters_autoStart (st : Station) (q : StQuantity) (k : FlagKind) : (s.leakAlarm st q k).counters.autoStart = s.counters.autoStart := by
  (unfold leakAlarm; split) <;> simp
@[simp] theorem supplyFault_counters_snapshot : (s.supplyFault).counters.snapshot = s.counters.snapshot := by
  (unfold supplyFault; repeat' split) <;> simp
@[simp] theorem supplyFault_counters_intervalStart : (s.supplyFault).counters.intervalStart = s.counters.intervalStart := by
  (unfold supplyFault; repeat' split) <;> simp
@[simp] theorem supplyFault_counters_autoStart : (s.supplyFault).counters.autoStart = s.counters.autoStart := by
  (unfold supplyFault; repeat' split) <;> simp
@[simp] theorem dwellExpiry_counters_snapshot (st : Station) : (s.dwellExpiry st).counters.snapshot = s.counters.snapshot := by
  (unfold dwellExpiry; repeat' split) <;> simp
@[simp] theorem dwellExpiry_counters_intervalStart (st : Station) : (s.dwellExpiry st).counters.intervalStart = s.counters.intervalStart := by
  (unfold dwellExpiry; repeat' split) <;> simp
@[simp] theorem dwellExpiry_counters_autoStart (st : Station) : (s.dwellExpiry st).counters.autoStart = s.counters.autoStart := by
  (unfold dwellExpiry; repeat' split) <;> simp
@[simp] theorem extendTimeout_counters_snapshot (st : Station) : (s.extendTimeout st).counters.snapshot = s.counters.snapshot := by
  (unfold extendTimeout; split) <;> simp
@[simp] theorem extendTimeout_counters_intervalStart (st : Station) : (s.extendTimeout st).counters.intervalStart = s.counters.intervalStart := by
  (unfold extendTimeout; split) <;> simp
@[simp] theorem extendTimeout_counters_autoStart (st : Station) : (s.extendTimeout st).counters.autoStart = s.counters.autoStart := by
  (unfold extendTimeout; split) <;> simp
@[simp] theorem gateTimeout_counters_snapshot (st : Station) : (s.gateTimeout st).counters.snapshot = s.counters.snapshot := by
  (unfold gateTimeout; split) <;> simp
@[simp] theorem gateTimeout_counters_intervalStart (st : Station) : (s.gateTimeout st).counters.intervalStart = s.counters.intervalStart := by
  (unfold gateTimeout; split) <;> simp
@[simp] theorem gateTimeout_counters_autoStart (st : Station) : (s.gateTimeout st).counters.autoStart = s.counters.autoStart := by
  (unfold gateTimeout; split) <;> simp
@[simp] theorem stopTimeout_counters_snapshot (st : Station) : (s.stopTimeout st).counters.snapshot = s.counters.snapshot := by
  (unfold stopTimeout; skip) <;> simp
@[simp] theorem stopTimeout_counters_intervalStart (st : Station) : (s.stopTimeout st).counters.intervalStart = s.counters.intervalStart := by
  (unfold stopTimeout; skip) <;> simp
@[simp] theorem stopTimeout_counters_autoStart (st : Station) : (s.stopTimeout st).counters.autoStart = s.counters.autoStart := by
  (unfold stopTimeout; skip) <;> simp
@[simp] theorem rampSample_counters_snapshot (st : Station) (x : StepCtx) (t : Int) (a b : Nat) : (s.rampSample st x t a b).counters.snapshot = s.counters.snapshot := by
  (unfold rampSample; dsimp only; repeat' split) <;> simp
@[simp] theorem rampSample_counters_intervalStart (st : Station) (x : StepCtx) (t : Int) (a b : Nat) : (s.rampSample st x t a b).counters.intervalStart = s.counters.intervalStart := by
  (unfold rampSample; dsimp only; repeat' split) <;> simp
@[simp] theorem rampSample_counters_autoStart (st : Station) (x : StepCtx) (t : Int) (a b : Nat) : (s.rampSample st x t a b).counters.autoStart = s.counters.autoStart := by
  (unfold rampSample; dsimp only; repeat' split) <;> simp
@[simp] theorem gateSample_counters_snapshot (st : Station) (x : StepCtx) (q : StQuantity) (r : GateRelation) (v : Int) (h : Nat) : (s.gateSample st x q r v h).counters.snapshot = s.counters.snapshot := by
  (unfold gateSample; dsimp only; repeat' split) <;> simp
@[simp] theorem gateSample_counters_intervalStart (st : Station) (x : StepCtx) (q : StQuantity) (r : GateRelation) (v : Int) (h : Nat) : (s.gateSample st x q r v h).counters.intervalStart = s.counters.intervalStart := by
  (unfold gateSample; dsimp only; repeat' split) <;> simp
@[simp] theorem gateSample_counters_autoStart (st : Station) (x : StepCtx) (q : StQuantity) (r : GateRelation) (v : Int) (h : Nat) : (s.gateSample st x q r v h).counters.autoStart = s.counters.autoStart := by
  (unfold gateSample; dsimp only; repeat' split) <;> simp
@[simp] theorem checkAveraged_counters_snapshot (st : Station) (x : StepCtx) (q : StQuantity) (m : CheckMode) (r : Int) (t n : Nat) (u : Int) : (s.checkAveraged st x q m r t n u).counters.snapshot = s.counters.snapshot := by
  (unfold checkAveraged; dsimp only; split) <;> simp
@[simp] theorem checkAveraged_counters_intervalStart (st : Station) (x : StepCtx) (q : StQuantity) (m : CheckMode) (r : Int) (t n : Nat) (u : Int) : (s.checkAveraged st x q m r t n u).counters.intervalStart = s.counters.intervalStart := by
  (unfold checkAveraged; dsimp only; split) <;> simp
@[simp] theorem checkAveraged_counters_autoStart (st : Station) (x : StepCtx) (q : StQuantity) (m : CheckMode) (r : Int) (t n : Nat) (u : Int) : (s.checkAveraged st x q m r t n u).counters.autoStart = s.counters.autoStart := by
  (unfold checkAveraged; dsimp only; split) <;> simp
@[simp] theorem checkSample_counters_snapshot (st : Station) (x : StepCtx) (q : StQuantity) (a : Nat) (m : CheckMode) (r : Int) (t : Nat) (u : Int) (c : Nat) : (s.checkSample st x q a m r t u c).counters.snapshot = s.counters.snapshot := by
  (unfold checkSample; dsimp only; split) <;> simp
@[simp] theorem checkSample_counters_intervalStart (st : Station) (x : StepCtx) (q : StQuantity) (a : Nat) (m : CheckMode) (r : Int) (t : Nat) (u : Int) (c : Nat) : (s.checkSample st x q a m r t u c).counters.intervalStart = s.counters.intervalStart := by
  (unfold checkSample; dsimp only; split) <;> simp
@[simp] theorem checkSample_counters_autoStart (st : Station) (x : StepCtx) (q : StQuantity) (a : Nat) (m : CheckMode) (r : Int) (t : Nat) (u : Int) (c : Nat) : (s.checkSample st x q a m r t u c).counters.autoStart = s.counters.autoStart := by
  (unfold checkSample; dsimp only; split) <;> simp
@[simp] theorem stoppingSample_counters_snapshot (st : Station) : (s.stoppingSample st).counters.snapshot = s.counters.snapshot := by
  (unfold stoppingSample; dsimp only; repeat' split) <;> simp
@[simp] theorem stoppingSample_counters_intervalStart (st : Station) : (s.stoppingSample st).counters.intervalStart = s.counters.intervalStart := by
  (unfold stoppingSample; dsimp only; repeat' split) <;> simp
@[simp] theorem stoppingSample_counters_autoStart (st : Station) : (s.stoppingSample st).counters.autoStart = s.counters.autoStart := by
  (unfold stoppingSample; dsimp only; repeat' split) <;> simp
@[simp] theorem flagNotice_counters_snapshot (sc : Option Station) (q : Quantity) (h : Int) (k : FlagKind) : (s.flagNotice sc q h k).counters.snapshot = s.counters.snapshot := by
  (unfold flagNotice; split) <;> simp
@[simp] theorem flagNotice_counters_intervalStart (sc : Option Station) (q : Quantity) (h : Int) (k : FlagKind) : (s.flagNotice sc q h k).counters.intervalStart = s.counters.intervalStart := by
  (unfold flagNotice; split) <;> simp
@[simp] theorem flagNotice_counters_autoStart (sc : Option Station) (q : Quantity) (h : Int) (k : FlagKind) : (s.flagNotice sc q h k).counters.autoStart = s.counters.autoStart := by
  (unfold flagNotice; split) <;> simp
@[simp] theorem flagNotice_counters_changed (sc : Option Station) (q : Quantity) (h : Int) (k : FlagKind) : (s.flagNotice sc q h k).counters.changed = s.counters.changed := by
  (unfold flagNotice; split) <;> simp
@[simp] theorem flagNotice_counters_live_stations (sc : Option Station) (q : Quantity) (h : Int) (k : FlagKind) : (s.flagNotice sc q h k).counters.live.stations = s.counters.live.stations := by
  (unfold flagNotice; split) <;> simp
@[simp] theorem handOn_counters_snapshot (st : Station) (q : StQuantity) (h : Int) (k : FlagKind) : (handOn st q h s k).counters.snapshot = s.counters.snapshot := by
  (unfold handOn; dsimp only; split) <;> simp
@[simp] theorem handOn_counters_intervalStart (st : Station) (q : StQuantity) (h : Int) (k : FlagKind) : (handOn st q h s k).counters.intervalStart = s.counters.intervalStart := by
  (unfold handOn; dsimp only; split) <;> simp
@[simp] theorem handOn_counters_autoStart (st : Station) (q : StQuantity) (h : Int) (k : FlagKind) : (handOn st q h s k).counters.autoStart = s.counters.autoStart := by
  (unfold handOn; dsimp only; split) <;> simp
@[simp] theorem judgeStep_counters_snapshot (st : Station) (q : StQuantity) : (s.judgeStep st q).counters.snapshot = s.counters.snapshot := by
  (unfold judgeStep; repeat' split) <;> simp
@[simp] theorem judgeStep_counters_intervalStart (st : Station) (q : StQuantity) : (s.judgeStep st q).counters.intervalStart = s.counters.intervalStart := by
  (unfold judgeStep; repeat' split) <;> simp
@[simp] theorem judgeStep_counters_autoStart (st : Station) (q : StQuantity) : (s.judgeStep st q).counters.autoStart = s.counters.autoStart := by
  (unfold judgeStep; repeat' split) <;> simp
@[simp] theorem readSample_counters_snapshot (t : State) (x : SensorInput) : (readSample t s x).counters.snapshot = s.counters.snapshot := by
  (unfold readSample; repeat' split) <;> simp
@[simp] theorem readSample_counters_intervalStart (t : State) (x : SensorInput) : (readSample t s x).counters.intervalStart = s.counters.intervalStart := by
  (unfold readSample; repeat' split) <;> simp
@[simp] theorem readSample_counters_autoStart (t : State) (x : SensorInput) : (readSample t s x).counters.autoStart = s.counters.autoStart := by
  (unfold readSample; repeat' split) <;> simp
@[simp] theorem closeUnsteady_counters_snapshot (st : Station) (e : EngineId) (g : Nat) : (s.closeUnsteady st e g).counters.snapshot = s.counters.snapshot := by
  (unfold closeUnsteady; dsimp only; split) <;> simp
@[simp] theorem closeUnsteady_counters_intervalStart (st : Station) (e : EngineId) (g : Nat) : (s.closeUnsteady st e g).counters.intervalStart = s.counters.intervalStart := by
  (unfold closeUnsteady; dsimp only; split) <;> simp
@[simp] theorem closeUnsteady_counters_autoStart (st : Station) (e : EngineId) (g : Nat) : (s.closeUnsteady st e g).counters.autoStart = s.counters.autoStart := by
  (unfold closeUnsteady; dsimp only; split) <;> simp
@[simp] theorem acceptRevolution_counters_snapshot (st : Station) (e : EngineId) (r : AccelReading) : (s.acceptRevolution st e r).counters.snapshot = s.counters.snapshot := by
  (unfold acceptRevolution; dsimp only) <;> simp
@[simp] theorem acceptRevolution_counters_intervalStart (st : Station) (e : EngineId) (r : AccelReading) : (s.acceptRevolution st e r).counters.intervalStart = s.counters.intervalStart := by
  (unfold acceptRevolution; dsimp only) <;> simp
@[simp] theorem acceptRevolution_counters_autoStart (st : Station) (e : EngineId) (r : AccelReading) : (s.acceptRevolution st e r).counters.autoStart = s.counters.autoStart := by
  (unfold acceptRevolution; dsimp only) <;> simp
@[simp] theorem acceptRevolution_counters_changed (st : Station) (e : EngineId) (r : AccelReading) : (s.acceptRevolution st e r).counters.changed = s.counters.changed := by
  (unfold acceptRevolution; dsimp only) <;> simp
@[simp] theorem acceptRevolution_counters_live_globals (st : Station) (e : EngineId) (r : AccelReading) : (s.acceptRevolution st e r).counters.live.globals = s.counters.live.globals := by
  (unfold acceptRevolution; dsimp only) <;> simp
@[simp] theorem discardRevolution_counters_snapshot (st : Station) (e : EngineId) (l : GroupLine) (c : Bool) (r : AccelReading) : (s.discardRevolution st e l c r).counters.snapshot = s.counters.snapshot := by
  (unfold discardRevolution; dsimp only; repeat' split) <;> simp
@[simp] theorem discardRevolution_counters_intervalStart (st : Station) (e : EngineId) (l : GroupLine) (c : Bool) (r : AccelReading) : (s.discardRevolution st e l c r).counters.intervalStart = s.counters.intervalStart := by
  (unfold discardRevolution; dsimp only; repeat' split) <;> simp
@[simp] theorem discardRevolution_counters_autoStart (st : Station) (e : EngineId) (l : GroupLine) (c : Bool) (r : AccelReading) : (s.discardRevolution st e l c r).counters.autoStart = s.counters.autoStart := by
  (unfold discardRevolution; dsimp only; repeat' split) <;> simp
@[simp] theorem deferredClaim_counters_snapshot (st : Station) : (s.deferredClaim st).counters.snapshot = s.counters.snapshot := by
  (unfold deferredClaim; dsimp only; repeat' split) <;> simp
@[simp] theorem deferredClaim_counters_intervalStart (st : Station) : (s.deferredClaim st).counters.intervalStart = s.counters.intervalStart := by
  (unfold deferredClaim; dsimp only; repeat' split) <;> simp
@[simp] theorem deferredClaim_counters_autoStart (st : Station) : (s.deferredClaim st).counters.autoStart = s.counters.autoStart := by
  (unfold deferredClaim; dsimp only; repeat' split) <;> simp
@[simp] theorem completion_counters_snapshot (e : EngineId) : (s.completion e).counters.snapshot = s.counters.snapshot := by
  (unfold completion; dsimp only; repeat' split) <;> simp
@[simp] theorem completion_counters_intervalStart (e : EngineId) : (s.completion e).counters.intervalStart = s.counters.intervalStart := by
  (unfold completion; dsimp only; repeat' split) <;> simp
@[simp] theorem completion_counters_autoStart (e : EngineId) : (s.completion e).counters.autoStart = s.counters.autoStart := by
  (unfold completion; dsimp only; repeat' split) <;> simp
@[simp] theorem engineWaitExpiry_counters_snapshot (st : Station) : (s.engineWaitExpiry st).counters.snapshot = s.counters.snapshot := by
  (unfold engineWaitExpiry; split) <;> simp
@[simp] theorem engineWaitExpiry_counters_intervalStart (st : Station) : (s.engineWaitExpiry st).counters.intervalStart = s.counters.intervalStart := by
  (unfold engineWaitExpiry; split) <;> simp
@[simp] theorem engineWaitExpiry_counters_autoStart (st : Station) : (s.engineWaitExpiry st).counters.autoStart = s.counters.autoStart := by
  (unfold engineWaitExpiry; split) <;> simp
@[simp] theorem driveFaultInput_counters_snapshot (st : Station) (a : Bool) : (s.driveFaultInput st a).counters.snapshot = s.counters.snapshot := by
  (unfold driveFaultInput; dsimp only; split) <;> simp
@[simp] theorem driveFaultInput_counters_intervalStart (st : Station) (a : Bool) : (s.driveFaultInput st a).counters.intervalStart = s.counters.intervalStart := by
  (unfold driveFaultInput; dsimp only; split) <;> simp
@[simp] theorem driveFaultInput_counters_autoStart (st : Station) (a : Bool) : (s.driveFaultInput st a).counters.autoStart = s.counters.autoStart := by
  (unfold driveFaultInput; dsimp only; split) <;> simp
@[simp] theorem releaseStation_counters_snapshot (st : Station) : (s.releaseStation st).counters.snapshot = s.counters.snapshot := by
  (unfold releaseStation; skip) <;> simp
@[simp] theorem releaseStation_counters_intervalStart (st : Station) : (s.releaseStation st).counters.intervalStart = s.counters.intervalStart := by
  (unfold releaseStation; skip) <;> simp
@[simp] theorem releaseStation_counters_autoStart (st : Station) : (s.releaseStation st).counters.autoStart = s.counters.autoStart := by
  (unfold releaseStation; skip) <;> simp

end State

end Sys2Proof.Machine
end

