-- ==== Sys2Proof/Laws/Exit.lean ====
section
/-! SUPPORT. What a station gives up on leaving RUNNING: its place in the engine wait queue, its deferred claim, its engine and
its groups to the Noise Analyser (R119), its leak phase, the supply grant and its place in the supply queue to the Leak Tester
(R141). -/

namespace Sys2Proof.Machine

open Sys2Proof

set_option Elab.async false

namespace State

variable (s : State)

/-! ### Engines -/

theorem engine_modEngine (e d : EngineId) (f : Engine → Engine) :
    (s.modEngine e f).engine d = if d = e then f (s.engine e) else s.engine d := by
  cases e <;> cases d <;> rfl

theorem engine_congr {s t : State} (h : t.noise = s.noise) (e : EngineId) : t.engine e = s.engine e := by
  cases e <;> simp only [engine, h]

@[simp] theorem modGroups_engine (st : Station) (f : List GroupLine → List GroupLine) (e : EngineId) :
    (s.modGroups st f).engine e = s.engine e := by cases e <;> rfl

@[simp] theorem setDeferred_engine (st : Station) (g : Option Nat) (e : EngineId) :
    (s.setDeferred st g).engine e = s.engine e := by cases e <;> rfl

/-- A grant to another station: its own engine, and that station's group table (R99). -/
theorem grantEngine_other (e : EngineId) {j st : Station} (g : Nat) (h : j ≠ st) :
    (s.grantEngine e j g).noise.queue = s.noise.queue ∧ (s.grantEngine e j g).noise.deferred = s.noise.deferred
      ∧ (s.grantEngine e j g).noise.groups[st.val] = s.noise.groups[st.val]
      ∧ (∀ d, d ≠ e → (s.grantEngine e j g).engine d = s.engine d)
      ∧ ((s.grantEngine e j g).engine e = s.engine e ∨ ((s.grantEngine e j g).engine e).holder = some j) := by
  unfold grantEngine
  split
  · simp
  · simp
  · refine ⟨by simp, by simp, by simp [h], fun d hd => by simp [engine_modEngine, hd], ?_⟩
    right; simp [Engine.grantTo]

/-- A FREE engine passed on while a station does not wait: nothing of that station changes (R100). -/
theorem passEngine_other (e : EngineId) (st : Station) (h : ∀ w ∈ s.noise.queue, w.station ≠ st) :
    (∀ w ∈ (s.passEngine e).noise.queue, w.station ≠ st) ∧ (s.passEngine e).noise.deferred = s.noise.deferred
      ∧ (s.passEngine e).noise.groups[st.val] = s.noise.groups[st.val]
      ∧ (∀ d, d ≠ e → (s.passEngine e).engine d = s.engine d)
      ∧ ((s.passEngine e).engine e = s.engine e ∨ ((s.passEngine e).engine e).holder ≠ some st) := by
  unfold passEngine
  split
  · rename_i w rest _ hq
    have hw : w.station ≠ st := h w (by simp [hq])
    obtain ⟨h1, h2, h3, h4, h5⟩ := grantEngine_other ({ s with noise := { s.noise with queue := rest } }) e w.group hw
    refine ⟨?_, h2, h3, h4, ?_⟩
    · rw [h1]; intro v hv; exact h v (by simp [hq]; exact .inr hv)
    · rcases h5 with h5 | h5
      · left; rw [h5]; cases e <;> rfl
      · right; rw [h5]; simpa using hw
  · exact ⟨h, rfl, rfl, fun _ _ => rfl, .inl rfl⟩

/-! ### Groups (R119) -/

theorem settledLine_settled (l : GroupLine) :
    (s.settledLine l).status ≠ .opened ∧ ((s.settledLine l).status = .closed → (s.settledLine l).entered = true) := by
  unfold settledLine settlement
  cases hs : l.status <;> simp only
  · simp
  · cases l.engine <;> simp [GroupLine.close]
  · cases he : l.entered <;> simp_all [GroupLine.close]

@[simp] theorem settleGroups_queue (st : Station) : (s.settleGroups st).noise.queue = s.noise.queue := rfl
@[simp] theorem settleGroups_deferred (st : Station) : (s.settleGroups st).noise.deferred = s.noise.deferred := rfl
@[simp] theorem settleGroups_engine (st : Station) (e : EngineId) : (s.settleGroups st).engine e = s.engine e := by
  cases e <;> rfl

/-- What the Noise Analyser holds for a station that has left RUNNING (R10, R119). -/
structure NoiseGivenUp (s t : State) (st : Station) : Prop where
  queue : ∀ w ∈ t.noise.queue, w.station ≠ st
  deferred : t.noise.deferred[st.val] = none
  engine : ∀ e : EngineId, s.heldEngine st = some e → (t.engine e).holder = some st →
    (t.engine e).isComputing = true ∧ (t.engine e).abandoned = true
  gained : ∀ e : EngineId, (s.engine e).holder ≠ some st → (t.engine e).holder ≠ some st
  groups : ∀ l ∈ t.noise.groups[st.val], l.status ≠ .opened ∧ (l.status = .closed → l.entered = true)

theorem noiseExit_givenUp (st : Station) : s.NoiseGivenUp (s.noiseExit st) st := by
  -- the wait ended
  obtain ⟨u, hu, hq, hd, he, hh⟩ : ∃ u : State, u = (if s.waiting st then (s.dropWait st).remark st .engineWait else s)
      ∧ (∀ w ∈ u.noise.queue, w.station ≠ st) ∧ u.noise.deferred[st.val] = none ∧ (∀ e, u.engine e = s.engine e)
      ∧ u.heldEngine st = s.heldEngine st := by
    refine ⟨_, rfl, ?_⟩
    split
    · refine ⟨?_, ?_, ?_, ?_⟩
      · intro w hw; simp [dropWait] at hw; exact hw.2
      · simp [dropWait]
      · intro e; rw [engine_congr (s := s.dropWait st) (by simp)]; cases e <;> rfl
      · rfl
    · rename_i h
      simp only [waiting, waitsForEngine, Bool.or_eq_true, not_or, List.any_eq_true, not_exists, not_and,
        Bool.not_eq_true, Option.isSome_eq_false_iff, Option.isNone_iff_eq_none] at h
      exact ⟨fun w hw => by simpa using h.1 w hw, h.2, fun _ => rfl, rfl⟩
  have hg : ∀ l ∈ (u.settleGroups st).noise.groups[st.val], l.status ≠ .opened ∧ (l.status = .closed → l.entered = true) := by
    intro l hl
    simp [settleGroups] at hl
    obtain ⟨l', _, rfl⟩ := hl
    exact u.settledLine_settled l'
  unfold noiseExit
  simp only [← hu, hh]
  split
  · rename_i hn
    refine ⟨hq, hd, ?_, ?_, hg⟩
    · intro e h; simp [hn] at h
    · intro e h; simpa [he] using h
  · rename_i e hn
    have hne : ∀ d, s.heldEngine st = some d → d = e := by intro d h; rw [hn] at h; injection h with h; exact h.symm
    split
    · rename_i hc
      refine ⟨by simpa using hq, by simpa using hd, ?_, ?_, by simpa using hg⟩
      · intro d h _; rw [hne d h, engine_modEngine]
        simpa [Engine.isComputing] using hc
      · intro d h; rw [engine_modEngine]
        split
        · rename_i hde; subst hde; simpa [he] using h
        · simpa [he] using h
    · obtain ⟨h1, h2, h3, h4, h5⟩ := passEngine_other ((u.settleGroups st).modEngine e Engine.release) e st (by simpa using hq)
      have hr : (((u.settleGroups st).modEngine e Engine.release).engine e).holder ≠ some st := by
        simp [Engine.release]
      have hf : ((((u.settleGroups st).modEngine e Engine.release).passEngine e).engine e).holder ≠ some st := by
        rcases h5 with h5 | h5
        · rw [h5]; exact hr
        · exact h5
      unfold freeEngine
      refine ⟨h1, by rw [h2]; simpa using hd, ?_, ?_, ?_⟩
      · intro d h hd'; rw [hne d h] at hd'; exact absurd hd' hf
      · intro d h
        by_cases hde : d = e
        · rw [hde]; exact hf
        · rw [h4 d hde]; simpa [engine_modEngine, hde, he] using h
      · rw [h3]; simpa using hg

/-! ### The leak circuit (R141) -/

/-- The examination grants nobody who does not wait, and moves no circuit but the one it grants (R128). -/
theorem examineSupply_other (st : Station) (h : st ∉ s.leak.queue) :
    st ∉ s.examineSupply.leak.queue ∧ (s.leak.grant ≠ some st → s.examineSupply.leak.grant ≠ some st)
      ∧ s.examineSupply.leak.circuits[st.val] = s.leak.circuits[st.val] := by
  unfold examineSupply
  split
  · rename_i j rest _ hq hg hh
    rw [hq] at h
    simp only [List.mem_cons, not_or] at h
    refine ⟨by simpa [enterPhase] using h.2, fun _ => by simpa [enterPhase] using Ne.symm h.1, ?_⟩
    simp [enterPhase, Ne.symm h.1]
  · exact ⟨h, id, rfl⟩

@[simp] theorem decideLeak_leak_grant (st : Station) (r : LeakResult) : (s.decideLeak st r).leak.grant = s.leak.grant := by
  unfold decideLeak; dsimp only; split <;> simp
@[simp] theorem decideLeak_leak_queue (st : Station) (r : LeakResult) : (s.decideLeak st r).leak.queue = s.leak.queue := by
  unfold decideLeak; dsimp only; split <;> simp

/-- What the Leak Tester holds for a station that has left RUNNING, in place in queue and grant before (R10, R141). -/
structure LeakGivenUp (s t : State) (st : Station) : Prop where
  grant : t.leak.grant ≠ some st
  queue : st ∉ t.leak.queue
  phase : (t.circuit st).phase = (match (s.circuit st).phase with
      | .none | .standstillWait | .waitSupply => .none
      | .fill | .settle | .measure | .vent => .vent)
  valves : (s.circuit st).phase ≠ .none → (s.circuit st).phase ≠ .vent →
      (t.circuit st).fillOpen = false ∧ (t.circuit st).ventOpen = true

/-- A station rests or vents after its result is decided; its grant passes on (R129, R140). -/
theorem ventAfter_givenUp (st : Station) (h : st ∉ s.leak.queue) :
    (s.ventAfter st).leak.grant ≠ some st ∧ st ∉ (s.ventAfter st).leak.queue
      ∧ (s.ventAfter st).leak.circuits[st.val] = (s.leak.circuits[st.val]).enter .vent s.now := by
  unfold ventAfter releaseGrant
  split
  · obtain ⟨h1, h2, h3⟩ := examineSupply_other
      ({ s.enterPhase st .vent with leak := { (s.enterPhase st .vent).leak with grant := none } }) st (by simpa [enterPhase] using h)
    exact ⟨h2 (by simp), h1, by rw [h3]; simp [enterPhase]⟩
  · rename_i hg
    exact ⟨hg, by simpa [enterPhase] using h, by simp [enterPhase]⟩

/-- A station that leaves the supply wait queue is in it no more, and is granted nothing (R127). -/
theorem leaveSupplyQueue_givenUp (st : Station) (h : s.leak.grant ≠ some st) :
    (s.leaveSupplyQueue st).leak.grant ≠ some st ∧ st ∉ (s.leaveSupplyQueue st).leak.queue
      ∧ (s.leaveSupplyQueue st).leak.circuits[st.val] = s.leak.circuits[st.val] := by
  unfold leaveSupplyQueue
  split
  · obtain ⟨h1, h2, h3⟩ := examineSupply_other
      ({ s with leak := { s.leak with queue := s.leak.queue.filter (· ≠ st) } }) st (by simp)
    exact ⟨h2 h, h1, h3⟩
  · rename_i hn; exact ⟨h, hn, rfl⟩

theorem leakExit_givenUp (st : Station) (hg : s.leak.grant = some st → (s.circuit st).phase = .fill)
    (hq : st ∈ s.leak.queue → (s.circuit st).phase = .waitSupply) : s.LeakGivenUp (s.leakExit st) st := by
  have stay : ∀ p, (s.circuit st).phase = p → p ≠ .fill → s.leak.grant ≠ some st := fun p h1 h2 h3 => h2 (h1.symm.trans (hg h3))
  have out : ∀ p, (s.circuit st).phase = p → p ≠ .waitSupply → st ∉ s.leak.queue := fun p h1 h2 h3 => h2 (h1.symm.trans (hq h3))
  unfold leakExit
  cases h : (s.circuit st).phase <;> simp only
  · exact ⟨stay _ h (by simp), out _ h (by simp), by rw [h], fun h1 h2 => absurd h h1⟩
  · refine ⟨?_, ?_, by rw [h]; simp [leakRest, LeakCircuit.rest], by simp [leakRest, LeakCircuit.rest]⟩
    · simpa [leakRest] using stay _ h (by simp)
    · simpa [leakRest] using out _ h (by simp)
  · obtain ⟨h1, h2, h3⟩ := leaveSupplyQueue_givenUp ((s.decideLeak st (LeakResult.stopped .notCompleted)).leakRest st) st
      (by simpa [leakRest] using stay _ h (by simp))
    refine ⟨h1, h2, ?_, ?_⟩
    · rw [h]; simp only [circuit, Fin.getElem_fin]; rw [h3]; simp [leakRest, LeakCircuit.rest]
    · intro _ _; simp only [circuit, Fin.getElem_fin]; rw [h3]; simp [leakRest, LeakCircuit.rest]
  case vent => exact ⟨stay _ h (by simp), out _ h (by simp), by rw [h], fun h1 h2 => absurd h h2⟩
  all_goals
    obtain ⟨h1, h2, h3⟩ := ventAfter_givenUp (s.decideLeak st (LeakResult.stopped .notCompleted)) st
      (by simpa using out _ h (by simp))
    refine ⟨h1, h2, ?_, ?_⟩
    · rw [h]; simp only [circuit, Fin.getElem_fin]; rw [h3]; simp [LeakCircuit.enter]
    · intro _ _; simp only [circuit, Fin.getElem_fin]; rw [h3]; simp [LeakCircuit.enter, LeakPhase.fillOpen, LeakPhase.ventOpen]

end State
end Sys2Proof.Machine
end

