-- ==== Sys2Proof/Laws/Requests.lean ====
section
/-! SUPPORT. What a request, an event and an event that is due come to: the rule of the request on the receiver in
HUNTING and the reply; the effect of the event and the transmitter's choice. -/

namespace Sys2Proof.Machine

open Sys2Proof

set_option Elab.async false

/-- A request whose frame completes with the slot empty: its rule on the state with the receiver in HUNTING, then the
reply (R190, R192). -/
theorem request_taken (kind tag : Byte) (serve : State → State × List Byte) (s : State) (h : s.link.slot = none)
    (hk : kind.toNat < 0x80) :
    request kind tag serve s = .next ((serve s.received).1.replies (kind + 0x80) tag (serve s.received).2) := by
  have : (s.modLink Link.hunt).link.slot = none := h
  simp only [request, goodFrame, this, Option.isSome_none, Bool.false_eq_true, if_false, hk, if_true]
  rfl

/-- A request whose frame completes with a reply in the slot is discarded (R191). -/
theorem request_discarded (kind tag : Byte) (serve : State → State × List Byte) (s : State) (h : s.link.slot ≠ none) :
    request kind tag serve s = .next s.received := by
  have : (s.modLink Link.hunt).link.slot.isSome = true := Option.isSome_iff_ne_none.mpr h
  simp only [request, goodFrame, this, if_true]
  rfl

/-- An event that is one in this state: its effect, then the transmitter's choice. -/
theorem eventWhen_taken (due : State → Bool) (f : State → State) (s : State) (h : due s = true) :
    eventWhen due f s = .next (s.afterNotices (f s)) := by simp [eventWhen, h, event]

/-- A command that names an event that does not occur leaves the state. -/
theorem eventWhen_absent (due : State → Bool) (f : State → State) (s : State) (h : due s = false) :
    eventWhen due f s = .next s := by simp [eventWhen, h]

/-- A station's number names the station. -/
theorem stationOf_stationCode (st : Station) : stationOf (stationCode st) = some st := by
  revert st; decide

/-- A byte outside 1 to 6 names no station. -/
theorem stationOf_eq_none (b : Byte) (h : b.toNat = 0 ∨ 6 < b.toNat) : stationOf b = none := by
  unfold stationOf; rw [dif_neg]; omega

/-- A station's number names its scope. -/
theorem scopeOf_stationCode (st : Station) : scopeOf (stationCode st) = .ok (.station st) := by
  have h : stationCode st ≠ 0 := by revert st; decide
  unfold scopeOf; rw [if_neg h, stationOf_stationCode]

end Sys2Proof.Machine
end

