-- ==== Sys2Proof/Laws/Sequencer.lean ====
section
/-! SUPPORT. What the Sequencer's operations do, said once: the entry to STOPPING, the entry to COMPLETING with the offer of
the record, the beginning and the end of a step; and `Quiet`, what the operations within a test keep. -/

namespace Sys2Proof.Machine

open Sys2Proof

set_option Elab.async false

namespace State

theorem map_const_of_map {α β γ : Type} {x y : Option α} {f : α → β} (h : x.map f = y.map f) (c : γ) :
    x.map (fun _ => c) = y.map (fun _ => c) := by
  cases x <;> cases y <;> simp_all

theorem leaveRunning_step (s : State) (st : Station) : (s.leaveRunning st).seq[st.val].step = none := by
  simp only [leaveRunning, noiseExit_ctx_step]
  unfold closeStep
  split
  · assumption
  · simp [modCtx_seq]

/-- The entry to STOPPING gives up what the exit from RUNNING gives up (R10, R119, R141). -/
theorem enterStopping_noise (s : State) (st : Station) (cause : Option AbortCause) (drop : Bool) :
    (s.enterStopping st cause drop).noise = (s.leaveRunning st).noise := by
  unfold enterStopping; dsimp only; (repeat' split) <;> simp

theorem enterStopping_leak (s : State) (st : Station) (cause : Option AbortCause) (drop : Bool) :
    (s.enterStopping st cause drop).leak = ((s.leaveRunning st).leakExit st).leak := by
  unfold enterStopping; dsimp only; (repeat' split) <;> simp

theorem enterStopping_noiseGivenUp (s : State) (st : Station) (cause : Option AbortCause) (drop : Bool) :
    s.NoiseGivenUp (s.enterStopping st cause drop) st := by
  have e := enterStopping_noise s st cause drop
  have c := s.closeStep_noise st
  have h := (s.closeStep st).noiseExit_givenUp st
  refine ⟨by rw [e]; exact h.queue, by rw [e]; exact h.deferred, fun d hd => ?_, fun d hd => ?_, by rw [e]; exact h.groups⟩
  · rw [engine_congr e]; exact h.engine d (by simpa only [heldEngine, c] using hd)
  · rw [engine_congr e]; exact h.gained d (by rwa [engine_congr c])

theorem enterStopping_leakGivenUp (s : State) (st : Station) (cause : Option AbortCause) (drop : Bool)
    (hg : s.leak.grant = some st → (s.circuit st).phase = .fill)
    (hq : st ∈ s.leak.queue → (s.circuit st).phase = .waitSupply) :
    s.LeakGivenUp (s.enterStopping st cause drop) st := by
  have e := enterStopping_leak s st cause drop
  have c := s.leaveRunning_leak st
  have h := (s.leaveRunning st).leakExit_givenUp st (by simpa only [circuit, c] using hg) (by simpa only [circuit, c] using hq)
  refine ⟨by rw [e]; exact h.grant, by rw [e]; exact h.queue, ?_, ?_⟩
  · have := h.phase; simp only [circuit, c] at this ⊢; rw [e, this]
  · have := h.valves; simp only [circuit, c] at this ⊢; rw [e]; exact this

/-- Everything the entry to STOPPING does (R10, R71). -/
theorem enterStopping_entersStopping (s : State) (st : Station) (cause : Option AbortCause) (drop : Bool) :
    s.EntersStopping (s.enterStopping st cause drop) st cause drop := by
  constructor
  case state => unfold enterStopping; dsimp only; (repeat' split) <;> simp [stateOf]
  case start => unfold enterStopping; dsimp only; (repeat' split) <;> simp [ctx, now]
  case step => unfold enterStopping; dsimp only; (repeat' split) <;> simp [ctx, leaveRunning_step]
  case test => unfold enterStopping; dsimp only; (repeat' split) <;> simp [ctx]
  case cause =>
    have : ((s.leaveRunning st).leakExit st).seq[st.val].record.map (fun _ => cause) = s.seq[st.val].record.map (fun _ => cause) := by
      apply map_const_of_map (f := Record.checks); simp
    unfold enterStopping; dsimp only; (repeat' split) <;> simp [ctx, Function.comp_def, this]
  case drive => unfold enterStopping; dsimp only; (repeat' split) <;> simp_all [stopDrive]
  case changed => unfold enterStopping; dsimp only; (repeat' split) <;> simp
  case others =>
    intro j hj
    exact ⟨by simp [hj.symm], by simp [hj.symm]⟩
  case line => constructor <;> simp
  case engineQueue => exact (s.enterStopping_noiseGivenUp st cause drop).queue
  case deferred => exact (s.enterStopping_noiseGivenUp st cause drop).deferred
  case engine => exact (s.enterStopping_noiseGivenUp st cause drop).engine
  case groups => exact (s.enterStopping_noiseGivenUp st cause drop).groups
  case supply =>
    intro hg hq
    have h := s.enterStopping_leakGivenUp st cause drop hg hq
    exact ⟨h.grant, h.queue, h.phase, h.valves⟩
  all_goals simp

theorem enterStopping_link (s : State) (st : Station) (drop : Bool) : (s.enterStopping st none drop).link = s.link := by
  unfold enterStopping; dsimp only; (repeat' split) <;> simp_all

@[simp] theorem settleRecipe_ctx_state (s : State) (j st : Station) (ref : RecipeRef) (v : Verdict) :
    (s.settleRecipe st ref v).seq[j.val].state = s.seq[j.val].state := by
  unfold settleRecipe; split
  · simp
  · simp; split <;> simp_all
@[simp] theorem settleRecipe_ctx_enabled (s : State) (j st : Station) (ref : RecipeRef) (v : Verdict) :
    (s.settleRecipe st ref v).seq[j.val].enabled = s.seq[j.val].enabled := by
  unfold settleRecipe; split
  · simp
  · simp; split <;> simp_all
@[simp] theorem settleRecipe_ctx_test (s : State) (j st : Station) (ref : RecipeRef) (v : Verdict) :
    (s.settleRecipe st ref v).seq[j.val].test = s.seq[j.val].test := by
  unfold settleRecipe; split
  · simp
  · simp; split <;> simp_all
@[simp] theorem settleRecipe_ctx_step (s : State) (j st : Station) (ref : RecipeRef) (v : Verdict) :
    (s.settleRecipe st ref v).seq[j.val].step = s.seq[j.val].step := by
  unfold settleRecipe; split
  · simp
  · simp; split <;> simp_all
@[simp] theorem settleRecipe_ctx_stopStart (s : State) (j st : Station) (ref : RecipeRef) (v : Verdict) :
    (s.settleRecipe st ref v).seq[j.val].stopStart = s.seq[j.val].stopStart := by
  unfold settleRecipe; split
  · simp
  · simp; split <;> simp_all
@[simp] theorem settleRecipe_ctx_record (s : State) (j st : Station) (ref : RecipeRef) (v : Verdict) :
    (s.settleRecipe st ref v).seq[j.val].record = s.seq[j.val].record := by
  unfold settleRecipe; split
  · simp
  · simp; split <;> simp_all
/-- The circuit's close counts nothing for a station. -/
theorem leakClose_live_stations (s : State) (st : Station) :
    (s.leakClose st).counters.live.stations = s.counters.live.stations := by
  unfold leakClose; split <;> simp [decideLeak, LeakResult.stopped]

/-- Nor does the exit from RUNNING. -/
theorem leaveRunning_live_stations (s : State) (st : Station) :
    (s.leaveRunning st).counters.live.stations = s.counters.live.stations := by
  unfold leaveRunning noiseExit; dsimp only; (repeat' split) <;> simp

/-- The offer of a closed record to the store (R13, R166, R167). -/
theorem offerRecord_offers (s : State) (st : Station) (c : TestCtx) (r : Record) (hs : s.stateOf st = .completing)
    (hc : (s.ctx st).test = some c) (hr : (s.ctx st).record = some r) (hv : r.verdict = some r.compose) :
    s.OffersRecord (s.offerRecord st) st c r := by
  constructor
  · intro n hn hl hd
    have e : s.offerRecord st = s.depositStation st := by unfold offerRecord; rw [if_pos ⟨hl, hd, by simp [hn]⟩]
    rw [e]
    have hv' : r.verdict.getD .pass = r.compose := by rw [hv]; rfl
    have others : s.OthersKept (s.depositStation st) st := fun j hj => ⟨by simp [hj.symm], by simp⟩
    unfold depositStation at others ⊢
    simp only [hn, hr, hc, hv'] at others ⊢
    refine ⟨?_, by simp [settleRecipe]; split <;> simp [hd]⟩
    constructor
    case others => exact others
    case counted => simp only [countVerdict, giveNotice_counters_live_stations]; simp; cases r.compose <;> rfl
    case entry =>
      intro i w e he hw
      have hw' : s.table[i.val][w.val] = some e := hw
      simp [he, settleRecipe, modEntry, hw', satAdd]
    case slot => intro he; simp [he, settleRecipe]
    case test => simp; exact ⟨c, hc, by simp⟩
    case state => simp [stateOf]
    all_goals simp [numberAfter]
  · intro h
    have e : s.offerRecord st = { s with store := { s.store with deposit := s.store.deposit ++ [st] } } := by
      unfold offerRecord; rw [if_neg]; rintro ⟨h1, h2, h3⟩
      rcases h with h | h | h
      · simp [h] at h3
      · omega
      · exact h h2
    rw [e]
    exact ⟨rfl, hs, hr, hc, rfl, rfl, rfl⟩

/-- The record of a station that enters COMPLETING is closed: its lists may have grown, its heading takes the end time and the
verdict composed from the lists (R162). -/
theorem enterCompleting_record (s : State) (st : Station) (r : Record) (h : s.seq[st.val].record = some r) :
    ∃ k : Record, (s.enterCompleting st).seq[st.val].record = some k
      ∧ k.heading = { r.heading with endTime := some s.now, verdict := some k.compose } := by
  have hh : ((s.leakClose st).seq[st.val].record).map Record.heading = some r.heading := by simp [h]
  cases hx : (s.leakClose st).seq[st.val].record with
  | none => simp [hx] at hh
  | some x =>
    simp only [hx, Option.map_some, Option.some.injEq] at hh
    refine ⟨{ x with endTime := some s.now, verdict := some x.compose }, ?_, ?_⟩
    · simp [enterCompleting, closeRecord, hx, now]
    · rw [← hh]; rfl

/-- An offer seen from before a change that leaves the store, the recipes, the station counters and the other stations. -/
theorem OffersRecord.before {s t u : State} {st : Station} {c : TestCtx} {r : Record} (store : t.store = s.store)
    (table : t.table = s.table) (slot : t.seq[st.val].privateSlot = s.seq[st.val].privateSlot)
    (stations : t.counters.live.stations = s.counters.live.stations) (others : s.OthersKept t st)
    (h : t.OffersRecord u st c r) : s.OffersRecord u st c r := by
  refine ⟨fun n hn hl hd => ?_, fun hw => ?_⟩
  · obtain ⟨k, e⟩ := h.taken n (by rw [store]; exact hn) (by rw [store]; exact hl) (by rw [store]; exact hd)
    refine ⟨?_, e⟩
    constructor
    case records => simpa only [store] using k.records
    case counted => simpa only [stations] using k.counted
    case entry => simpa only [table] using k.entry
    case slot => simpa only [table] using k.slot
    case others => exact fun j hj => ⟨(k.others j hj).1.trans (others j hj).1, (k.others j hj).2.trans (others j hj).2⟩
    case next => exact k.next
    case state => exact k.state
    case record => exact k.record
    case test => exact k.test
    case changed => exact k.changed
  · obtain ⟨h1, h2, h3, h4, h5, h6, h7⟩ := h.waits (by rw [store]; exact hw)
    exact ⟨by rw [h1, store], h2, h3, h4, by rw [h5]; exact slot, by rw [h6, table], by rw [h7, stations]⟩

/-- Entry to COMPLETING with the offer of the record (R12, R166): the station is COMPLETING, or DONE at once. -/
theorem complete_entersCompleting (s : State) (st : Station) :
    s.EntersCompleting ((s.enterCompleting st).offerRecord st) st := by
  constructor
  case state =>
    unfold offerRecord; split
    · unfold depositStation; split
      · right
        simp [stateOf]
      · left; unfold enterCompleting; simp [stateOf]
    · left; unfold enterCompleting; simp [stateOf]
  case step =>
    unfold offerRecord; split
    · unfold depositStation; split
      · simp [ctx, enterCompleting]
      · unfold enterCompleting; simp [ctx]
    · unfold enterCompleting; simp [ctx]
  case drive => unfold enterCompleting; simp
  case changed =>
    unfold offerRecord; split
    · unfold depositStation; split
      · simp
      · unfold enterCompleting; simp
    · unfold enterCompleting; simp
  case others =>
    intro j hj
    exact ⟨by simp [hj.symm], by simp [hj.symm]⟩
  case line => constructor <;> simp
  case filed =>
    intro c r hc hr
    obtain ⟨k, hk, hh⟩ := s.enterCompleting_record st r hr
    refine ⟨k, hh, ((s.enterCompleting st).offerRecord_offers st c k ?_ ?_ hk (congrArg Record.verdict hh)).before ?_ ?_ ?_ ?_ ?_⟩
    · simp [stateOf, enterCompleting]
    · simpa [enterCompleting, closeRecord] using hc
    · simp
    · simp
    · simp [enterCompleting, closeRecord]
    · simpa [enterCompleting, closeRecord] using s.leakClose_live_stations st
    · intro j hj; exact ⟨by simp [hj.symm], by simp [hj.symm]⟩
  all_goals simp

/-! ### Thresholds (R84) -/

/-- The effective thresholds of a quantity are the ones R84's table gives. -/
theorem effectiveOf_resolved (s : State) (r : Recipe) (q : StQuantity) :
    effectiveOf s.mon.globals r.overrides q = s.resolvedThresholds r q := by
  unfold effectiveOf resolvedThresholds
  cases h : r.overrides.find? (fun o => o.quantity == q) with
  | none => simp
  | some o =>
    simp only [Thresholds.resolve]
    obtain ⟨_, a, b, c, d⟩ := o
    cases a <;> cases b <;> cases c <;> cases d <;> simp [Int.min_comm, Int.max_comm]

/-- The same of the six together. -/
theorem effective_resolved (s : State) (r : Recipe) (q : StQuantity) :
    (effective s.mon.globals r.overrides)[q.idx.val] = s.resolvedThresholds r q := by
  rw [← effectiveOf_resolved]; cases q <;> rfl

/-! ### Steps -/

theorem recipe_of_test {s t : State} {st : Station} (h : t.seq[st.val].test = s.seq[st.val].test) :
    t.recipe st = s.recipe st := by simp only [recipe, ctx, Fin.getElem_fin, h]

theorem finishStep_eq (s : State) (st : Station) (o : StepOutcome) (c : Option StepCause) (x : StepCtx)
    (h : (s.ctx st).step = some x) : s.finishStep st o c =
      (s.addStepEntry st ⟨x.index, x.spec.kind, o, c⟩).modCtx st (fun c => { c with step := none }) := by
  unfold finishStep; rw [h]

theorem endStep_eq (s : State) (st : Station) (o : StepOutcome) (x : StepCtx) (h : (s.ctx st).step = some x) :
    s.endStep st o = (s.finishStep st o none).nextStep st x.index := by
  unfold endStep; rw [h]

theorem nextStep_begins (s : State) (st : Station) (i : Nat) (spec : StepSpec) (h : s.nextIs st i spec) :
    s.nextStep st i = s.beginStep st (i + 1) spec := by
  unfold nextStep; rw [h]

/-- A step that begins is in progress in its first phase; the state and the record's steps stay (R52). -/
theorem beginStep_step (s : State) (st : Station) (i : Nat) (spec : StepSpec) :
    ∃ x, (s.beginStep st i spec).seq[st.val].step = some x ∧ x.index = i ∧ x.spec = spec ∧ x.start = s.now
      ∧ x.phase = firstPhase spec := by
  have key : ∀ t : State, t.seq[st.val].step.map StepCtx.index = some i → t.seq[st.val].step.map StepCtx.spec = some spec →
      t.seq[st.val].step.map StepCtx.start = some s.now → t.seq[st.val].step.map StepCtx.phase = some (firstPhase spec) →
      ∃ x, t.seq[st.val].step = some x ∧ x.index = i ∧ x.spec = spec ∧ x.start = s.now ∧ x.phase = firstPhase spec := by
    intro t h1 h2 h3 h4
    cases hx : t.seq[st.val].step with
    | none => simp [hx] at h1
    | some x => simp [hx] at h1 h2 h3 h4; exact ⟨x, rfl, h1, h2, h3, h4⟩
  apply key <;> (unfold beginStep; dsimp only; split <;> simp)

@[simp] theorem beginStep_ctx_state (s : State) (j st : Station) (i : Nat) (spec : StepSpec) :
    (s.beginStep st i spec).seq[j.val].state = s.seq[j.val].state := by
  unfold beginStep; dsimp only; split <;> simp <;> split <;> simp_all

@[simp] theorem beginStep_ctx_test (s : State) (j st : Station) (i : Nat) (spec : StepSpec) :
    (s.beginStep st i spec).seq[j.val].test = s.seq[j.val].test := by
  unfold beginStep; dsimp only; split <;> simp <;> split <;> simp_all

@[simp] theorem beginStep_record_steps (s : State) (j st : Station) (i : Nat) (spec : StepSpec) :
    (s.beginStep st i spec).seq[j.val].record.map Record.steps = s.seq[j.val].record.map Record.steps := by
  unfold beginStep; dsimp only; split <;> simp <;> split <;> simp_all

@[simp] theorem beginStep_record_leaks (s : State) (j st : Station) (i : Nat) (spec : StepSpec) :
    (s.beginStep st i spec).seq[j.val].record.map Record.leaks = s.seq[j.val].record.map Record.leaks := by
  unfold beginStep; dsimp only; split <;> simp <;> split <;> simp_all

@[simp] theorem beginStep_record_checks (s : State) (j st : Station) (i : Nat) (spec : StepSpec) :
    (s.beginStep st i spec).seq[j.val].record.map Record.checks = s.seq[j.val].record.map Record.checks := by
  unfold beginStep; dsimp only; split <;> simp <;> split <;> simp_all

/-- What the beginning of a step gives its drive (R56, R59). -/
theorem beginStep_drive (s : State) (st : Station) (i : Nat) (spec : StepSpec) :
    (s.beginStep st i spec).drive[st.val] = s.drive[st.val].begun spec := by
  unfold beginStep; dsimp only; split <;> simp [Drive.begun, Int.mul_comm]

/-- The start of a LEAK step (R124). -/
theorem beginStep_leak (s : State) (st : Station) (i : Nat) :
    (s.beginStep st i .leak).circuit st = LeakCircuit.begun i s.now := by
  simp [beginStep, beginLeak, circuit, LeakCircuit.begun, LeakCircuit.enter, LeakCircuit.rest, LeakPhase.fillOpen,
    LeakPhase.ventOpen, now]

/-- A step that ends, with a next one in the chain: its entry is appended and the next begins (R52, R53). -/
theorem endStep_stepsOn (s : State) (st : Station) (o : StepOutcome) (x : StepCtx) (spec : StepSpec)
    (hr : s.stateOf st = .running) (hx : (s.ctx st).step = some x) (hn : s.nextIs st x.index spec) :
    s.StepsOn (s.endStep st o) st ⟨x.index, x.spec.kind, o, none⟩ spec := by
  rw [endStep_eq _ _ _ _ hx]
  have hn' : (s.finishStep st o none).nextIs st x.index spec := by
    unfold nextIs at *; rw [recipe_of_test (s := s)]; exact hn; simp
  rw [nextStep_begins _ _ _ _ hn']
  constructor
  case state => simpa [stateOf] using hr
  case steps =>
    rw [finishStep_eq _ _ _ _ _ hx]; simp [stepEntries, ctx, Function.comp_def]
  case next =>
    obtain ⟨y, h1, h2, h3, h4, h5⟩ := beginStep_step (s.finishStep st o none) st (x.index + 1) spec
    exact ⟨y, h1, h2, h3, h4.trans (by simp [now]), h5⟩
  case drive => simpa using beginStep_drive (s.finishStep st o none) st (x.index + 1) spec
  case leak => rintro rfl; simpa [now] using beginStep_leak (s.finishStep st o none) st (x.index + 1)
  case others => intro j hj; exact ⟨by simp [hj.symm], by simp [hj.symm]⟩
  case line => constructor <;> simp
  all_goals simp

/-! ### What the operations within a test keep -/

/-- A change within the test of station `st`: the line, the Monitor, the store, the recipes, the drives and the other
stations are as they were, and of its own context only the step and the record's lists can differ. -/
structure Quiet (s t : State) (st : Station) : Prop where
  clock : t.clock = s.clock
  pins : t.pins = s.pins
  config : t.config = s.config
  enc : t.enc = s.enc
  cond : t.cond = s.cond
  mon : t.mon = s.mon
  store : t.store = s.store
  table : t.table = s.table
  drive : t.drive = s.drive
  pending : t.pending = s.pending
  others : ∀ j : Station, j ≠ st → t.seq[j.val] = s.seq[j.val]
  state : t.seq[st.val].state = s.seq[st.val].state
  enabled : t.seq[st.val].enabled = s.seq[st.val].enabled
  test : t.seq[st.val].test = s.seq[st.val].test
  stopStart : t.seq[st.val].stopStart = s.seq[st.val].stopStart
  privateSlot : t.seq[st.val].privateSlot = s.seq[st.val].privateSlot
  cause : t.seq[st.val].record.map Record.cause = s.seq[st.val].record.map Record.cause
  heading : t.seq[st.val].record.map Record.heading = s.seq[st.val].record.map Record.heading

theorem Quiet.refl (s : State) (st : Station) : s.Quiet s st :=
  ⟨rfl, rfl, rfl, rfl, rfl, rfl, rfl, rfl, rfl, rfl, fun _ _ => rfl, rfl, rfl, rfl, rfl, rfl, rfl, rfl⟩

theorem Quiet.trans {s t u : State} {st : Station} (h : s.Quiet t st) (k : t.Quiet u st) : s.Quiet u st :=
  ⟨k.clock.trans h.clock, k.pins.trans h.pins, k.config.trans h.config, k.enc.trans h.enc, k.cond.trans h.cond,
    k.mon.trans h.mon, k.store.trans h.store, k.table.trans h.table, k.drive.trans h.drive, k.pending.trans h.pending,
    fun j hj => (k.others j hj).trans (h.others j hj), k.state.trans h.state, k.enabled.trans h.enabled,
    k.test.trans h.test, k.stopStart.trans h.stopStart, k.privateSlot.trans h.privateSlot, k.cause.trans h.cause,
    k.heading.trans h.heading⟩

theorem finishStep_quiet (s : State) (st : Station) (o : StepOutcome) (c : Option StepCause) : s.Quiet (s.finishStep st o c) st := by
  constructor
  case others => intro j hj; simp [hj.symm]
  case cause => simp
  all_goals simp
theorem unmeasured_quiet (s : State) (st : Station) (g : Nat) : s.Quiet (s.unmeasured st g) st := by
  constructor
  case others => intro j hj; simp [hj.symm]
  case cause => simp
  all_goals simp
theorem windowEnd_quiet (s : State) (st : Station) (g i : Nat) : s.Quiet (s.windowEnd st g i) st := by
  constructor
  case others => intro j hj; simp [hj.symm]
  case cause => simp
  all_goals simp
theorem decideLeak_quiet (s : State) (st : Station) (r : LeakResult) : s.Quiet (s.decideLeak st r) st := by
  constructor
  case others => intro j hj; simp [hj.symm]
  case cause => simp
  all_goals simp
theorem remark_quiet (s : State) (st : Station) (m : Remark) : s.Quiet (s.remark st m) st := by
  constructor
  case others => intro j hj; simp [hj.symm]
  case cause => simp [Function.comp_def]
  case heading => simp [Function.comp_def]
  all_goals simp
theorem leaveRunning_quiet (s : State) (st : Station) : s.Quiet (s.leaveRunning st ) st := by
  constructor
  case others => intro j hj; simp [hj.symm]
  case cause => simp
  all_goals simp
theorem leakExit_quiet (s : State) (st : Station) : s.Quiet (s.leakExit st ) st := by
  constructor
  case others => intro j hj; simp [hj.symm]
  case cause => simp
  all_goals simp
theorem addCheckResult_quiet (s : State) (st : Station) (k : CheckResult) : s.Quiet (s.addCheckResult st k) st := by
  constructor
  case others => intro j hj; simp [hj.symm]
  case cause => simp [Function.comp_def]
  case heading => simp [Function.comp_def]
  all_goals simp
theorem modStep_quiet (s : State) (st : Station) (f : StepCtx → StepCtx) : s.Quiet (s.modStep st f) st := by
  constructor
  case others => intro j hj; simp [hj.symm]
  case cause => simp
  all_goals simp

theorem Quiet.othersKept {s t : State} {st : Station} (h : s.Quiet t st) : s.OthersKept t st :=
  fun j hj => ⟨h.others j hj, by rw [h.drive]⟩

theorem Quiet.sameLine {s t : State} {st : Station} (h : s.Quiet t st) : s.SameLine t :=
  ⟨h.clock, h.pins, h.config, h.enc, h.cond⟩

theorem SameLine.trans {s t u : State} (h : s.SameLine t) (k : t.SameLine u) : s.SameLine u :=
  ⟨k.clock.trans h.clock, k.pins.trans h.pins, k.config.trans h.config, k.enc.trans h.enc, k.cond.trans h.cond⟩

/-- The entry to STOPPING seen from before a change within the test that leaves the leak circuits, and after which the station
gains no engine and loses one only for good. -/
theorem EntersStopping.after {s t u : State} {st : Station} {c : Option AbortCause} {d : Bool} (q : s.Quiet t st)
    (leak : t.leak = s.leak) (held : ∀ e, s.heldEngine st = some e → t.heldEngine st = some e ∨ (u.engine e).holder ≠ some st)
    (h : t.EntersStopping u st c d) : s.EntersStopping u st c d where
  state := h.state
  start := h.start.trans (by simp only [now]; rw [q.clock])
  step := h.step
  test := h.test.trans (by simp only [ctx, Fin.getElem_fin]; rw [q.test])
  cause := h.cause.trans (map_const_of_map q.cause _)
  drive := h.drive.trans (by rw [q.drive, q.config])
  changed := h.changed
  others := q.othersKept.trans h.others
  line := q.sameLine.trans h.line
  store := h.store.trans q.store
  table := h.table.trans q.table
  monitor := h.monitor.trans q.mon
  engineQueue := h.engineQueue
  deferred := h.deferred
  engine := fun e he hu => (held e he).elim (fun ht => h.engine e ht hu) (fun hn => absurd hu hn)
  groups := h.groups
  supply := by simpa only [circuit, leak] using h.supply

/-- The entry to COMPLETING seen from before a change within the test that counts nothing for a station. -/
theorem EntersCompleting.after {s t u : State} {st : Station} (q : s.Quiet t st)
    (live : t.counters.live.stations = s.counters.live.stations) (h : t.EntersCompleting u st) : s.EntersCompleting u st where
  state := h.state
  step := h.step
  drive := h.drive
  changed := h.changed
  others := q.othersKept.trans h.others
  line := q.sameLine.trans h.line
  monitor := h.monitor.trans q.mon
  filed := by
    intro c r hc hr
    have hh : t.seq[st.val].record.map Record.heading = some r.heading := by rw [q.heading]; simp only [ctx, Fin.getElem_fin] at hr; rw [hr]; rfl
    cases hx : t.seq[st.val].record with
    | none => simp [hx] at hh
    | some x =>
      simp only [hx, Option.map_some, Option.some.injEq] at hh
      obtain ⟨k, hk, ho⟩ := h.filed c x (by simp only [ctx, Fin.getElem_fin] at hc ⊢; rw [q.test]; exact hc) hx
      exact ⟨k, by rw [hk, hh]; simp only [now]; rw [q.clock],
        ho.before q.store q.table q.privateSlot live q.othersKept⟩

theorem closeStep_none {s : State} {st : Station} (h : s.seq[st.val].step = none) : s.closeStep st = s := by
  unfold closeStep
  simp only [ctx, Fin.getElem_fin, h]

theorem leaveRunning_record_steps {s : State} {st : Station} (h : s.seq[st.val].step = none) :
    (s.leaveRunning st).seq[st.val].record.map Record.steps = s.seq[st.val].record.map Record.steps := by
  unfold leaveRunning; rw [closeStep_none h]; simp

/-- With no step in progress the entry to STOPPING leaves the record's step outcomes. -/
theorem enterStopping_record_steps {s : State} {st : Station} (h : s.seq[st.val].step = none) (c : Option AbortCause)
    (d : Bool) : (s.enterStopping st c d).seq[st.val].record.map Record.steps = s.seq[st.val].record.map Record.steps := by
  rw [← leaveRunning_record_steps h]
  unfold enterStopping; dsimp only
  (repeat' split) <;> simp [Function.comp_def]

theorem enterStopping_record_checks (s : State) (st : Station) (c : Option AbortCause)
    (d : Bool) : (s.enterStopping st c d).seq[st.val].record.map Record.checks = s.seq[st.val].record.map Record.checks := by
  unfold enterStopping; dsimp only
  (repeat' split) <;> simp [Function.comp_def]

theorem finishStep_step (s : State) (st : Station) (o : StepOutcome) (c : Option StepCause) :
    (s.finishStep st o c).seq[st.val].step = none := by
  unfold finishStep; split
  · assumption
  · simp

/-! ### The link aside -/

/-- The entry to STOPPING does not look at the link. -/
theorem EntersStopping.link {s t u : State} {st c d} (h : s.EntersStopping t st c d) (hu : { t with link := u.link } = u) :
    s.EntersStopping u st c d := by
  rw [← hu]; exact ⟨h.state, h.start, h.step, h.test, h.cause, h.drive, h.changed, h.others, ⟨h.line.clock, h.line.pins, h.line.config, h.line.enc, h.line.cond⟩, h.store, h.table, h.monitor,
    h.engineQueue, h.deferred, h.engine, h.groups, h.supply⟩
/-- The end of an event changes the link alone. -/
theorem afterNotices_only_link (s t : State) : { t with link := (s.afterNotices t).link } = s.afterNotices t := by
  unfold afterNotices; split <;> rfl
/-- A reply changes the link alone. -/
theorem replies_only_link (s : State) (a b) (c) : { s with link := (s.replies a b c).link } = s.replies a b c := rfl
/-- The offer of a record does not look at the link. -/
theorem OffersRecord.link {s t u : State} {st c r} (h : s.OffersRecord t st c r) (hu : { t with link := u.link } = u) :
    s.OffersRecord u st c r := by
  rw [← hu]
  refine ⟨fun n hn hl hd => ?_, h.waits⟩
  obtain ⟨a, b⟩ := h.taken n hn hl hd
  exact ⟨⟨a.records, a.next, a.state, a.record, a.test, a.changed, a.counted, a.entry, a.slot, a.others⟩, b⟩
/-- The entry to COMPLETING does not look at the link. -/
theorem EntersCompleting.link {s t u : State} {st} (h : s.EntersCompleting t st) (hu : { t with link := u.link } = u) :
    s.EntersCompleting u st := by
  rw [← hu]; exact ⟨h.state, h.step, h.drive, h.changed, h.others, ⟨h.line.clock, h.line.pins, h.line.config, h.line.enc, h.line.cond⟩, h.monitor,
    fun c r hc hr => (h.filed c r hc hr).imp fun _ hk => ⟨hk.1, hk.2.link rfl⟩⟩
/-- The beginning of the next step does not look at the link. -/
theorem StepsOn.link {s t u : State} {st e sp} (h : s.StepsOn t st e sp) (hu : { t with link := u.link } = u) :
    s.StepsOn u st e sp := by
  rw [← hu]; exact ⟨h.state, h.steps, h.next, h.drive, h.leak, h.others, ⟨h.line.clock, h.line.pins, h.line.config, h.line.enc, h.line.cond⟩, h.store, h.monitor⟩
/-- Seen from before a change within the test that leaves the record's steps. -/
theorem StepsOn.after {s t u : State} {st e sp} (q : s.Quiet t st) (hs : t.stepEntries st = s.stepEntries st) (h : t.StepsOn u st e sp) :
    s.StepsOn u st e sp :=
  ⟨h.state, h.steps.trans (by rw [hs]), by
    obtain ⟨x, h1, h2, h3, h4, h5⟩ := h.next
    exact ⟨x, h1, h2, h3, h4.trans (by simp only [now]; rw [q.clock]), h5⟩,
    h.drive.trans (by rw [q.drive]), fun hl => (h.leak hl).trans (by simp only [now]; rw [q.clock]), q.othersKept.trans h.others, q.sameLine.trans h.line, h.store.trans q.store, h.monitor.trans q.mon⟩

end State
end Sys2Proof.Machine
end

