-- ==== Sys2Proof/Laws/Notices.lean ====
section
/-! SUPPORT. The notices: what leaves NOTICES_LOST as it was, what the entries to STOPPING and COMPLETING and a deposit give
(R5, R8, R13, R15, R195), and how notices given to a queue with room join it (R194). -/

namespace Sys2Proof.Machine

open Sys2Proof

set_option Elab.async false

namespace State

variable (s : State)

/-! ### What gives no notice -/

@[simp] theorem modStep_noticesLost (st : Station) (f : StepCtx → StepCtx) :
    (s.modStep st f).counters.live.globals.noticesLost = s.counters.live.globals.noticesLost := rfl
@[simp] theorem examineSupply_noticesLost :
    s.examineSupply.counters.live.globals.noticesLost = s.counters.live.globals.noticesLost := by
  unfold examineSupply; split <;> rfl
@[simp] theorem releaseGrant_noticesLost (st : Station) :
    (s.releaseGrant st).counters.live.globals.noticesLost = s.counters.live.globals.noticesLost := by
  unfold releaseGrant; split <;> simp
@[simp] theorem leaveSupplyQueue_noticesLost (st : Station) :
    (s.leaveSupplyQueue st).counters.live.globals.noticesLost = s.counters.live.globals.noticesLost := by
  unfold leaveSupplyQueue; split <;> simp
@[simp] theorem ventAfter_noticesLost (st : Station) :
    (s.ventAfter st).counters.live.globals.noticesLost = s.counters.live.globals.noticesLost := by
  unfold ventAfter; simp [enterPhase]
@[simp] theorem leakExit_noticesLost (st : Station) :
    (s.leakExit st).counters.live.globals.noticesLost = s.counters.live.globals.noticesLost := by
  unfold leakExit; dsimp only; split <;> simp [leakRest]
@[simp] theorem leakClose_noticesLost (st : Station) :
    (s.leakClose st).counters.live.globals.noticesLost = s.counters.live.globals.noticesLost := by
  unfold leakClose; split <;> simp [leakRest]
@[simp] theorem grantEngine_noticesLost (e : EngineId) (st : Station) (g : Nat) :
    (s.grantEngine e st g).counters.live.globals.noticesLost = s.counters.live.globals.noticesLost := by
  simp
@[simp] theorem leaveRunning_noticesLost (st : Station) :
    (s.leaveRunning st).counters.live.globals.noticesLost = s.counters.live.globals.noticesLost := by
  simp
@[simp] theorem enterCompleting_noticesLost (st : Station) :
    (s.enterCompleting st).counters.live.globals.noticesLost = s.counters.live.globals.noticesLost := by
  unfold enterCompleting closeRecord; simp

/-! ### What is given -/

/-- The same notices given so far: the same link, and the same NOTICES_LOST. -/
def SameNotices (s t : State) : Prop :=
  t.link = s.link ∧ t.counters.live.globals.noticesLost = s.counters.live.globals.noticesLost

/-- A notice does to the link and NOTICES_LOST what it does, whatever else the state holds. -/
theorem SameNotices.giveNotice {s t : State} (h : s.SameNotices t) (b : NoticeBody) :
    (s.giveNotice b).SameNotices (t.giveNotice b) := by
  obtain ⟨h1, h2⟩ := h
  unfold State.giveNotice
  rw [h1]
  split
  · exact ⟨by simp [h1], by simpa using h2⟩
  · exact ⟨by simp [h1], by simp [h2]⟩

theorem SameNotices.give {s t : State} (h : s.SameNotices t) (bs : List NoticeBody) :
    (bs.foldl State.giveNotice s).SameNotices (bs.foldl State.giveNotice t) := by
  induction bs generalizing s t with
  | nil => exact h
  | cons b bs ih => exact ih (h.giveNotice b)

theorem SameNotices.trans {s t u : State} (h : s.SameNotices t) (k : t.SameNotices u) : s.SameNotices u :=
  ⟨k.1.trans h.1, k.2.trans h.2⟩

/-- An event that gave these notices. -/
theorem SameNotices.gives {s t : State} {bs : List NoticeBody} (h : (bs.foldl State.giveNotice s).SameNotices t) :
    s.GivesNotices (s.afterNotices t) bs := by
  obtain ⟨h1, h2⟩ := h
  refine ⟨?_, ?_⟩
  · dsimp only [afterNotices]; rw [h1]; split <;> simp [modLink, h1]
  · simpa using h2

/-- A request that gave these notices before its reply. -/
theorem SameNotices.answers {s t : State} {bs : List NoticeBody} (h : (bs.foldl State.giveNotice s.received).SameNotices t)
    (kind tag : Byte) (payload : List Byte) : s.AnswersWithNotices (t.replies kind tag payload) bs kind tag payload := by
  obtain ⟨h1, h2⟩ := h
  exact ⟨by simp [replies, modLink, h1], by simpa using h2⟩

/-- The entry to STOPPING gives its NST when there is a cause, and nothing without one (R5, R8). -/
theorem enterStopping_notices (st : Station) (cause : Option AbortCause) (drop : Bool) :
    ((if cause.isSome then [NoticeBody.nst st .stopping cause none] else []).foldl State.giveNotice s).SameNotices
      (s.enterStopping st cause drop) := by
  obtain ⟨w, hw, hs⟩ : ∃ w : State, s.enterStopping st cause drop =
      (if cause.isSome then w.giveNotice (.nst st .stopping cause none) else w) ∧ s.SameNotices w := by
    refine ⟨_, rfl, ?_⟩
    split <;> exact ⟨by simp, by simp⟩
  rw [hw]
  split
  · exact hs.giveNotice _
  · exact hs

/-- A deposit gives the NST of DONE, with the cause, the verdict and the number (R13). -/
theorem depositStation_notices (st : Station) (n : Nat) (r : Record) (c : TestCtx) (hn : s.store.next = some n)
    (hr : (s.ctx st).record = some r) (hc : (s.ctx st).test = some c) :
    (s.giveNotice (.nst st .done c.cause (some (r.verdict.getD .pass, n)))).SameNotices (s.depositStation st) := by
  unfold depositStation
  simp only [hn, hr, hc]
  apply SameNotices.giveNotice
  exact ⟨by simp, by simp⟩

/-! ### Notices that find room (R194) -/

/-- Notices given to a queue with room for them join its tail in order, the first with the LOST mark of an earlier drop. -/
theorem giveNotices_room (bs : List NoticeBody) (h : s.link.queue.length + bs.length ≤ 16) :
    bs.foldl State.giveNotice s = (match bs with
      | [] => s
      | b :: rest => s.modLink (fun l =>
          { l with queue := l.queue ++ ⟨l.lostPending, b⟩ :: rest.map (fun b => ⟨false, b⟩), lostPending := false })) := by
  have go : ∀ (rest : List NoticeBody) (t : State), t.link.queue.length + rest.length ≤ 16 → t.link.lostPending = false →
      rest.foldl State.giveNotice t =
        t.modLink (fun l => { l with queue := l.queue ++ rest.map (fun b => ⟨false, b⟩) }) := by
    intro rest
    induction rest with
    | nil => intro t _ hl; simp [modLink]
    | cons b rest ih =>
      intro t ht hl
      have hb : t.link.queue.length < 16 := by simp at ht; omega
      rw [List.foldl_cons, show t.giveNotice b = t.modLink (fun l =>
        { l with queue := l.queue ++ [⟨l.lostPending, b⟩], lostPending := false }) by unfold giveNotice; rw [if_pos hb]]
      rw [ih _ (by simp at ht ⊢; omega) rfl]
      simp [modLink, hl]
  cases bs with
  | nil => rfl
  | cons b rest =>
    have hb : s.link.queue.length < 16 := by simp at h; omega
    rw [List.foldl_cons, show s.giveNotice b = s.modLink (fun l =>
      { l with queue := l.queue ++ [⟨l.lostPending, b⟩], lostPending := false }) by unfold giveNotice; rw [if_pos hb]]
    rw [go rest _ (by simp at h ⊢; omega) rfl]
    simp [modLink]

end State
end Sys2Proof.Machine
end

