-- ==== Sys2Proof/Laws/Samples.lean ====
section
/-! SUPPORT. A monitor sample up to its latches: what is gathered, what the Monitor makes of it, and the sample that latches
nothing. -/

namespace Sys2Proof.Machine

open Sys2Proof

set_option Elab.async false

namespace State

/-- Everything but the Monitor is as it was. -/
structure OnlyMon (s t : State) : Prop where
  clock : t.clock = s.clock
  pins : t.pins = s.pins
  link : t.link = s.link
  config : t.config = s.config
  seq : t.seq = s.seq
  drive : t.drive = s.drive
  enc : t.enc = s.enc
  table : t.table = s.table
  noise : t.noise = s.noise
  leak : t.leak = s.leak
  cond : t.cond = s.cond
  store : t.store = s.store
  counters : t.counters = s.counters
  pending : t.pending = s.pending

/-- Gathering leaves what the Monitor holds of the quantities, the thresholds and the masks. -/
theorem gather_mon (s : State) (x : SensorInput) : (s.gather x).mon.stations = s.mon.stations ∧ (s.gather x).mon.supply = s.mon.supply ∧ (s.gather x).mon.globals = s.mon.globals ∧ (s.gather x).mon.masks = s.mon.masks := by
  cases x <;> simp only [gather, and_self]
  rename_i st now since
  generalize since ++ [now] = l
  induction l generalizing s with
  | nil => simp
  | cons a l ih => simp only [List.foldl_cons]; exact ih (s.seeAccel st a)

/-- So does beginning the gathering anew. -/
theorem afterGather_mon (s : State) (x : SensorInput) : (s.afterGather x).mon.stations = s.mon.stations ∧ (s.afterGather x).mon.supply = s.mon.supply ∧ (s.afterGather x).mon.globals = s.mon.globals ∧ (s.afterGather x).mon.masks = s.mon.masks := by
  cases x <;> simp only [afterGather, and_self]; exact ⟨rfl, rfl, rfl, rfl⟩

/-- The state with a sample's accelerometer readings gathered and the gathering begun anew. -/
def gathered (s : State) (x : SensorInput) : State := (s.gather x).afterGather x

theorem gathered_onlyMon (s : State) (x : SensorInput) : s.OnlyMon (s.gathered x) := by
  constructor <;> simp [gathered]
theorem gathered_mon (s : State) (x : SensorInput) : (s.gathered x).mon.stations = s.mon.stations ∧ (s.gathered x).mon.supply = s.mon.supply ∧ (s.gathered x).mon.globals = s.mon.globals ∧ (s.gathered x).mon.masks = s.mon.masks := by
  have h1 := gather_mon s x
  have h2 := afterGather_mon (s.gather x) x
  unfold gathered
  exact ⟨h2.1.trans h1.1, h2.2.1.trans h1.2.1, h2.2.2.1.trans h1.2.2.1, h2.2.2.2.trans h1.2.2.2⟩

/-- What the Monitor makes of a station sample. -/
def judgedQuantity (s : State) (x : SensorInput) (st : Station) (q : StQuantity) : QuantityMon :=
  (s.quantity st q).sample (((s.gather x).sampleValue x).map (Quantity.station q).clamp) (s.reference st q) (s.watched st q)

/-- A sample of a station quantity up to its latches: the quantity is judged, and what latches is handed on in order. -/
theorem takeSample_station (s : State) (x : SensorInput) (st : Station) (q : StQuantity) (hx : x.target = some (st, q)) :
    s.takeSample x = (newLatches (s.watched st q) (s.judgedQuantity x st q).current (s.quantity st q).latched).foldl
      (handOn st q (s.judgedQuantity x st q).held) ((s.gathered x).modQuantity st q (fun _ => s.judgedQuantity x st q)) := by
  have o := gathered_onlyMon s x
  have m := gathered_mon s x
  have e1 : (s.gathered x).quantity st q = s.quantity st q := by simp only [quantity, m.1]
  have e2 : (s.gathered x).reference st q = s.reference st q := by
    simp only [reference, ctx, Fin.getElem_fin, o.seq, m.2.2.1]
  have e3 : (s.gathered x).watched st q = s.watched st q := by
    simp only [watched, stateOf, circuit, o.seq, o.leak]
  unfold takeSample
  simp only [hx]
  change (s.gathered x).holdStation st q _ = _
  unfold holdStation
  simp only [e1, e2, e3]
  rfl

/-- A sample that latches nothing only changes the Monitor. -/
theorem takeSample_quiet (s : State) (x : SensorInput) (st : Station) (q : StQuantity) (hx : x.target = some (st, q))
    (hl : s.latchesNothing st q ((s.gather x).sampleValue x)) :
    s.takeSample x = (s.gathered x).modQuantity st q (fun _ => s.judgedQuantity x st q) := by
  rw [takeSample_station s x st q hx]
  have : newLatches (s.watched st q) (s.judgedQuantity x st q).current (s.quantity st q).latched = [] := hl
  rw [this]; rfl

end State

end Sys2Proof.Machine
end

