-- ==== Sys2Proof/Laws/Validation.lean ====
section
/-! SUPPORT. What validation accepts and refuses (R28 to R36): each reader of a record against what the record carries, the
stages of R33, the cross-checks of R34, and the whole of `validate`; and the revolution speed of R77 and R106. -/

namespace Sys2Proof.Machine

open Sys2Proof

/-! ### Fields -/

theorem within_eq_some {lo hi x y : Nat} : within lo hi x = some y ↔ x = y ∧ lo ≤ y ∧ y ≤ hi := by
  unfold within; split <;> simp <;> omega

theorem withinInt_eq_some {lo hi x y : Int} : withinInt lo hi x = some y ↔ x = y ∧ lo ≤ y ∧ y ≤ hi := by
  unfold withinInt; split <;> simp <;> omega

theorem yesNoOf_eq_some {b : Byte} {y : Bool} : yesNoOf b = some y ↔ b.toNat = if y then 1 else 0 := by
  unfold yesNoOf
  have h0 : b = 0 ↔ b.toNat = 0 := by rw [← BitVec.toNat_inj]; rfl
  have h1 : b = 1 ↔ b.toNat = 1 := by rw [← BitVec.toNat_inj]; rfl
  simp only [h0, h1]
  cases y <;> (repeat' split) <;> simp_all

theorem stQuantityOf_eq_some {b : Byte} {q : StQuantity} : stQuantityOf b = some q ↔ b.toNat = numberOf q := by
  unfold stQuantityOf
  split <;> cases q <;> simp_all [numberOf]

theorem valueOf_eq_some {q : StQuantity} {x : Word32} {y : Int} : valueOf q x = some y ↔ x.toInt = y ∧ Spans q y := by
  unfold valueOf; rw [withinInt_eq_some]; cases q <;> rfl

/-- A quantity's clamp is into its range (R76, R79). -/
theorem clamp_station (q : StQuantity) (x : Int) : (Quantity.station q).clamp x = max (spanOf q).1 (min (spanOf q).2 x) := by
  cases q <;> rfl

/-! ### Records -/

theorem rampOf_eq_some {p : List Byte} {x : StepSpec} (h : natAt p 0 = 1) : rampOf p = some x ↔ x.CarriedBy p := by
  unfold rampOf
  simp only [Option.bind_eq_bind, Option.bind_eq_some_iff, within_eq_some, withinInt_eq_some, Option.some.injEq]
  cases x <;> simp [StepSpec.CarriedBy, h]
  omega

theorem windowOf_eq_some {b : Byte} {w : Option Nat} :
    windowOf b = some w ↔ (match w with | none => b.toNat = 0xFF | some g => b.toNat = g ∧ g ≤ 3) := by
  unfold windowOf
  have h : b = 0xFF ↔ b.toNat = 255 := by rw [← BitVec.toNat_inj]; rfl
  cases w <;> simp only [h] <;> split <;> simp [within_eq_some] <;> omega

/-- A bind after a choice is the bind of either. -/
theorem ite_bind {α β : Type} (b : Prop) [Decidable b] (x y : Option α) (k : α → Option β) :
    (if b then x.bind k else y.bind k) = (if b then x else y).bind k := by split <;> rfl

theorem dwellOf_eq_some {p : List Byte} {x : StepSpec} (h : natAt p 0 = 2) : dwellOf p = some x ↔ x.CarriedBy p := by
  unfold dwellOf
  simp only [Option.bind_eq_bind, ite_bind, Option.bind_eq_some_iff, within_eq_some, windowOf_eq_some, yesNoOf_eq_some, Option.some.injEq]
  cases x with
  | dwell duration window extend ext =>
    simp only [StepSpec.CarriedBy, StepSpec.dwell.injEq, natAt]
    constructor
    · rintro ⟨d, h1, w, h2, e, h3, k, h4, rfl, rfl, rfl, rfl⟩
      refine ⟨h, h1.1, h1.2.1, h1.2.2, h2, h3, ?_⟩
      cases e
      · simpa using h4
      · simpa [within_eq_some] using h4
    · rintro ⟨-, h1, h2, h3, h4, h5, h6, h7⟩
      refine ⟨_, ⟨h1, h2, h3⟩, _, h4, _, h5, ext, ?_, rfl, rfl, rfl, rfl⟩
      cases extend
      · simpa using h6
      · simpa [within_eq_some] using ⟨h6, h7 rfl⟩
  | _ => simp [StepSpec.CarriedBy, h]

/-- The relation of a GATE record's byte. -/
def relationOf (n : Nat) : Option GateRelation := match n with | 0 => some .atLeast | 1 => some .atMost | _ => none

/-- The on-timeout action of a GATE record's byte. -/
def actionOf (n : Nat) : Option OnTimeout := match n with | 0 => some .fail | 1 => some .proceed | _ => none

/-- The mode of a CHECK record's byte. -/
def modeOf (n : Nat) : Option CheckMode := match n with | 0 => some .within | 1 => some .atLeast | 2 => some .atMost | _ => none

/-- The flank of a group record's byte. -/
def flankOf (n : Nat) : Option Flank := match n with | 0 => some .drive | 1 => some .coast | _ => none

theorem relationOf_eq_some {n : Nat} {r : GateRelation} :
    relationOf n = some r ↔ n = (match r with | .atLeast => 0 | .atMost => 1) := by
  unfold relationOf; cases r <;> split <;> simp_all

theorem actionOf_eq_some {n : Nat} {r : OnTimeout} :
    actionOf n = some r ↔ n = (match r with | .fail => 0 | .proceed => 1) := by
  unfold actionOf; cases r <;> split <;> simp_all

theorem modeOf_eq_some {n : Nat} {r : CheckMode} :
    modeOf n = some r ↔ n = (match r with | .within => 0 | .atLeast => 1 | .atMost => 2) := by
  unfold modeOf; cases r <;> split <;> simp_all

theorem flankOf_eq_some {n : Nat} {r : Flank} : flankOf n = some r ↔ n = (match r with | .drive => 0 | .coast => 1) := by
  unfold flankOf; cases r <;> split <;> simp_all

theorem gateOf_eq (p : List Byte) : gateOf p = (stQuantityOf (byteAt p 1)).bind fun q => if q = .vib then none else
    (relationOf (natAt p 2)).bind fun rel => (valueOf q (u32At p 3)).bind fun value =>
    (within 0 60000 (nat16At p 7)).bind fun hold => (within 100 3600000 (nat32At p 9)).bind fun timeout =>
    (actionOf (natAt p 13)).bind fun action => some (.gate q rel value hold timeout action) := by
  unfold gateOf
  generalize natAt p 2 = m; generalize natAt p 13 = n
  rcases m with _ | _ | m <;> rcases n with _ | _ | n <;> rfl

theorem gateOf_eq_some {p : List Byte} {x : StepSpec} (h : natAt p 0 = 3) : gateOf p = some x ↔ x.CarriedBy p := by
  rw [gateOf_eq]
  simp only [Option.bind_eq_some_iff, Option.ite_none_left_eq_some, within_eq_some, stQuantityOf_eq_some, valueOf_eq_some,
    relationOf_eq_some, actionOf_eq_some, Option.some.injEq]
  cases x with
  | gate q r v hold timeout a =>
    simp only [StepSpec.CarriedBy, StepSpec.gate.injEq, natAt]
    constructor
    · rintro ⟨_, h1, h2, _, h3, _, h4, _, h5, _, h6, _, h7, rfl, rfl, rfl, rfl, rfl, rfl⟩
      exact ⟨h, h1, h2, h3, h4.1, h4.2, h5.1, h5.2.2, h6.1, h6.2.1, h6.2.2, h7⟩
    · rintro ⟨-, h1, h2, h3, h4, h4', h5, h5', h6, h6', h6'', h7⟩
      exact ⟨_, h1, h2, _, h3, _, ⟨h4, h4'⟩, _, ⟨h5, Nat.zero_le _, h5'⟩, _, ⟨h6, h6', h6''⟩, _, h7, rfl, rfl, rfl, rfl, rfl, rfl⟩
  | _ => simp [StepSpec.CarriedBy, h]

theorem checkOf_eq (p : List Byte) : checkOf p = (stQuantityOf (byteAt p 1)).bind fun q =>
    (within 100 10000 (nat16At p 2)).bind fun averaging => if averaging % 10 ≠ 0 then none else
    (modeOf (natAt p 4)).bind fun mode => (valueOf q (u32At p 5)).bind fun reference =>
    some (.check q averaging mode reference (nat16At p 9)) := by
  unfold checkOf
  generalize natAt p 4 = m
  rcases m with _ | _ | _ | m <;> rfl

theorem checkOf_eq_some {p : List Byte} {x : StepSpec} (h : natAt p 0 = 4) : checkOf p = some x ↔ x.CarriedBy p := by
  rw [checkOf_eq]
  simp only [Option.bind_eq_some_iff, Option.ite_none_left_eq_some, within_eq_some, stQuantityOf_eq_some, valueOf_eq_some,
    modeOf_eq_some, Option.some.injEq]
  cases x with
  | check q av m v t =>
    simp only [StepSpec.CarriedBy, StepSpec.check.injEq, natAt]
    constructor
    · rintro ⟨_, h1, _, h2, h3, _, h4, _, h5, rfl, rfl, rfl, rfl, h6⟩
      exact ⟨h, h1, h2.1, h2.2.1, h2.2.2, not_not.1 h3, h4, h5.1, h5.2, h6⟩
    · rintro ⟨-, h1, h2, h2', h2'', h3, h4, h5, h5', h6⟩
      exact ⟨_, h1, _, ⟨h2, h2', h2''⟩, not_not.2 h3, _, h4, _, ⟨h5, h5'⟩, rfl, rfl, rfl, rfl, h6⟩
  | _ => simp [StepSpec.CarriedBy, h]

theorem stepOf_eq_some {p : List Byte} {x : StepSpec} : stepOf p = some x ↔ x.CarriedBy p := by
  unfold stepOf
  split
  · exact rampOf_eq_some ‹_›
  · exact dwellOf_eq_some ‹_›
  · exact gateOf_eq_some ‹_›
  · exact checkOf_eq_some ‹_›
  · rename_i h; cases x <;> simp [StepSpec.CarriedBy, h]
  · cases x <;> simp_all [StepSpec.CarriedBy]

theorem orderSlots_eq_some {p : List Byte} : ∀ {n i : Nat} {xs : List OrderLimit}, orderSlots p n i = some xs ↔
    xs.length = n ∧ ∀ k o, xs[k]? = some o → natAt p (i + 5 * k) = o.order ∧ 1 ≤ o.order ∧ o.order ≤ 63
      ∧ nat32At p (i + 1 + 5 * k) = o.limit ∧ 1 ≤ o.limit ∧ o.limit ≤ 999999
  | 0, i, xs => by cases xs <;> simp [orderSlots]
  | n + 1, i, xs => by
    unfold orderSlots
    simp only [Option.bind_eq_bind, Option.bind_eq_some_iff, within_eq_some, orderSlots_eq_some (n := n), Option.some.injEq]
    constructor
    · rintro ⟨o, h1, l, h2, rest, ⟨h3, h4⟩, rfl⟩
      refine ⟨by simp [h3], fun k x hk => ?_⟩
      cases k with
      | zero => simp at hk; subst hk; exact ⟨h1.1, h1.2.1, h1.2.2, h2.1, h2.2.1, h2.2.2⟩
      | succ k =>
        have := h4 k x (by simpa using hk)
        rw [show i + 5 * (k + 1) = i + 5 + 5 * k by ring, show i + 1 + 5 * (k + 1) = i + 5 + 1 + 5 * k by ring]
        exact this
    · rintro ⟨hl, hx⟩
      cases xs with
      | nil => simp at hl
      | cons o rest =>
        have h0 := hx 0 o rfl
        refine ⟨o.order, ⟨h0.1, h0.2.1, h0.2.2.1⟩, o.limit, ⟨h0.2.2.2.1, h0.2.2.2.2.1, h0.2.2.2.2.2⟩, rest, ⟨by simpa using hl, fun k x hk => ?_⟩, rfl⟩
        have := hx (k + 1) x (by simpa using hk)
        rw [show i + 5 * (k + 1) = i + 5 + 5 * k by ring, show i + 1 + 5 * (k + 1) = i + 5 + 1 + 5 * k by ring] at this
        exact this

theorem groupOf_eq (p : List Byte) : groupOf p = (within 0 3 (natAt p 0)).bind fun group =>
    (within 16 1024 (nat16At p 1)).bind fun k => (flankOf (natAt p 3)).bind fun flank =>
    (within 0 30000 (nat16At p 4)).bind fun flankMin => (within 1 200 (natAt p 6)).bind fun tolerance =>
    (within 1 4096 (nat16At p 7)).bind fun discardLimit => (within 1 4 (natAt p 9)).bind fun count =>
    (yesNoOf (byteAt p 10)).bind fun present =>
    (if present then (within 1 65535 (nat16At p 11)).map some else some none).bind fun peakLimit =>
    (orderSlots p count 13).bind fun orders => if (orders.map OrderLimit.order).Nodup then
      some ⟨group, k, flank, flankMin, tolerance, discardLimit, orders, peakLimit⟩ else none := by
  unfold groupOf
  simp only [Option.bind_eq_bind, ite_bind]
  generalize natAt p 3 = m
  rcases m with _ | _ | m <;> rfl

theorem groupOf_eq_some {p : List Byte} {g : GroupSpec} : groupOf p = some g ↔ g.CarriedBy p := by
  have lim : ∀ x : Nat, nat16At p 11 = x → x ≤ 65535 := by
    intro x h; have := (u16At p 11).isLt; unfold nat16At at h; omega
  rw [groupOf_eq]
  simp only [Option.bind_eq_some_iff, Option.ite_none_right_eq_some, within_eq_some, yesNoOf_eq_some, orderSlots_eq_some,
    flankOf_eq_some, Option.some.injEq]
  constructor
  · rintro ⟨_, h1, _, h2, _, h3, _, h4, _, h5, _, h6, _, h7, e, h8, w, h9, os, ⟨rfl, h10⟩, h11, rfl⟩
    refine ⟨⟨h1.1, h1.2.2⟩, h2, h3, ⟨h4.1, h4.2.2⟩, h5, h6, h7, h10, h11, ?_⟩
    cases e
    · simp at h9; subst h9; exact h8
    · simp only [if_true, Option.map_eq_some_iff, within_eq_some] at h9; obtain ⟨x, hx, rfl⟩ := h9; exact ⟨h8, hx.1, hx.2.1⟩
  · rintro ⟨h1, h2, h3, h4, h5, h6, h7, h8, h9, h10⟩
    refine ⟨_, ⟨h1.1, Nat.zero_le _, h1.2⟩, _, h2, _, h3, _, ⟨h4.1, Nat.zero_le _, h4.2⟩, _, h5, _, h6, _, h7, g.peakLimit.isSome,
      ?_, g.peakLimit, ?_, _, ⟨rfl, h8⟩, h9, rfl⟩
    · cases hp : g.peakLimit <;> simp [hp] at h10 ⊢
      · exact h10
      · exact h10.1
    · cases hp : g.peakLimit <;> simp [hp, within_eq_some] at h10 ⊢
      exact ⟨h10.2.1, h10.2.2, lim _ h10.2.1⟩

theorem leakOf_eq_some {p : List Byte} {l : LeakSpec} : leakOf p = some l ↔ l.CarriedBy p := by
  unfold leakOf
  simp only [Option.bind_eq_bind, Option.bind_eq_some_iff, Option.ite_none_left_eq_some, within_eq_some, Option.some.injEq]
  constructor
  · rintro ⟨_, h1, _, h2, _, h3, _, h4, _, h5, _, h6, _, h7, _, h8, _, h9, _, h10, h11, rfl⟩
    exact ⟨h1, h2, h3, h4, h5, ⟨h6.1, h6.2.1, h6.2.2, not_not.1 h11⟩, h7, h8, ⟨h9.1, h9.2.2⟩, h10⟩
  · rintro ⟨h1, h2, h3, h4, h5, h6, h7, h8, h9, h10⟩
    exact ⟨_, h1, _, h2, _, h3, _, h4, _, h5, _, ⟨h6.1, h6.2.1, h6.2.2.1⟩, _, h7, _, h8, _, ⟨h9.1, Nat.zero_le _, h9.2⟩, _, h10,
      not_not.2 h6.2.2.2, rfl⟩

theorem optionalThreshold_eq_some {q : StQuantity} {b : Bool} {x : Word32} {t : Option Int} :
    optionalThreshold q b x = some t ↔ if b then t = some x.toInt ∧ Spans q x.toInt else t = none := by
  unfold optionalThreshold
  cases b
  · exact ⟨fun h => (Option.some.inj h).symm, fun h => congrArg some h.symm⟩
  · simp only [if_true, Option.map_eq_some_iff, valueOf_eq_some]
    constructor
    · rintro ⟨y, ⟨rfl, h⟩, rfl⟩; exact ⟨rfl, h⟩
    · rintro ⟨rfl, h⟩; exact ⟨_, ⟨rfl, h⟩, rfl⟩

theorem overrideOf_eq_some {p : List Byte} {o : Override} : overrideOf p = some o ↔ o.CarriedBy p := by
  unfold overrideOf
  simp only [Option.bind_eq_bind, Option.bind_eq_some_iff, Option.ite_none_left_eq_some, stQuantityOf_eq_some,
    optionalThreshold_eq_some, Option.some.injEq]
  constructor
  · rintro ⟨_, h1, h2, _, h3, _, h4, _, h5, _, h6, rfl⟩
    exact ⟨h1, by unfold natAt; omega, h3, h4, h5, h6⟩
  · rintro ⟨h1, h2, h3, h4, h5, h6⟩
    exact ⟨_, h1, by unfold natAt at h2; omega, _, h3, _, h4, _, h5, _, h6, rfl⟩

/-! ### The stages (R33) -/

theorem records_length (size : Nat) : ∀ (n : Nat) (p : List Byte), (records size n p).length = n
  | 0, _ => rfl
  | n + 1, p => by simp [records, records_length size n]

theorem records_get (size : Nat) : ∀ (n i : Nat) (p : List Byte), i < n →
    (records size n p)[i]? = some ((p.drop (size * i)).take size)
  | n + 1, 0, p, _ => by simp [records]
  | n + 1, i + 1, p, h => by
    simp [records, records_get size n i _ (Nat.lt_of_succ_lt_succ h), Nat.mul_succ, Nat.add_comm]

section Stage

variable {α : Type} {C : List Byte → α → Prop} {f : List Byte → Option α}

/-- A stage passes exactly with what its records carry. -/
theorem examine_ok (hf : ∀ p x, f p = some x ↔ C p x) (el : Element) : ∀ (rs : List (List Byte)) (pos : Nat) (xs : List α),
    examine f el pos rs = .ok xs ↔ xs.length = rs.length ∧ ∀ (i : Nat) (r : List Byte) (x : α), rs[i]? = some r → xs[i]? = some x → C r x
  | [], pos, xs => by cases xs <;> simp [examine]
  | r :: rest, pos, xs => by
    have ih := examine_ok hf el rest (pos + 1)
    unfold examine
    constructor
    · intro h
      split at h
      · cases h
      · rename_i x hx
        split at h
        · cases h
        · rename_i ys hy
          cases h
          obtain ⟨h1, h2⟩ := (ih ys).1 hy
          refine ⟨by simp [h1], fun i r' x' hr hx' => ?_⟩
          cases i with
          | zero => simp at hr hx'; subst hr hx'; exact (hf _ _).1 hx
          | succ i => exact h2 i r' x' (by simpa using hr) (by simpa using hx')
    · rintro ⟨h1, h2⟩
      cases xs with
      | nil => simp at h1
      | cons x ys =>
        rw [(hf _ _).2 (h2 0 r x rfl rfl),
          (ih ys).2 ⟨by simpa using h1, fun i r' x' hr hx => h2 (i + 1) r' x' (by simpa using hr) (by simpa using hx)⟩]

/-- A stage fails exactly at the first record that carries nothing. -/
theorem examine_error (hf : ∀ p x, f p = some x ↔ C p x) (el : Element) : ∀ (rs : List (List Byte)) (pos : Nat) (e : Invalid),
    examine f el pos rs = .error e → ∃ i r, e = ⟨el, pos + i⟩ ∧ rs[i]? = some r ∧ (∀ x, ¬C r x)
      ∧ ∀ j r', j < i → rs[j]? = some r' → ∃ x, C r' x
  | [], pos, e, h => by simp [examine] at h
  | r :: rest, pos, e, h => by
    unfold examine at h
    split at h
    · rename_i hn
      cases h
      exact ⟨0, r, rfl, rfl, fun x hx => (by rw [(hf _ _).2 hx] at hn; cases hn), fun j _ hj => absurd hj (Nat.not_lt_zero j)⟩
    · rename_i x hx
      split at h
      · rename_i e' he
        cases h
        obtain ⟨i, r', h1, h2, h3, h4⟩ := examine_error hf el rest (pos + 1) e he
        refine ⟨i + 1, r', by rw [h1, Nat.add_right_comm]; rfl, by simpa using h2, h3, fun j r'' hj hr => ?_⟩
        cases j with
        | zero => simp at hr; subst hr; exact ⟨x, (hf _ _).1 hx⟩
        | succ j => exact h4 j r'' (Nat.lt_of_succ_lt_succ hj) (by simpa using hr)
      · cases h

theorem stage_ok (hf : ∀ p x, f p = some x ↔ C p x) (el : Element) (size n : Nat) (p : List Byte) (xs : List α) :
    examine f el 1 (records size n p) = .ok xs ↔ ListCarried C (fun i => (p.drop (size * i)).take size) n xs := by
  rw [examine_ok hf, records_length]
  refine and_congr_right fun hl => ⟨fun h i x hx => ?_, fun h i r x hr hx => ?_⟩
  · have hi : i < n := by have := (List.getElem?_eq_some_iff.1 hx).1; omega
    exact h i _ x (records_get size n i p hi) hx
  · have hi : i < n := by have := (List.getElem?_eq_some_iff.1 hx).1; omega
    rw [records_get size n i p hi] at hr
    cases hr; exact h i x hx

theorem stage_failed (hf : ∀ p x, f p = some x ↔ C p x) {el : Element} {size n : Nat} {p : List Byte} {e : Invalid}
    (h : examine f el 1 (records size n p) = .error e) : ∃ i, i < n ∧ e = ⟨el, i + 1⟩
      ∧ (∀ x, ¬C ((p.drop (size * i)).take size) x) ∧ ∀ j, j < i → ∃ x, C ((p.drop (size * j)).take size) x := by
  obtain ⟨i, r, h1, h2, h3, h4⟩ := examine_error hf el _ _ _ h
  have hi : i < n := by have := (List.getElem?_eq_some_iff.1 h2).1; rwa [records_length] at this
  rw [records_get size n i p hi] at h2
  cases h2
  exact ⟨i, hi, by rw [h1, Nat.add_comm], h3, fun j hj => h4 j _ hj (records_get size n j p (by omega))⟩

theorem stage_error (hf : ∀ p x, f p = some x ↔ C p x) (el : Element) (size n : Nat) (p : List Byte) (e : Invalid) :
    examine f el 1 (records size n p) = .error e ↔ ∃ i, i < n ∧ e = ⟨el, i + 1⟩
      ∧ (∀ x, ¬C ((p.drop (size * i)).take size) x) ∧ ∀ j, j < i → ∃ x, C ((p.drop (size * j)).take size) x := by
  refine ⟨stage_failed hf, ?_⟩
  rintro ⟨i, h1, rfl, h2, h3⟩
  cases hx : examine f el 1 (records size n p) with
  | ok xs =>
    have h := (stage_ok hf el size n p xs).1 hx
    exact absurd (h.2 i _ (List.getElem?_eq_getElem (by rw [h.1]; exact h1))) (h2 _)
  | error e =>
    obtain ⟨j, j1, rfl, j2, j3⟩ := stage_failed hf hx
    rcases Nat.lt_trichotomy i j with h | rfl | h
    · obtain ⟨x, hx⟩ := j3 i h; exact absurd hx (h2 x)
    · rfl
    · obtain ⟨x, hx⟩ := h3 j h; exact absurd hx (j2 x)

/-- What a list of records carries is one list. -/
theorem ListCarried.unique {record : Nat → List Byte} {n : Nat} {xs ys : List α} (hf : ∀ p x, f p = some x ↔ C p x)
    (hx : ListCarried C record n xs) (hy : ListCarried C record n ys) : xs = ys := by
  refine List.ext_getElem (hx.1.trans hy.1.symm) fun i h1 h2 => ?_
  have a := (hf _ _).2 (hx.2 i _ (List.getElem?_eq_getElem h1))
  rw [(hf _ _).2 (hy.2 i _ (List.getElem?_eq_getElem h2))] at a
  exact (Option.some.inj a).symm

end Stage

theorem numberOf_inj {q q' : StQuantity} : numberOf q = numberOf q' ↔ q = q' := by
  cases q <;> cases q' <;> simp [numberOf]

/-- Record `i` of the override records carries an override of a quantity neither seen nor carried before it. -/
def OverrideNew (seen : List StQuantity) (rs : List (List Byte)) (i : Nat) : Prop :=
  ∃ r o, rs[i]? = some r ∧ Override.CarriedBy r o ∧ o.quantity ∉ seen ∧ ∀ j r', j < i → rs[j]? = some r' → natAt r' 0 ≠ natAt r 0

theorem overrideNew_zero {seen : List StQuantity} {r : List Byte} {rest : List (List Byte)} :
    OverrideNew seen (r :: rest) 0 ↔ ∃ o, Override.CarriedBy r o ∧ o.quantity ∉ seen := by
  constructor
  · rintro ⟨r', o, h, h1, h2, -⟩; simp at h; subst h; exact ⟨o, h1, h2⟩
  · rintro ⟨o, h1, h2⟩; exact ⟨r, o, rfl, h1, h2, fun j _ h => absurd h (Nat.not_lt_zero j)⟩

theorem overrideNew_succ {seen : List StQuantity} {r : List Byte} {rest : List (List Byte)} {o : Override}
    (ho : Override.CarriedBy r o) (i : Nat) : OverrideNew seen (r :: rest) (i + 1) ↔ OverrideNew (o.quantity :: seen) rest i := by
  constructor
  · rintro ⟨r', o', h, h1, h2, h3⟩
    refine ⟨r', o', by simpa using h, h1, ?_, fun j r'' hj hr => h3 (j + 1) r'' (by omega) (by simpa using hr)⟩
    have := h3 0 r (by omega) rfl
    rw [ho.quantity, h1.quantity, Ne, numberOf_inj] at this
    simp [Ne.symm this, h2]
  · rintro ⟨r', o', h, h1, h2, h3⟩
    simp only [List.mem_cons, not_or] at h2
    refine ⟨r', o', by simpa using h, h1, h2.2, fun j r'' hj hr => ?_⟩
    cases j with
    | zero => simp at hr; subst hr; rw [ho.quantity, h1.quantity, Ne, numberOf_inj]; exact fun h => h2.1 h.symm
    | succ j => exact h3 j r'' (by omega) (by simpa using hr)

/-- Stage 5 passes with what the records carry, every one new, and fails at the first that is not. -/
theorem examineOverrides_cases : ∀ (rs : List (List Byte)) (seen : List StQuantity) (pos : Nat),
    match examineOverrides seen pos rs with
    | .ok xs => (xs.length = rs.length ∧ ∀ (i : Nat) r x, rs[i]? = some r → xs[i]? = some x → Override.CarriedBy r x)
        ∧ ∀ i, i < rs.length → OverrideNew seen rs i
    | .error e => ∃ i, i < rs.length ∧ e = ⟨.override, pos + i⟩ ∧ ¬OverrideNew seen rs i ∧ ∀ j, j < i → OverrideNew seen rs j
  | [], seen, pos => by simp [examineOverrides]
  | r :: rest, seen, pos => by
    unfold examineOverrides
    cases ho : overrideOf r with
    | none =>
      refine ⟨0, by simp, rfl, ?_, fun j h => absurd h (Nat.not_lt_zero j)⟩
      rw [overrideNew_zero]
      rintro ⟨o, h, -⟩
      rw [overrideOf_eq_some.2 h] at ho; cases ho
    | some o =>
      have hc := overrideOf_eq_some.1 ho
      by_cases hs : o.quantity ∈ seen
      · simp only [hs, if_true]
        refine ⟨0, by simp, rfl, ?_, fun j h => absurd h (Nat.not_lt_zero j)⟩
        rw [overrideNew_zero]
        rintro ⟨o', h, h'⟩
        rw [overrideOf_eq_some.2 h] at ho; cases ho; exact h' hs
      · simp only [hs, if_false]
        have ih := examineOverrides_cases rest (o.quantity :: seen) (pos + 1)
        have h0 : OverrideNew seen (r :: rest) 0 := overrideNew_zero.2 ⟨o, hc, hs⟩
        cases he : examineOverrides (o.quantity :: seen) (pos + 1) rest with
        | ok xs =>
          rw [he] at ih
          refine ⟨⟨by simp [ih.1.1], fun i r' x hr hx => ?_⟩, fun i hi => ?_⟩
          · cases i with
            | zero => simp at hr hx; subst hr hx; exact hc
            | succ i => exact ih.1.2 i r' x (by simpa using hr) (by simpa using hx)
          · cases i with
            | zero => exact h0
            | succ i => exact (overrideNew_succ hc i).2 (ih.2 i (by simpa using hi))
        | error e =>
          rw [he] at ih
          obtain ⟨i, h1, h2, h3, h4⟩ := ih
          refine ⟨i + 1, by simpa using h1, by rw [h2, Nat.add_right_comm]; rfl, fun h => h3 ((overrideNew_succ hc i).1 h),
            fun j hj => ?_⟩
          cases j with
          | zero => exact h0
          | succ j => exact (overrideNew_succ hc j).2 (h4 j (by omega))

theorem overrideNew_records {n i : Nat} {p : List Byte} (hi : i < n) : OverrideNew [] (records 18 n p) i ↔
    (∃ o, Override.CarriedBy ((p.drop (18 * i)).take 18) o)
      ∧ ∀ j, j < i → natAt ((p.drop (18 * j)).take 18) 0 ≠ natAt ((p.drop (18 * i)).take 18) 0 := by
  constructor
  · rintro ⟨r, o, h1, h2, -, h3⟩
    rw [records_get 18 n i p hi] at h1
    cases h1
    exact ⟨⟨o, h2⟩, fun j hj => h3 j _ hj (records_get 18 n j p (by omega))⟩
  · rintro ⟨⟨o, h1⟩, h2⟩
    refine ⟨_, o, records_get 18 n i p hi, h1, by simp, fun j r hj hr => ?_⟩
    rw [records_get 18 n j p (by omega)] at hr
    cases hr
    exact h2 j hj

/-! ### The cross-checks (R34) -/

/-- The places of a list, numbered from 1, by their content: what `windowsOf` and `leakSteps` gather. -/
theorem mem_numbered {α : Type} {xs : List α} {k : Nat} {x : α} : (k, x) ∈ numbered xs ↔ ∃ i, k = i + 1 ∧ xs[i]? = some x := by
  unfold numbered
  rw [List.mem_iff_getElem?]
  simp only [List.getElem?_zip_eq_some]
  constructor
  · rintro ⟨i, h1, h2⟩
    have hi := (List.getElem?_eq_some_iff.1 h2).1
    rw [List.getElem?_range' hi] at h1
    have := Option.some.inj h1
    exact ⟨i, by omega, h2⟩
  · rintro ⟨i, rfl, h⟩
    have hi := (List.getElem?_eq_some_iff.1 h).1
    exact ⟨i, by rw [List.getElem?_range' hi, Nat.one_mul, Nat.add_comm], h⟩

theorem numbered_rising {α : Type} (xs : List α) : (numbered xs).Pairwise (fun a b => a.1 < b.1) := by
  unfold numbered
  rw [List.pairwise_iff_getElem]
  intro i j hi hj hij
  simp [List.getElem_zip, List.getElem_range']
  exact hij

theorem mem_windowsOf {steps : List StepSpec} {w : Nat × Nat} : w ∈ windowsOf steps ↔ ∃ i, w.1 = i + 1 ∧ WindowAt steps i w.2 := by
  unfold windowsOf
  rw [List.mem_filterMap]
  constructor
  · rintro ⟨⟨k, x⟩, h1, h2⟩
    obtain ⟨i, rfl, hi⟩ := mem_numbered.1 h1
    simp only at h2
    split at h2
    · cases h2; exact ⟨i, rfl, _, _, _, hi⟩
    · cases h2
  · rintro ⟨i, h1, d, e, k, h2⟩
    exact ⟨(i + 1, .dwell d (some w.2) e k), mem_numbered.2 ⟨i, rfl, h2⟩, by simp [← h1]⟩

theorem windowsOf_rising (steps : List StepSpec) : (windowsOf steps).Pairwise (fun a b => a.1 < b.1) := by
  unfold windowsOf
  refine List.Pairwise.filterMap _ ?_ (numbered_rising steps)
  rintro ⟨a, x⟩ ⟨b, y⟩ h w hw v hv
  simp only at hw hv
  split at hw <;> split at hv <;> cases hw <;> cases hv
  exact h

theorem mem_leakSteps {steps : List StepSpec} {k : Nat} : k ∈ leakSteps steps ↔ ∃ i, k = i + 1 ∧ steps[i]? = some .leak := by
  unfold leakSteps
  rw [List.mem_filterMap]
  constructor
  · rintro ⟨⟨j, x⟩, h1, h2⟩
    obtain ⟨i, rfl, hi⟩ := mem_numbered.1 h1
    simp only [Option.ite_none_right_eq_some, Option.some.injEq] at h2
    obtain ⟨rfl, rfl⟩ := h2
    exact ⟨i, rfl, hi⟩
  · rintro ⟨i, rfl, h⟩
    exact ⟨(i + 1, .leak), mem_numbered.2 ⟨i, rfl, h⟩, by simp⟩

theorem leakSteps_rising (steps : List StepSpec) : (leakSteps steps).Pairwise (· < ·) := by
  unfold leakSteps
  refine List.Pairwise.filterMap _ ?_ (numbered_rising steps)
  rintro ⟨a, x⟩ ⟨b, y⟩ h w hw v hv
  simp only [Option.ite_none_right_eq_some, Option.some.injEq] at hw hv
  rw [← hw.2, ← hv.2]; exact h

/-- The answer names the first place, from 1, that satisfies `P`. -/
def IsFirst (P : Nat → Prop) (r : Option Nat) : Prop :=
  (∀ p, r = some p → ∃ i, p = i + 1 ∧ P i ∧ ∀ j, P j → i ≤ j) ∧ (r = none → ∀ i, ¬P i)

theorem find_first {α : Type} {key : α → Nat} {l : List α} (hl : l.Pairwise (fun a b => key a < key b)) {p : α → Bool} {x : α}
    (h : l.find? p = some x) : x ∈ l ∧ p x = true ∧ ∀ y ∈ l, p y = true → key x ≤ key y := by
  obtain ⟨h1, as, bs, rfl, h2⟩ := List.find?_eq_some_iff_append.1 h
  refine ⟨by simp, h1, fun y hy hp => ?_⟩
  rcases List.mem_append.1 hy with ha | hb
  · have := h2 y ha; simp [hp] at this
  · rcases List.mem_cons.1 hb with rfl | hb
    · exact Nat.le_refl _
    · have := (List.pairwise_append.1 hl).2.1
      exact Nat.le_of_lt ((List.pairwise_cons.1 this).1 y hb)

/-- R34 check 1. -/
theorem unknownGroup_first (steps : List StepSpec) (groups : List GroupSpec) (leak : Option LeakSpec) :
    IsFirst (Offends steps groups leak 1 .step)
      (((windowsOf steps).find? (fun w => !(groups.any (fun g => g.group == w.2)))).map Prod.fst) := by
  have key : ∀ w : Nat × Nat, (!(groups.any (fun g => g.group == w.2))) = true ↔ ∀ x ∈ groups, x.group ≠ w.2 := by
    intro w; simp
  constructor
  · intro p hp
    obtain ⟨w, hw, rfl⟩ := Option.map_eq_some_iff.1 hp
    obtain ⟨h1, h2, h3⟩ := find_first (windowsOf_rising steps) hw
    obtain ⟨i, hi, hwin⟩ := mem_windowsOf.1 h1
    refine ⟨i, hi, .unknownGroup i w.2 hwin ((key w).1 h2), fun j hj => ?_⟩
    cases hj with
    | unknownGroup _ g hg hx =>
      have := h3 (j + 1, g) (mem_windowsOf.2 ⟨j, rfl, hg⟩) ((key _).2 hx)
      dsimp only at this; omega
  · intro hn i hi
    rw [Option.map_eq_none_iff, List.find?_eq_none] at hn
    cases hi with
    | unknownGroup _ g hg hx => exact hn (i + 1, g) (mem_windowsOf.2 ⟨i, rfl, hg⟩) ((key _).2 hx)

/-- `groupRepeat` names the first specification whose group is seen or carried before. -/
theorem groupRepeat_first : ∀ (gs : List GroupSpec) (seen : List Nat) (pos : Nat),
    let R := fun i => ∃ y, gs[i]? = some y ∧ (y.group ∈ seen ∨ ∃ j x, j < i ∧ gs[j]? = some x ∧ x.group = y.group)
    (∀ p, groupRepeat seen pos gs = some p → ∃ i, p = pos + i ∧ R i ∧ ∀ j, R j → i ≤ j)
      ∧ (groupRepeat seen pos gs = none → ∀ i, ¬R i)
  | [], seen, pos => by simp [groupRepeat]
  | g :: rest, seen, pos => by
    intro R
    have hR : ∀ i, R (i + 1) ↔ ∃ y, rest[i]? = some y ∧
        (y.group ∈ g.group :: seen ∨ ∃ j x, j < i ∧ rest[j]? = some x ∧ x.group = y.group) := by
      intro i
      constructor
      · rintro ⟨y, h1, h2⟩
        refine ⟨y, by simpa using h1, ?_⟩
        rcases h2 with h2 | ⟨j, x, hj, hx, he⟩
        · exact .inl (List.mem_cons_of_mem _ h2)
        · cases j with
          | zero => simp at hx; subst hx; exact .inl (by simp [he])
          | succ j => exact .inr ⟨j, x, by omega, by simpa using hx, he⟩
      · rintro ⟨y, h1, h2⟩
        refine ⟨y, by simpa using h1, ?_⟩
        rcases h2 with h2 | ⟨j, x, hj, hx, he⟩
        · rcases List.mem_cons.1 h2 with h2 | h2
          · exact .inr ⟨0, g, by omega, rfl, h2.symm⟩
          · exact .inl h2
        · exact .inr ⟨j + 1, x, by omega, by simpa using hx, he⟩
    have h0 : R 0 ↔ g.group ∈ seen := by
      constructor
      · rintro ⟨y, h1, h2⟩
        simp at h1; subst h1
        rcases h2 with h2 | ⟨j, x, hj, -⟩
        · exact h2
        · exact absurd hj (Nat.not_lt_zero j)
      · exact fun h => ⟨g, rfl, .inl h⟩
    unfold groupRepeat
    by_cases hs : g.group ∈ seen
    · simp only [hs, if_true]
      refine ⟨fun p hp => ⟨0, by cases hp; rfl, h0.2 hs, fun j _ => Nat.zero_le j⟩, fun h => by cases h⟩
    · simp only [hs, if_false]
      obtain ⟨ih1, ih2⟩ := groupRepeat_first rest (g.group :: seen) (pos + 1)
      refine ⟨fun p hp => ?_, fun hn i hi => ?_⟩
      · obtain ⟨i, h1, h2, h3⟩ := ih1 p hp
        refine ⟨i + 1, by omega, (hR i).2 h2, fun j hj => ?_⟩
        cases j with
        | zero => exact absurd (h0.1 hj) hs
        | succ j => exact Nat.succ_le_succ (h3 j ((hR j).1 hj))
      · cases i with
        | zero => exact hs (h0.1 hi)
        | succ i => exact ih2 hn i ((hR i).1 hi)

/-- R34 check 2. -/
theorem repeatedGroup_first (steps : List StepSpec) (groups : List GroupSpec) (leak : Option LeakSpec) :
    IsFirst (Offends steps groups leak 2 .groupSpec) (groupRepeat [] 1 groups) := by
  have key : ∀ i, Offends steps groups leak 2 .groupSpec i ↔
      ∃ y, groups[i]? = some y ∧ (y.group ∈ ([] : List Nat) ∨ ∃ j x, j < i ∧ groups[j]? = some x ∧ x.group = y.group) := by
    intro i
    constructor
    · intro h; cases h with
      | repeatedGroup _ j x y h1 h2 h3 h4 => exact ⟨y, h3, .inr ⟨j, x, h1, h2, h4⟩⟩
    · rintro ⟨y, h1, h2 | ⟨j, x, h2, h3, h4⟩⟩
      · simp at h2
      · exact .repeatedGroup i j x y h2 h3 h1 h4
  obtain ⟨h1, h2⟩ := groupRepeat_first groups [] 1
  refine ⟨fun p hp => ?_, fun hn i hi => h2 hn i ((key i).1 hi)⟩
  obtain ⟨i, a, b, c⟩ := h1 p hp
  exact ⟨i, by omega, (key i).2 b, fun j hj => c j ((key j).1 hj)⟩

/-- R34 check 3. -/
theorem unusedGroup_first (steps : List StepSpec) (groups : List GroupSpec) (leak : Option LeakSpec) :
    IsFirst (Offends steps groups leak 3 .groupSpec)
      (firstWhere (fun g => !((windowsOf steps).any (fun w => w.2 == g.group))) groups) := by
  have key : ∀ x : GroupSpec, (!((windowsOf steps).any (fun w => w.2 == x.group))) = true ↔ ∀ j, ¬WindowAt steps j x.group := by
    intro x
    simp only [Bool.not_eq_true', List.any_eq_false, beq_iff_eq]
    constructor
    · intro h j hj; exact h (j + 1, x.group) (mem_windowsOf.2 ⟨j, rfl, hj⟩) rfl
    · rintro h ⟨a, b⟩ hw rfl
      obtain ⟨i, -, hi⟩ := mem_windowsOf.1 hw
      exact h i hi
  unfold firstWhere
  constructor
  · intro p hp
    obtain ⟨⟨k, x⟩, hw, rfl⟩ := Option.map_eq_some_iff.1 hp
    obtain ⟨h1, h2, h3⟩ := find_first (numbered_rising groups) hw
    obtain ⟨i, hi, hx⟩ := mem_numbered.1 h1
    refine ⟨i, hi, .unusedGroup i x hx ((key x).1 h2), fun j hj => ?_⟩
    cases hj with
    | unusedGroup _ y hy hn =>
      have := h3 (j + 1, y) (mem_numbered.2 ⟨j, rfl, hy⟩) ((key y).2 hn)
      dsimp only at this; omega
  · intro hn i hi
    rw [Option.map_eq_none_iff, List.find?_eq_none] at hn
    cases hi with
    | unusedGroup _ y hy hx => exact hn (i + 1, y) (mem_numbered.2 ⟨i, rfl, hy⟩) ((key y).2 hx)

/-- Of groups newest first: one of group `g` is followed by one of another. -/
def Left (g : Nat) : (past : List Nat) → Prop
  | [] => False
  | h :: b => (h ≠ g ∧ g ∈ b) ∨ Left g b

/-- `interleaved` names the first window of a group left before it. -/
theorem interleaved_first : ∀ (ws : List (Nat × Nat)) (past closed : List Nat) (cur : Option Nat),
    cur = past.head? → (∀ g, g ∈ closed ↔ Left g past) → (∀ g, cur = some g → ¬Left g past) →
    match interleaved closed cur ws with
    | some p => ∃ pre w post, ws = pre ++ w :: post ∧ p = w.1 ∧ Left w.2 (pre.reverse.map Prod.snd ++ past)
        ∧ ∀ pre' w' post', pre = pre' ++ w' :: post' → ¬Left w'.2 (pre'.reverse.map Prod.snd ++ past)
    | none => ∀ pre w post, ws = pre ++ w :: post → ¬Left w.2 (pre.reverse.map Prod.snd ++ past)
  | [], past, closed, cur, _, _, _ => by simp [interleaved]
  | (i, g) :: rest, past, closed, cur, hcur, hclosed, hnot => by
    have step : ∀ (closed' : List Nat), ¬Left g past → (∀ x, x ∈ closed' ↔ Left x (g :: past)) →
        (∀ x, some g = some x → ¬Left x (g :: past)) →
        match interleaved closed' (some g) rest with
        | some p => ∃ pre w post, (i, g) :: rest = pre ++ w :: post ∧ p = w.1 ∧ Left w.2 (pre.reverse.map Prod.snd ++ past)
            ∧ ∀ pre' w' post', pre = pre' ++ w' :: post' → ¬Left w'.2 (pre'.reverse.map Prod.snd ++ past)
        | none => ∀ pre w post, (i, g) :: rest = pre ++ w :: post → ¬Left w.2 (pre.reverse.map Prod.snd ++ past) := by
      intro closed' h1 h2 h3
      have ih := interleaved_first rest (g :: past) closed' (some g) rfl h2 h3
      cases hr : interleaved closed' (some g) rest with
      | some p =>
        rw [hr] at ih
        obtain ⟨pre, w, post, e1, e2, e3, e4⟩ := ih
        refine ⟨(i, g) :: pre, w, post, by rw [e1]; rfl, e2, by simpa using e3, fun pre' w' post' h => ?_⟩
        cases pre' with
        | nil => cases h; exact h1
        | cons a pre' =>
          simp only [List.cons_append, List.cons.injEq] at h
          obtain ⟨rfl, h⟩ := h
          simpa using e4 pre' w' post' h
      | none =>
        rw [hr] at ih
        intro pre w post h
        cases pre with
        | nil => cases h; exact h1
        | cons a pre =>
          simp only [List.cons_append, List.cons.injEq] at h
          obtain ⟨rfl, h⟩ := h
          simpa using ih pre w post h
    unfold interleaved
    by_cases hg : cur = some g
    · simp only [hg, if_true]
      have hL : ∀ x, Left x (g :: past) ↔ Left x past := by
        intro x
        cases past with
        | nil => simp [hcur] at hg
        | cons h b =>
          rw [hg] at hcur; simp at hcur; subst hcur
          simp only [Left, List.mem_cons]
          constructor
          · rintro (⟨h1, h2 | h2⟩ | h); exacts [absurd h2.symm h1, .inl ⟨h1, h2⟩, h]
          · exact .inr
      refine step closed (hnot g hg) (fun x => (hclosed x).trans (hL x).symm) ?_
      rintro x h; cases h; rw [hL]; exact hnot g hg
    · simp only [hg, if_false]
      by_cases hc : g ∈ closed
      · simp only [hc, if_true]
        exact ⟨[], (i, g), rest, rfl, rfl, (hclosed g).1 hc, by simp⟩
      · simp only [hc, if_false]
        refine step _ (fun h => hc ((hclosed g).2 h)) ?_ ?_
        · intro x
          cases past with
          | nil => simp at hcur; subst hcur; simpa [Left] using hclosed x
          | cons h b =>
            simp at hcur; subst hcur
            have hgh : h ≠ g := fun e => hg (by rw [e])
            simp only [Left, List.mem_cons, hclosed]
            constructor
            · rintro (rfl | h1)
              · exact .inl ⟨fun e => hgh e.symm, .inl rfl⟩
              · exact .inr h1
            · rintro (⟨h1, h2 | h2⟩ | h1)
              · exact .inl h2
              · by_cases e : x = h
                · exact .inl e
                · exact .inr (.inl ⟨fun e' => e e'.symm, h2⟩)
              · exact .inr h1
        · rintro x h
          cases h
          simp only [Left, ne_eq, not_true_eq_false, false_and, false_or]
          exact fun h => hc ((hclosed g).2 h)

/-- A group is left among these windows. -/
theorem left_iff : ∀ (l : List (Nat × Nat)) (g : Nat), l.Pairwise (fun a b => a.1 < b.1) →
    (Left g (l.reverse.map Prod.snd) ↔ ∃ k j h, (k, g) ∈ l ∧ (j, h) ∈ l ∧ k < j ∧ h ≠ g) := by
  intro l g
  induction l using List.reverseRecOn with
  | nil => simp [Left]
  | append_singleton l w ih =>
    intro hl
    have hlt : ∀ a ∈ l, a.1 < w.1 := fun a ha => (List.pairwise_append.1 hl).2.2 a ha w (by simp)
    have ih := ih (List.pairwise_append.1 hl).1
    simp only [List.reverse_append, List.reverse_cons, List.reverse_nil, List.nil_append, List.cons_append, List.map_cons, Left, ih]
    constructor
    · rintro (⟨h1, h2⟩ | ⟨k, j, h, h1, h2, h3⟩)
      · simp only [List.mem_map, List.mem_reverse] at h2
        obtain ⟨⟨k, g'⟩, hk, rfl⟩ := h2
        exact ⟨k, w.1, w.2, by simp [hk], by simp, hlt _ hk, h1⟩
      · exact ⟨k, j, h, by simp [h1], by simp [h2], h3⟩
    · rintro ⟨k, j, h, h1, h2, h3, h4⟩
      simp only [List.mem_append, List.mem_singleton] at h1 h2
      rcases h1 with h1 | h1 <;> rcases h2 with h2 | h2
      · exact .inr ⟨k, j, h, h1, h2, h3, h4⟩
      · refine .inl ⟨by rw [← h2]; exact h4, ?_⟩
        simp only [List.mem_map, List.mem_reverse]
        exact ⟨_, h1, rfl⟩
      · have := hlt _ h2; rw [← h1] at this; simp at this; omega
      · rw [← h1] at h2; cases h2; omega

/-- R34 check 4. -/
theorem interleaves_first (steps : List StepSpec) (groups : List GroupSpec) (leak : Option LeakSpec) :
    IsFirst (Offends steps groups leak 4 .step) (interleaved [] none (windowsOf steps)) := by
  have hs := windowsOf_rising steps
  have key : ∀ pre w post i, windowsOf steps = pre ++ w :: post → w.1 = i + 1 → WindowAt steps i w.2 →
      (Left w.2 (pre.reverse.map Prod.snd) ↔ ∃ k j h, k < j ∧ j < i ∧ WindowAt steps k w.2 ∧ WindowAt steps j h ∧ h ≠ w.2) := by
    intro pre w post i hw hi hwin
    rw [hw] at hs
    obtain ⟨p1, p2, p3⟩ := List.pairwise_append.1 hs
    have hmem : ∀ v : Nat × Nat, v ∈ pre ↔ v ∈ windowsOf steps ∧ v.1 < w.1 := by
      intro v
      rw [hw]
      constructor
      · exact fun h => ⟨by simp [h], p3 v h w (by simp)⟩
      · rintro ⟨h1, h2⟩
        rcases List.mem_append.1 h1 with h | h
        · exact h
        · rcases List.mem_cons.1 h with rfl | h
          · omega
          · have := (List.pairwise_cons.1 p2).1 v h; omega
    rw [left_iff pre w.2 p1]
    constructor
    · rintro ⟨k, j, h, h1, h2, h3, h4⟩
      obtain ⟨k', e1, e2⟩ := mem_windowsOf.1 ((hmem _).1 h1).1
      obtain ⟨j', e3, e4⟩ := mem_windowsOf.1 ((hmem _).1 h2).1
      have := ((hmem _).1 h2).2
      dsimp only at *
      exact ⟨k', j', h, by omega, by omega, e2, e4, h4⟩
    · rintro ⟨k, j, h, h1, h2, h3, h4, h5⟩
      exact ⟨k + 1, j + 1, h, (hmem _).2 ⟨mem_windowsOf.2 ⟨k, rfl, h3⟩, by dsimp only; omega⟩,
        (hmem _).2 ⟨mem_windowsOf.2 ⟨j, rfl, h4⟩, by dsimp only; omega⟩, by omega, h5⟩
  have off : ∀ i, Offends steps groups leak 4 .step i → ∃ pre w post, windowsOf steps = pre ++ w :: post ∧ w.1 = i + 1
      ∧ WindowAt steps i w.2 ∧ Left w.2 (pre.reverse.map Prod.snd) := by
    intro i h
    cases h with
    | interleaves _ j k g h h1 h2 h3 h4 h5 h6 =>
      obtain ⟨pre, post, hw⟩ := List.append_of_mem ((mem_windowsOf (w := (i + 1, g))).2 ⟨i, rfl, h6⟩)
      exact ⟨pre, (i + 1, g), post, hw, rfl, h6, (key pre _ post i hw rfl h6).2 ⟨k, j, h, h1, h2, h3, h4, h5⟩⟩
  have main := interleaved_first (windowsOf steps) [] [] none rfl (by simp [Left]) (by simp)
  constructor
  · intro p hp
    rw [hp] at main
    obtain ⟨pre, w, post, hw, rfl, h3, h4⟩ := main
    obtain ⟨i, hi, hwin⟩ := mem_windowsOf.1 (by rw [hw]; simp : w ∈ windowsOf steps)
    rw [List.append_nil] at h3
    obtain ⟨k, j, h, a, b, c, d, e⟩ := (key pre w post i hw hi hwin).1 h3
    refine ⟨i, hi, .interleaves i j k w.2 h a b c d e hwin, fun m hm => ?_⟩
    obtain ⟨pre', w', post', hw', h1', h2', h3'⟩ := off m hm
    by_contra hlt
    have hin : w' ∈ pre := by
      have hm : w' ∈ pre ++ w :: post := by rw [← hw, hw']; simp
      rw [hw] at hs
      obtain ⟨p1, p2, p3⟩ := List.pairwise_append.1 hs
      rcases List.mem_append.1 hm with h | h
      · exact h
      · rcases List.mem_cons.1 h with rfl | h
        · omega
        · have := (List.pairwise_cons.1 p2).1 _ h; omega
    obtain ⟨a', b', hab⟩ := List.append_of_mem hin
    refine h4 a' w' b' hab ?_
    rw [List.append_nil]
    exact (key a' w' (b' ++ w :: post) m (by rw [hw, hab]; simp) h1' h2').2 ((key pre' w' post' m hw' h1' h2').1 h3')
  · intro hn i hi
    rw [hn] at main
    obtain ⟨pre, w, post, hw, -, -, h3⟩ := off i hi
    have := main pre w post hw
    rw [List.append_nil] at this
    exact this h3

/-- R34 check 5. -/
theorem noLeakSpec_first (steps : List StepSpec) (groups : List GroupSpec) (leak : Option LeakSpec) :
    IsFirst (Offends steps groups leak 5 .step) (if leak.isNone then (leakSteps steps)[0]? else none) := by
  have hs := leakSteps_rising steps
  constructor
  · intro p hp
    simp only [Option.ite_none_right_eq_some, Option.isNone_iff_eq_none] at hp
    obtain ⟨hn, hp⟩ := hp
    obtain ⟨i, rfl, hi⟩ := mem_leakSteps.1 (List.mem_of_getElem? hp)
    refine ⟨i, rfl, .noLeakSpec i hi hn, fun j hj => ?_⟩
    cases hj with
    | noLeakSpec _ h _ =>
      have hm := mem_leakSteps.2 ⟨j, rfl, h⟩
      cases hl : leakSteps steps with
      | nil => simp [hl] at hp
      | cons a b =>
        rw [hl] at hp hm hs
        simp at hp; subst hp
        rcases List.mem_cons.1 hm with e | e
        · omega
        · have := (List.pairwise_cons.1 hs).1 _ e; omega
  · intro hn i hi
    cases hi with
    | noLeakSpec _ h hl =>
      have hm := mem_leakSteps.2 ⟨i, rfl, h⟩
      rw [hl] at hn
      cases hl' : leakSteps steps with
      | nil => simp [hl'] at hm
      | cons a b => simp [hl'] at hn

/-- R34 check 6. -/
theorem thirdLeak_first (steps : List StepSpec) (groups : List GroupSpec) (leak : Option LeakSpec) :
    IsFirst (Offends steps groups leak 6 .step) (leakSteps steps)[2]? := by
  have hs := leakSteps_rising steps
  have key : ∀ i, Offends steps groups leak 6 .step i → ∃ a b c : Nat, a < b ∧ b < c ∧ c = i + 1 ∧ a ∈ leakSteps steps
      ∧ b ∈ leakSteps steps ∧ c ∈ leakSteps steps := by
    intro i h
    cases h with
    | thirdLeak _ j k h1 h2 h3 h4 h5 =>
      exact ⟨k + 1, j + 1, i + 1, by omega, by omega, rfl, mem_leakSteps.2 ⟨_, rfl, h3⟩, mem_leakSteps.2 ⟨_, rfl, h4⟩,
        mem_leakSteps.2 ⟨_, rfl, h5⟩⟩
  rcases hl : leakSteps steps with _ | ⟨x, _ | ⟨y, _ | ⟨z, rest⟩⟩⟩
  · refine ⟨by simp, fun _ i hi => ?_⟩
    obtain ⟨a, b, c, h1, h2, rfl, h3, h4, h5⟩ := key i hi
    simp [hl] at h3
  · refine ⟨by simp, fun _ i hi => ?_⟩
    obtain ⟨a, b, c, h1, h2, rfl, h3, h4, h5⟩ := key i hi
    simp [hl] at h3 h4; omega
  · refine ⟨by simp, fun _ i hi => ?_⟩
    obtain ⟨a, b, c, h1, h2, rfl, h3, h4, h5⟩ := key i hi
    simp [hl] at h3 h4 h5; omega
  · refine ⟨fun p hp => ?_, by simp⟩
    simp at hp; subst hp
    rw [hl] at hs
    simp only [List.pairwise_cons] at hs
    obtain ⟨h1, h2, h3, h4⟩ := hs
    have hxy := h1 y (by simp); have hyz := h2 z (by simp)
    obtain ⟨i, rfl, hi⟩ := mem_leakSteps.1 (by rw [hl]; simp : z ∈ leakSteps steps)
    obtain ⟨j, rfl, hj⟩ := mem_leakSteps.1 (by rw [hl]; simp : y ∈ leakSteps steps)
    obtain ⟨k, rfl, hk⟩ := mem_leakSteps.1 (by rw [hl]; simp : x ∈ leakSteps steps)
    refine ⟨i, rfl, .thirdLeak i j k (by omega) (by omega) hk hj hi, fun m hm => ?_⟩
    obtain ⟨a, b, c, e1, e2, rfl, e3, e4, e5⟩ := key m hm
    rw [hl] at e3 e4 e5
    simp only [List.mem_cons] at e3 e4 e5
    rcases e5 with e5 | e5 | e5 | e5
    · rcases e4 with e4 | e4 | e4 | e4 <;> rcases e3 with e3 | e3 | e3 | e3 <;> first
        | omega | (have := h3 _ e3; omega)
    · rcases e4 with e4 | e4 | e4 | e4 <;> rcases e3 with e3 | e3 | e3 | e3 <;> first
        | omega | (have := h3 _ e3; omega) | (have := h3 _ e4; omega)
    · omega
    · have := h3 _ e5; omega

/-- A LEAK step whose nearest preceding RAMP, or the target carried in where there is none, is other than 0. -/
def MovingLeak (target : Option Int) (xs : List StepSpec) (i : Nat) : Prop :=
  xs[i]? = some .leak ∧
    ((∃ j t a b c d e, j < i ∧ xs[j]? = some (.ramp t a b c d e) ∧ t ≠ 0
        ∧ ∀ k a b c d e f, j < k → k < i → xs[k]? ≠ some (.ramp a b c d e f))
      ∨ (∃ t, target = some t ∧ t ≠ 0 ∧ ∀ k a b c d e f, k < i → xs[k]? ≠ some (.ramp a b c d e f)))

theorem movingLeak_zero {target : Option Int} {x : StepSpec} {xs : List StepSpec} :
    MovingLeak target (x :: xs) 0 ↔ x = .leak ∧ ∃ t, target = some t ∧ t ≠ 0 := by
  constructor
  · rintro ⟨h, ⟨j, t, a, b, c, d, e, hj, -⟩ | ⟨t, h1, h2, -⟩⟩
    · omega
    · exact ⟨by simpa using h, t, h1, h2⟩
  · rintro ⟨rfl, t, h1, h2⟩
    exact ⟨rfl, .inr ⟨t, h1, h2, fun k _ _ _ _ _ _ hk => by omega⟩⟩

/-- The target carried past a step. -/
def carryTarget (target : Option Int) : StepSpec → Option Int
  | .ramp t .. => some t
  | _ => target

theorem movingLeak_succ {target : Option Int} {x : StepSpec} {xs : List StepSpec} (i : Nat) :
    MovingLeak target (x :: xs) (i + 1) ↔ MovingLeak (carryTarget target x) xs i := by
  unfold MovingLeak
  simp only [List.getElem?_cons_succ]
  refine and_congr_right fun _ => ?_
  constructor
  · rintro (⟨j, t, a, b, c, d, e, h1, h2, h3, h4⟩ | ⟨t, h1, h2, h3⟩)
    · cases j with
      | zero =>
        simp at h2; subst h2
        exact .inr ⟨t, rfl, h3, fun k a b c d e f hk => by simpa using h4 (k + 1) a b c d e f (by omega) (by omega)⟩
      | succ j =>
        exact .inl ⟨j, t, a, b, c, d, e, by omega, by simpa using h2, h3,
          fun k a b c d e f h h' => by simpa using h4 (k + 1) a b c d e f (by omega) (by omega)⟩
    · refine .inr ⟨t, ?_, h2, fun k a b c d e f hk => by simpa using h3 (k + 1) a b c d e f (by omega)⟩
      cases x <;> first | exact h1 | exact absurd rfl (h3 0 _ _ _ _ _ _ (by omega))
  · rintro (⟨j, t, a, b, c, d, e, h1, h2, h3, h4⟩ | ⟨t, h1, h2, h3⟩)
    · refine .inl ⟨j + 1, t, a, b, c, d, e, by omega, by simpa using h2, h3, fun k a b c d e f h h' => ?_⟩
      cases k with
      | zero => omega
      | succ k => simpa using h4 k a b c d e f (by omega) (by omega)
    · cases x with
      | ramp t' a b c d e =>
        cases h1
        refine .inl ⟨0, t, a, b, c, d, e, by omega, rfl, h2, fun k a b c d e f h h' => ?_⟩
        cases k with
        | zero => omega
        | succ k => simpa using h3 k a b c d e f (by omega)
      | _ =>
        refine .inr ⟨t, h1, h2, fun k a b c d e f hk => ?_⟩
        cases k with
        | zero => simp
        | succ k => simpa using h3 k a b c d e f (by omega)

theorem leakAfterMotion_first : ∀ (xs : List StepSpec) (s : Nat) (target : Option Int),
    (∀ p, leakAfterMotion target ((List.range' s xs.length).zip xs) = some p →
      ∃ i, p = s + i ∧ MovingLeak target xs i ∧ ∀ j, MovingLeak target xs j → i ≤ j)
    ∧ (leakAfterMotion target ((List.range' s xs.length).zip xs) = none → ∀ i, ¬MovingLeak target xs i)
  | [], s, target => by simp [leakAfterMotion, MovingLeak]
  | x :: xs, s, target => by
    have ih := leakAfterMotion_first xs (s + 1) (carryTarget target x)
    have hgo : ¬MovingLeak target (x :: xs) 0 →
        leakAfterMotion target ((List.range' s (x :: xs).length).zip (x :: xs))
          = leakAfterMotion (carryTarget target x) ((List.range' (s + 1) xs.length).zip xs) := by
      intro h
      rw [movingLeak_zero] at h
      simp only [List.length_cons, List.range'_succ, List.zip_cons_cons]
      cases x <;> simp only [leakAfterMotion, carryTarget]
      cases target with
      | none => rfl
      | some t =>
        have : t = 0 := by by_contra ht; exact h ⟨rfl, t, rfl, ht⟩
        simp [this]
    by_cases h0 : MovingLeak target (x :: xs) 0
    · obtain ⟨rfl, t, rfl, ht⟩ := movingLeak_zero.1 h0
      simp only [List.length_cons, List.range'_succ, List.zip_cons_cons, leakAfterMotion, ht, if_false]
      exact ⟨fun p hp => ⟨0, by cases hp; rfl, h0, fun j _ => Nat.zero_le j⟩, fun h => by cases h⟩
    · rw [hgo h0]
      refine ⟨fun p hp => ?_, fun hn i hi => ?_⟩
      · obtain ⟨i, h1, h2, h3⟩ := ih.1 p hp
        refine ⟨i + 1, by omega, (movingLeak_succ i).2 h2, fun j hj => ?_⟩
        cases j with
        | zero => exact absurd hj h0
        | succ j => exact Nat.succ_le_succ (h3 j ((movingLeak_succ j).1 hj))
      · cases i with
        | zero => exact h0 hi
        | succ i => exact ih.2 hn i ((movingLeak_succ i).1 hi)

/-- R34 check 7. -/
theorem moving_first (steps : List StepSpec) (groups : List GroupSpec) (leak : Option LeakSpec) :
    IsFirst (Offends steps groups leak 7 .step) (leakAfterMotion none (numbered steps)) := by
  have key : ∀ i, Offends steps groups leak 7 .step i ↔ MovingLeak none steps i := by
    intro i
    constructor
    · intro h
      cases h with
      | moving _ j t a b c d e h1 h2 h3 h4 h5 => exact ⟨h2, .inl ⟨j, t, a, b, c, d, e, h1, h3, h4, h5⟩⟩
    · rintro ⟨h1, ⟨j, t, a, b, c, d, e, h2, h3, h4, h5⟩ | ⟨t, h, -⟩⟩
      · exact .moving i j t a b c d e h2 h1 h3 h4 h5
      · cases h
  obtain ⟨h1, h2⟩ := leakAfterMotion_first steps 1 none
  refine ⟨fun p hp => ?_, fun hn i hi => h2 hn i ((key i).1 hi)⟩
  obtain ⟨i, a, b, c⟩ := h1 p hp
  exact ⟨i, by omega, (key i).2 b, fun j hj => c j ((key j).1 hj)⟩

/-- The cross-checks name the first check's first offending element, and pass when nothing offends. -/
theorem crossCheck_cases (steps : List StepSpec) (groups : List GroupSpec) (leak : Option LeakSpec) :
    match crossCheck steps groups leak with
    | some e => ∃ n i, e.position = i + 1 ∧ Offends steps groups leak n e.element i
        ∧ ∀ m el j, Offends steps groups leak m el j → n < m ∨ (n = m ∧ i ≤ j)
    | none => ∀ n el i, ¬Offends steps groups leak n el i := by
  obtain ⟨s1, n1⟩ := unknownGroup_first steps groups leak
  obtain ⟨s2, n2⟩ := repeatedGroup_first steps groups leak
  obtain ⟨s3, n3⟩ := unusedGroup_first steps groups leak
  obtain ⟨s4, n4⟩ := interleaves_first steps groups leak
  obtain ⟨s5, n5⟩ := noLeakSpec_first steps groups leak
  obtain ⟨s6, n6⟩ := thirdLeak_first steps groups leak
  obtain ⟨s7, n7⟩ := moving_first steps groups leak
  unfold crossCheck
  dsimp only
  generalize (windowsOf steps).find? (fun w => !(groups.any (fun g => g.group == w.2))) = c1 at s1 n1
  generalize groupRepeat [] 1 groups = c2 at s2 n2
  generalize firstWhere (fun g => !((windowsOf steps).any (fun w => w.2 == g.group))) groups = c3 at s3 n3
  generalize interleaved [] none (windowsOf steps) = c4 at s4 n4
  generalize (if leak.isNone then (leakSteps steps)[0]? else none) = c5 at s5 n5
  generalize (leakSteps steps)[2]? = c6 at s6 n6
  generalize leakAfterMotion none (numbered steps) = c7 at s7 n7
  -- The answer names the first offending element of check `n`, and no earlier check offends.
  have one : ∀ (n : Nat) (el : Element) (p : Nat),
      (∃ i, p = i + 1 ∧ Offends steps groups leak n el i ∧ ∀ j, Offends steps groups leak n el j → i ≤ j) →
      (∀ m el' j, Offends steps groups leak m el' j → n < m ∨ (n = m ∧ el' = el)) →
      ∃ n i, (⟨el, p⟩ : Invalid).position = i + 1 ∧ Offends steps groups leak n el i
        ∧ ∀ m el j, Offends steps groups leak m el j → n < m ∨ (n = m ∧ i ≤ j) := by
    rintro n el p ⟨i, h1, h2, h3⟩ h4
    refine ⟨n, i, h1, h2, fun m el' j h => ?_⟩
    rcases h4 m el' j h with h' | ⟨rfl, rfl⟩
    · exact .inl h'
    · exact .inr ⟨rfl, h3 j h⟩
  have names : ∀ m el j, Offends steps groups leak m el j → (m = 1 ∧ el = .step) ∨ (m = 2 ∧ el = .groupSpec)
      ∨ (m = 3 ∧ el = .groupSpec) ∨ (m = 4 ∧ el = .step) ∨ (m = 5 ∧ el = .step) ∨ (m = 6 ∧ el = .step) ∨ (m = 7 ∧ el = .step) := by
    intro m el j h; cases h <;> simp
  cases c1 with
  | some w =>
    refine one 1 .step w.1 (s1 w.1 rfl) fun m el j h => ?_
    rcases names m el j h with ⟨rfl, rfl⟩ | ⟨rfl, rfl⟩ | ⟨rfl, rfl⟩ | ⟨rfl, rfl⟩ | ⟨rfl, rfl⟩ | ⟨rfl, rfl⟩ | ⟨rfl, rfl⟩ <;>
      first | exact .inr ⟨rfl, rfl⟩ | exact .inl (by decide)
  | none =>
  have m1 := n1 rfl
  cases c2 with
  | some p =>
    refine one 2 .groupSpec p (s2 p rfl) fun m el j h => ?_
    rcases names m el j h with ⟨rfl, rfl⟩ | ⟨rfl, rfl⟩ | ⟨rfl, rfl⟩ | ⟨rfl, rfl⟩ | ⟨rfl, rfl⟩ | ⟨rfl, rfl⟩ | ⟨rfl, rfl⟩ <;>
      first | exact absurd h (m1 j) | exact .inr ⟨rfl, rfl⟩ | exact .inl (by decide)
  | none =>
  have m2 := n2 rfl
  cases c3 with
  | some p =>
    refine one 3 .groupSpec p (s3 p rfl) fun m el j h => ?_
    rcases names m el j h with ⟨rfl, rfl⟩ | ⟨rfl, rfl⟩ | ⟨rfl, rfl⟩ | ⟨rfl, rfl⟩ | ⟨rfl, rfl⟩ | ⟨rfl, rfl⟩ | ⟨rfl, rfl⟩ <;>
      first | exact absurd h (m1 j) | exact absurd h (m2 j) | exact .inr ⟨rfl, rfl⟩ | exact .inl (by decide)
  | none =>
  have m3 := n3 rfl
  cases c4 with
  | some p =>
    refine one 4 .step p (s4 p rfl) fun m el j h => ?_
    rcases names m el j h with ⟨rfl, rfl⟩ | ⟨rfl, rfl⟩ | ⟨rfl, rfl⟩ | ⟨rfl, rfl⟩ | ⟨rfl, rfl⟩ | ⟨rfl, rfl⟩ | ⟨rfl, rfl⟩ <;>
      first | exact absurd h (m1 j) | exact absurd h (m2 j) | exact absurd h (m3 j) | exact .inr ⟨rfl, rfl⟩ | exact .inl (by decide)
  | none =>
  have m4 := n4 rfl
  cases c5 with
  | some p =>
    refine one 5 .step p (s5 p rfl) fun m el j h => ?_
    rcases names m el j h with ⟨rfl, rfl⟩ | ⟨rfl, rfl⟩ | ⟨rfl, rfl⟩ | ⟨rfl, rfl⟩ | ⟨rfl, rfl⟩ | ⟨rfl, rfl⟩ | ⟨rfl, rfl⟩ <;>
      first | exact absurd h (m1 j) | exact absurd h (m2 j) | exact absurd h (m3 j) | exact absurd h (m4 j) | exact .inr ⟨rfl, rfl⟩ | exact .inl (by decide)
  | none =>
  have m5 := n5 rfl
  cases c6 with
  | some p =>
    refine one 6 .step p (s6 p rfl) fun m el j h => ?_
    rcases names m el j h with ⟨rfl, rfl⟩ | ⟨rfl, rfl⟩ | ⟨rfl, rfl⟩ | ⟨rfl, rfl⟩ | ⟨rfl, rfl⟩ | ⟨rfl, rfl⟩ | ⟨rfl, rfl⟩ <;>
      first | exact absurd h (m1 j) | exact absurd h (m2 j) | exact absurd h (m3 j) | exact absurd h (m4 j) | exact absurd h (m5 j) | exact .inr ⟨rfl, rfl⟩ | exact .inl (by decide)
  | none =>
  have m6 := n6 rfl
  cases c7 with
  | some p =>
    refine one 7 .step p (s7 p rfl) fun m el j h => ?_
    rcases names m el j h with ⟨rfl, rfl⟩ | ⟨rfl, rfl⟩ | ⟨rfl, rfl⟩ | ⟨rfl, rfl⟩ | ⟨rfl, rfl⟩ | ⟨rfl, rfl⟩ | ⟨rfl, rfl⟩ <;>
      first | exact absurd h (m1 j) | exact absurd h (m2 j) | exact absurd h (m3 j) | exact absurd h (m4 j) | exact absurd h (m5 j) | exact absurd h (m6 j) | exact .inr ⟨rfl, rfl⟩
  | none =>
  have m7 := n7 rfl
  intro n el j h
  rcases names n el j h with ⟨rfl, rfl⟩ | ⟨rfl, rfl⟩ | ⟨rfl, rfl⟩ | ⟨rfl, rfl⟩ | ⟨rfl, rfl⟩ | ⟨rfl, rfl⟩ | ⟨rfl, rfl⟩
  exacts [m1 j h, m2 j h, m3 j h, m4 j h, m5 j h, m6 j h, m7 j h]

/-! ### The derived windows (R35) -/

theorem groupWindows_spec {steps : List StepSpec} {g : GroupSpec} {k : Nat} (hk : WindowAt steps k g.group) :
    ∃ first last : Nat, groupWindows steps g = ⟨first + 1, last + 1⟩ ∧ WindowAt steps first g.group
      ∧ WindowAt steps last g.group ∧ ∀ j, WindowAt steps j g.group → first ≤ j ∧ j ≤ last := by
  unfold groupWindows
  have mem : ∀ i, i ∈ ((windowsOf steps).filter (fun w => w.2 == g.group)).map Prod.fst ↔ ∃ j, i = j + 1 ∧ WindowAt steps j g.group := by
    intro i
    simp only [List.mem_map, List.mem_filter, beq_iff_eq]
    constructor
    · rintro ⟨⟨a, b⟩, ⟨h1, rfl⟩, rfl⟩; exact mem_windowsOf.1 h1
    · rintro ⟨j, rfl, h⟩; exact ⟨(j + 1, g.group), ⟨mem_windowsOf.2 ⟨j, rfl, h⟩, rfl⟩, rfl⟩
  have hs : (((windowsOf steps).filter (fun w => w.2 == g.group)).map Prod.fst).Pairwise (· < ·) :=
    List.pairwise_map.2 ((windowsOf_rising steps).filter _)
  generalize ((windowsOf steps).filter (fun w => w.2 == g.group)).map Prod.fst = own at mem hs
  cases own with
  | nil => exact absurd ((mem (k + 1)).2 ⟨k, rfl, hk⟩) (by simp)
  | cons a rest =>
    obtain ⟨first, rfl, hfirst⟩ := (mem a).1 (by simp)
    obtain ⟨last, hl, hlast⟩ := (mem _).1 (List.getLast_mem (List.cons_ne_nil (first + 1) rest))
    refine ⟨first, last, ?_, hfirst, hlast, fun j hj => ?_⟩
    · simp only [List.head?_cons, Option.getD_some, List.getLast?_eq_getLast_of_ne_nil (List.cons_ne_nil (first + 1) rest), hl]
    · have hm := (mem (j + 1)).2 ⟨j, rfl, hj⟩
      constructor
      · rcases List.mem_cons.1 hm with h | h
        · omega
        · have := (List.pairwise_cons.1 hs).1 _ h; omega
      · have hle : j + 1 ≤ ((first + 1) :: rest).getLast (List.cons_ne_nil _ _) := by
          have hd := List.dropLast_append_getLast (List.cons_ne_nil (first + 1) rest)
          rw [← hd] at hm hs
          rcases List.mem_append.1 hm with h | h
          · exact Nat.le_of_lt ((List.pairwise_append.1 hs).2.2 _ h _ (by simp))
          · simp at h; omega
        omega

/-! ### Validation (R28 to R36) -/

theorem steps_ok (body : List Byte) (xs : List StepSpec) : examine stepOf .step 1 (records 16 (natAt body 5) (body.drop 9)) = .ok xs ↔
    ListCarried StepSpec.CarriedBy (stepRecord body) (natAt body 5) xs := by
  rw [stage_ok (fun _ _ => stepOf_eq_some)]
  simp only [List.drop_drop, ListCarried, stepRecord]

theorem steps_error (body : List Byte) (e : Invalid) : examine stepOf .step 1 (records 16 (natAt body 5) (body.drop 9)) = .error e ↔
    ∃ i, i < natAt body 5 ∧ e = ⟨.step, i + 1⟩ ∧ (∀ x, ¬StepSpec.CarriedBy (stepRecord body i) x)
      ∧ ∀ j, j < i → ∃ x, StepSpec.CarriedBy (stepRecord body j) x := by
  rw [stage_error (fun _ _ => stepOf_eq_some)]
  simp only [List.drop_drop, stepRecord]

theorem groups_ok (body : List Byte) (xs : List GroupSpec) :
    examine groupOf .groupSpec 1 (records 33 (natAt body 6) (body.drop (9 + 16 * natAt body 5))) = .ok xs ↔
      ListCarried GroupSpec.CarriedBy (groupRecord body) (natAt body 6) xs := by
  rw [stage_ok (fun _ _ => groupOf_eq_some)]
  simp only [List.drop_drop, ListCarried, groupRecord]

theorem groups_error (body : List Byte) (e : Invalid) :
    examine groupOf .groupSpec 1 (records 33 (natAt body 6) (body.drop (9 + 16 * natAt body 5))) = .error e ↔
      ∃ i, i < natAt body 6 ∧ e = ⟨.groupSpec, i + 1⟩ ∧ (∀ x, ¬GroupSpec.CarriedBy (groupRecord body i) x)
        ∧ ∀ j, j < i → ∃ x, GroupSpec.CarriedBy (groupRecord body j) x := by
  rw [stage_error (fun _ _ => groupOf_eq_some)]
  simp only [List.drop_drop, groupRecord]

theorem leak_ok (body : List Byte) (h : natAt body 7 ≤ 1) (xs : List LeakSpec) :
    examine leakOf .leakSpec 1 (records 30 (natAt body 7) (body.drop (9 + 16 * natAt body 5 + 33 * natAt body 6))) = .ok xs ↔
      ListCarried LeakSpec.CarriedBy (fun _ => leakRecord body) (natAt body 7) xs := by
  rw [stage_ok (fun _ _ => leakOf_eq_some)]
  refine and_congr_right fun hl => ?_
  have key : ∀ i x, xs[i]? = some x → i = 0 := by
    intro i x hx; have := (List.getElem?_eq_some_iff.1 hx).1; omega
  constructor <;> intro hx i x hi
  · obtain rfl := key i x hi; exact hx 0 x hi
  · obtain rfl := key i x hi; exact hx 0 x hi

theorem leak_error (body : List Byte) (h : natAt body 7 ≤ 1) (e : Invalid) :
    examine leakOf .leakSpec 1 (records 30 (natAt body 7) (body.drop (9 + 16 * natAt body 5 + 33 * natAt body 6))) = .error e ↔
      natAt body 7 = 1 ∧ e = ⟨.leakSpec, 1⟩ ∧ ∀ x, ¬LeakSpec.CarriedBy (leakRecord body) x := by
  rw [stage_error (fun _ _ => leakOf_eq_some)]
  constructor
  · rintro ⟨i, h1, h2, h3, -⟩
    obtain rfl : i = 0 := by omega
    exact ⟨by omega, h2, h3⟩
  · rintro ⟨h1, h2, h3⟩
    exact ⟨0, by omega, h2, h3, fun j hj => absurd hj (Nat.not_lt_zero j)⟩

/-- The override records as the stage reads them. -/
theorem overrides_cases (body : List Byte) :
    match examineOverrides [] 1
        (records 18 (natAt body 8) (body.drop (9 + 16 * natAt body 5 + 33 * natAt body 6 + 30 * natAt body 7))) with
    | .ok xs => ListCarried Override.CarriedBy (overrideRecord body) (natAt body 8) xs ∧ ∀ i, i < natAt body 8 → OverrideFits body i
    | .error e => ∃ i, i < natAt body 8 ∧ e = ⟨.override, i + 1⟩ ∧ ¬OverrideFits body i ∧ ∀ j, j < i → OverrideFits body j := by
  have fits : ∀ i, i < natAt body 8 → (OverrideNew []
      (records 18 (natAt body 8) (body.drop (9 + 16 * natAt body 5 + 33 * natAt body 6 + 30 * natAt body 7))) i ↔ OverrideFits body i) := by
    intro i hi
    rw [overrideNew_records hi]
    simp only [List.drop_drop, OverrideFits, overrideRecord]
  have main := examineOverrides_cases
    (records 18 (natAt body 8) (body.drop (9 + 16 * natAt body 5 + 33 * natAt body 6 + 30 * natAt body 7))) [] 1
  generalize hx : examineOverrides [] 1 _ = x at main
  cases x with
  | ok xs =>
    rw [records_length] at main
    refine ⟨⟨main.1.1, fun i x hi => ?_⟩, fun i hi => (fits i hi).1 (main.2 i hi)⟩
    have hi' : i < natAt body 8 := by have := (List.getElem?_eq_some_iff.1 hi).1; omega
    have := main.1.2 i _ x (records_get 18 _ i _ hi') hi
    rwa [List.drop_drop] at this
  | error e =>
    rw [records_length] at main
    obtain ⟨i, h1, rfl, h2, h3⟩ := main
    exact ⟨i, h1, by rw [Nat.add_comm], fun h => h2 ((fits i h1).2 h), fun j hj => (fits j (by omega)).1 (h3 j hj)⟩

theorem overrides_ok (body : List Byte) (xs : List Override) : examineOverrides [] 1
      (records 18 (natAt body 8) (body.drop (9 + 16 * natAt body 5 + 33 * natAt body 6 + 30 * natAt body 7))) = .ok xs ↔
    ListCarried Override.CarriedBy (overrideRecord body) (natAt body 8) xs ∧ ∀ i, i < natAt body 8 → OverrideFits body i := by
  have main := overrides_cases body
  generalize examineOverrides [] 1 _ = x at main ⊢
  cases x with
  | ok ys =>
    refine ⟨fun h => (by cases h; exact main), fun h => ?_⟩
    rw [ListCarried.unique (fun _ _ => overrideOf_eq_some) main.1 h.1]
  | error e =>
    obtain ⟨i, h1, -, h2, -⟩ := main
    exact ⟨fun h => (by cases h), fun h => absurd (h.2 i h1) h2⟩

theorem overrides_error (body : List Byte) (e : Invalid) : examineOverrides [] 1
      (records 18 (natAt body 8) (body.drop (9 + 16 * natAt body 5 + 33 * natAt body 6 + 30 * natAt body 7))) = .error e ↔
    ∃ i, i < natAt body 8 ∧ e = ⟨.override, i + 1⟩ ∧ ¬OverrideFits body i ∧ ∀ j, j < i → OverrideFits body j := by
  have main := overrides_cases body
  generalize examineOverrides [] 1 _ = x at main ⊢
  cases x with
  | ok ys =>
    refine ⟨fun h => (by cases h), ?_⟩
    rintro ⟨i, h1, -, h2, -⟩
    exact absurd (main.2 i h1) h2
  | error e' =>
    refine ⟨fun h => (by cases h; exact main), ?_⟩
    rintro ⟨i, h1, rfl, h2, h3⟩
    obtain ⟨j, j1, rfl, j2, j3⟩ := main
    rcases Nat.lt_trichotomy i j with h | rfl | h
    · exact absurd (j3 i h) h2
    · rfl
    · exact absurd (h3 j h) j2

/-- Validation behind its first stage. -/
def validateLists (body : List Byte) (cls : RecipeClass) (stopOnFail : Bool) : Except Invalid Recipe :=
  match examine stepOf .step 1 (records 16 (natAt body 5) (body.drop 9)) with
  | .error e => .error e
  | .ok steps =>
  match examine groupOf .groupSpec 1 (records 33 (natAt body 6) (body.drop (9 + 16 * natAt body 5))) with
  | .error e => .error e
  | .ok groups =>
  match examine leakOf .leakSpec 1 (records 30 (natAt body 7) (body.drop (9 + 16 * natAt body 5 + 33 * natAt body 6))) with
  | .error e => .error e
  | .ok leaks =>
  match examineOverrides [] 1
      (records 18 (natAt body 8) (body.drop (9 + 16 * natAt body 5 + 33 * natAt body 6 + 30 * natAt body 7))) with
  | .error e => .error e
  | .ok overrides =>
  match crossCheck steps groups leaks.head? with
  | some e => .error e
  | none => .ok { body := body, variant := nat16At body 0, revision := natAt body 2, cls := cls, stopOnFail := stopOnFail
                  steps := steps, groups := groups, leak := leaks.head?, overrides := overrides
                  windows := groups.map (groupWindows steps), fingerprint := crc16 body }

theorem validate_unfit {body : List Byte} (h : ¬HeaderFits body) : validate body = .error ⟨.header, 0⟩ := by
  unfold validate
  dsimp only
  split
  · rename_i cls sf lk h1 h2 h3
    rw [yesNoOf_eq_some] at h2 h3
    refine if_pos ?_
    by_contra hc
    refine h ⟨by omega, ?_, ?_, by omega, by omega, ?_, by omega⟩
    · by_contra hn
      rw [if_neg (by omega), if_neg (by omega)] at h1
      cases h1
    · unfold natAt; rw [h2]; split <;> simp
    · unfold natAt; rw [h3]; split <;> simp
  · rfl

theorem validate_fit {body : List Byte} (h : HeaderFits body) {cls : RecipeClass} {stopOnFail : Bool}
    (hc : natAt body 3 = (match cls with | .production => 0 | .master => 1)) (hs : natAt body 4 = (if stopOnFail then 1 else 0)) :
    validate body = validateLists body cls stopOnFail := by
  unfold validate validateLists
  have h1 : (if natAt body 3 = 0 then some RecipeClass.production else if natAt body 3 = 1 then some .master else none) = some cls := by
    rw [hc]; cases cls <;> rfl
  have h2 : yesNoOf (byteAt body 4) = some stopOnFail := yesNoOf_eq_some.2 hs
  have h4 : ¬(nat16At body 0 = 0 ∨ natAt body 5 < 1 ∨ 24 < natAt body 5 ∨ 4 < natAt body 6 ∨ 6 < natAt body 8) := by
    obtain ⟨a, b, c, d, e, f, g⟩ := h
    omega
  dsimp only
  rw [h1, h2]
  rcases Nat.le_one_iff_eq_zero_or_eq_one.1 h.leak with h7 | h7
  · rw [show yesNoOf (byteAt body 7) = some false from yesNoOf_eq_some.2 h7, h7]
    simp only [h4, if_false, List.drop_drop, Nat.mul_zero, Nat.add_zero, records, Bool.false_eq_true]
    try rfl
  · rw [show yesNoOf (byteAt body 7) = some true from yesNoOf_eq_some.2 h7, h7]
    simp only [h4, if_false, List.drop_drop, Nat.mul_one, records, if_true]
    try rfl

theorem HeaderFits.bytes {body : List Byte} (h : HeaderFits body) : ∃ (cls : RecipeClass) (stopOnFail : Bool),
    natAt body 3 = (match cls with | .production => 0 | .master => 1) ∧ natAt body 4 = (if stopOnFail then 1 else 0) := by
  have h3 := h.cls
  have h4 := h.stopOnFail
  refine ⟨if natAt body 3 = 0 then .production else .master, decide (natAt body 4 = 1), ?_, ?_⟩
  · by_cases hz : natAt body 3 = 0
    · simp [hz]
    · simp only [hz, if_false]; omega
  · by_cases hz : natAt body 4 = 1
    · simp [hz]
    · simp only [hz, decide_false, Bool.false_eq_true, if_false]; omega

theorem list_head_toList {α : Type} {xs : List α} (h : xs.length ≤ 1) : xs.head?.toList = xs := by
  rcases xs with _ | ⟨x, _ | ⟨y, r⟩⟩ <;> simp_all

/-- `validate` answers a recipe exactly where the body passes and carries it (R28 to R36). -/
theorem validate_ok_iff (body : List Byte) (r : Recipe) : validate body = .ok r ↔ RecipeCarried body r := by
  by_cases hf : HeaderFits body
  · constructor
    · intro h
      obtain ⟨cls, sf, hc, hs⟩ := hf.bytes
      rw [validate_fit hf hc hs] at h
      unfold validateLists at h
      split at h
      · cases h
      rename_i steps h1
      split at h
      · cases h
      rename_i groups h2
      split at h
      · cases h
      rename_i leaks h3
      split at h
      · cases h
      rename_i overrides h4
      split at h
      · cases h
      rename_i h5
      cases h
      have hl := (leak_ok body hf.leak leaks).1 h3
      have cc := crossCheck_cases steps groups leaks.head?
      rw [h5] at cc
      refine ⟨hf, rfl, rfl, rfl, hc, hs, (steps_ok body steps).1 h1, (groups_ok body groups).1 h2, ?_,
        ((overrides_ok body overrides).1 h4).1, ((overrides_ok body overrides).1 h4).2, cc, ⟨by simp, ?_⟩, rfl⟩
      · rw [list_head_toList (by rw [hl.1]; exact hf.leak)]; exact hl
      · intro i g w hg hw
        simp only [List.getElem?_map, hg, Option.map_some, Option.some.injEq] at hw
        subst hw
        have : ∃ k, WindowAt steps k g.group := by
          by_contra hn
          exact cc 3 .groupSpec i (.unusedGroup i g hg (fun j hj => hn ⟨j, hj⟩))
        obtain ⟨k, hk⟩ := this
        exact groupWindows_spec hk
    · intro h
      have h3 := (leak_ok body hf.leak r.leak.toList).2 h.leak
      have cc : crossCheck r.steps r.groups r.leak = none := by
        have main := crossCheck_cases r.steps r.groups r.leak
        split at main
        · obtain ⟨n, i, -, ho, -⟩ := main; exact absurd ho (h.crossChecks n _ i)
        · assumption
      have hw : r.windows = r.groups.map (groupWindows r.steps) := by
        refine List.ext_getElem (by simp [h.windows.1]) fun i h1 h2 => ?_
        have hi : i < r.groups.length := by rw [← h.windows.1]; exact h1
        obtain ⟨a, b, e1, e2, e3, e4⟩ := h.windows.2 i _ _ (List.getElem?_eq_getElem hi) (List.getElem?_eq_getElem h1)
        obtain ⟨a', b', e1', e2', e3', e4'⟩ := groupWindows_spec e2
        rw [e1, List.getElem_map, e1']
        have h1 := e4 a' e2'; have h2 := e4 b' e3'; have h3 := e4' a e2; have h4 := e4' b e3
        congr 2 <;> omega
      rw [validate_fit hf h.cls h.stopOnFail]
      unfold validateLists
      rw [(steps_ok body _).2 h.steps]
      dsimp only
      rw [(groups_ok body _).2 h.groups]
      dsimp only
      rw [h3]
      dsimp only
      rw [(overrides_ok body _).2 ⟨h.overrides, h.overridesOnce⟩]
      have hh : r.leak.toList.head? = r.leak := by cases r.leak <;> rfl
      dsimp only
      rw [hh, cc]
      dsimp only
      rw [← hw, ← h.variant, ← h.revision, ← h.fingerprint]
      have := h.carried
      cases r
      simp_all
  · rw [validate_unfit hf]
    exact ⟨fun h => (by cases h), fun h => absurd h.header hf⟩

/-- `validate` answers an element and a position exactly where the body fails there first (R33, R34). -/
theorem validate_error_iff (body : List Byte) (e : Invalid) : validate body = .error e ↔ RecipeRefused body e.element e.position := by
  by_cases hf : HeaderFits body
  · obtain ⟨cls, sf, hc, hs⟩ := hf.bytes
    rw [validate_fit hf hc hs]
    unfold validateLists
    constructor
    · intro h
      split at h
      · rename_i e' h1
        cases h
        obtain ⟨i, a, rfl, b, c⟩ := (steps_error body _).1 h1
        exact .step i hf a c b
      rename_i steps h1
      have h1 := (steps_ok body _).1 h1
      split at h
      · rename_i e' h2
        cases h
        obtain ⟨i, a, rfl, b, c⟩ := (groups_error body _).1 h2
        exact .groupSpec steps i hf h1 a c b
      rename_i groups h2
      have h2 := (groups_ok body _).1 h2
      split at h
      · rename_i e' h3
        cases h
        obtain ⟨a, rfl, b⟩ := (leak_error body hf.leak _).1 h3
        exact .leakSpec steps groups hf h1 h2 a b
      rename_i leaks h3
      have h3 := (leak_ok body hf.leak _).1 h3
      have h3' : ListCarried LeakSpec.CarriedBy (fun _ => leakRecord body) (natAt body 7) leaks.head?.toList := by
        rw [list_head_toList (by rw [h3.1]; exact hf.leak)]; exact h3
      split at h
      · rename_i e' h4
        cases h
        obtain ⟨i, a, rfl, b, c⟩ := (overrides_error body _).1 h4
        exact .override steps groups leaks.head? i hf h1 h2 h3' a c b
      rename_i overrides h4
      have h4 := (overrides_ok body _).1 h4
      have cc := crossCheck_cases steps groups leaks.head?
      split at h
      · rename_i e' h5
        cases h
        rw [h5] at cc
        obtain ⟨n, i, a, b, c⟩ := cc
        have := RecipeRefused.crossCheck steps groups leaks.head? n e.element i hf h1 h2 h3' h4.2 b c
        rwa [← a] at this
      · cases h
    · intro h
      obtain ⟨el, pos⟩ := e
      dsimp only at h
      cases h with
      | header h => exact absurd hf h
      | step i _ a b c => rw [(steps_error body _).2 ⟨i, a, rfl, c, b⟩]
      | groupSpec steps i _ h1 a b c =>
        rw [(steps_ok body _).2 h1]
        dsimp only
        rw [(groups_error body _).2 ⟨i, a, rfl, c, b⟩]
      | leakSpec steps groups _ h1 h2 a b =>
        rw [(steps_ok body _).2 h1]
        dsimp only
        rw [(groups_ok body _).2 h2]
        dsimp only
        rw [(leak_error body hf.leak _).2 ⟨a, rfl, b⟩]
      | override steps groups leak i _ h1 h2 h3 a b c =>
        rw [(steps_ok body _).2 h1]
        dsimp only
        rw [(groups_ok body _).2 h2]
        dsimp only
        rw [(leak_ok body hf.leak _).2 h3]
        dsimp only
        rw [(overrides_error body _).2 ⟨i, a, rfl, c, b⟩]
      | crossCheck steps groups leak n el i _ h1 h2 h3 h4 h5 h6 =>
        rw [(steps_ok body _).2 h1]
        dsimp only
        rw [(groups_ok body _).2 h2]
        dsimp only
        rw [(leak_ok body hf.leak _).2 h3]
        dsimp only
        have main := overrides_cases body
        generalize examineOverrides [] 1 _ = x at main ⊢
        cases x with
        | error e =>
          obtain ⟨j, j1, -, j2, -⟩ := main
          exact absurd (h4 j j1) j2
        | ok overrides =>
          have hh : leak.toList.head? = leak := by cases leak <;> rfl
          have cc := crossCheck_cases steps groups leak
          dsimp only
          rw [hh]
          split
          · rename_i e' hcc
            rw [hcc] at cc
            obtain ⟨m, k, a, b, c⟩ := cc
            have hnm : n = m ∧ k = i := by
              have h1 := h6 m _ k b; have h2 := c n _ i h5; omega
            obtain ⟨rfl, rfl⟩ := hnm
            have hel : e'.element = el := by
              generalize e'.element = x at b
              cases b <;> cases h5 <;> rfl
            obtain ⟨x, y⟩ := e'
            dsimp only at a hel
            rw [a, hel]
          · rename_i hcc
            rw [hcc] at cc
            exact absurd h5 (cc n el i)
  · rw [validate_unfit hf]
    constructor
    · intro h; cases h; exact .header hf
    · obtain ⟨el, pos⟩ := e
      intro h
      dsimp only at h
      cases h with
      | header => rfl
      | _ => contradiction

/-- The length check of R204 is agreement with the header. -/
theorem bodyFits_iff (body : List Byte) : bodyFits body = true ↔ LengthAgrees body := by
  unfold bodyFits bodyLength LengthAgrees
  have h : byteAt body 7 = 0 ↔ natAt body 7 = 0 := by unfold natAt; rw [← BitVec.toNat_inj]; rfl
  simp only [h, decide_eq_true_eq]
  split <;> simp <;> omega

/-! ### The revolution speed (R77, R106) -/

/-- A rounded quotient with an exact half away from zero, by its remainder. -/
theorem rounded_iff {p n : Nat} (hp : p ≠ 0) : n = (120000000 + p) / (2 * p) ↔
    2 * ((n * p : Nat) - 60000000 : Int).natAbs ≤ p
      ∧ (2 * ((n * p : Nat) - 60000000 : Int).natAbs = p → 60000000 ≤ n * p) := by
  rw [eq_comm, Nat.div_eq_iff (by omega), show n * (2 * p) = 2 * (n * p) by ring]
  generalize n * p = a
  omega

/-- The part's revolution speed is the manual's. -/
theorem revolutionSpeed_iff {period : Nat} {net v : Int} (hn : net ≠ 0) :
    RevolutionSpeed period net v ↔ v = revSpeed period net := by
  unfold RevolutionSpeed revSpeed
  by_cases hp : period = 0
  · simp [hp]
  · simp only [hp, if_false]
    have hr : roundDiv 60000000 period = (((120000000 + period) / (2 * period) : Nat) : Int) := rfl
    rw [hr, ← rounded_iff hp]
    generalize (120000000 + period) / (2 * period) = m
    have hs : net.sign.natAbs = 1 := Int.natAbs_sign_of_ne_zero hn
    constructor
    · rintro ⟨h1, h2⟩; rw [← h2]; exact h1
    · rintro rfl
      have : (net.sign * (m : Int)).natAbs = m := by rw [Int.natAbs_mul, hs, Int.natAbs_natCast, Nat.one_mul]
      exact ⟨by rw [this], this⟩

end Sys2Proof.Machine
end

