-- ==== Sys2Proof/Laws/Windows.lean ====
section
/-! SUPPORT. What the start of a window, a claim, a grant, the end of a wait and a FREE engine's passing on do, said once: the
proofs that the operations do what `StartsWindow`, `EndsWait`, `PassesEngine` and `BeginsStep` say. -/

namespace Sys2Proof.Machine

open Sys2Proof

set_option Elab.async false

namespace State

/-! ### Lines -/

theorem find_modLine (g : Nat) (f : GroupLine → GroupLine) (hf : ∀ l, (f l).spec = l.spec) (ls : List GroupLine) :
    (modLine g f ls).find? (fun l => l.spec.group == g) = (ls.find? (fun l => l.spec.group == g)).map f := by
  induction ls with
  | nil => rfl
  | cons a ls ih =>
    simp only [modLine, List.map_cons] at ih ⊢
    by_cases h : a.spec.group = g
    · simp [h, hf]
    · simp [h, ih]

/-- A changed line of the station, seen as its group's line. -/
theorem line_modGroups (s : State) (st : Station) (g : Nat) (f : GroupLine → GroupLine) (hf : ∀ l, (f l).spec = l.spec) :
    (s.modGroups st (modLine g f)).line st g = (s.line st g).map f := by
  simp only [line, modGroups_noise, Fin.getElem_fin, PerStation.getElem_upd, if_true]
  exact find_modLine g f hf _

theorem line_group {s : State} {st : Station} {g : Nat} {l : GroupLine} (h : s.line st g = some l) : l.spec.group = g := by
  simpa using List.find?_some h

theorem line_congr {s t : State} (st : Station) (g : Nat) (h : t.noise.groups[st.val] = s.noise.groups[st.val]) :
    t.line st g = s.line st g := by simp only [line, Fin.getElem_fin, h]

theorem line_modEngine (s : State) (e : EngineId) (f : Engine → Engine) (st : Station) (g : Nat) :
    (s.modEngine e f).line st g = s.line st g := by simp only [line, modEngine_groups]

theorem enterGroup_line (s : State) (st : Station) (r : GroupResult) :
    (s.enterGroup st r).line st r.group = (s.line st r.group).map (fun l => { l with entered := true }) := by
  unfold enterGroup
  rw [line_modGroups _ _ _ _ (by simp)]
  rfl

/-! ### Grants (R97, R99, R100) -/

theorem grantTo_granted (st : Station) (g : GroupSpec) : (Engine.grantTo st g).Granted st g :=
  ⟨rfl, rfl, rfl, rfl, by simp [Engine.grantTo], rfl, rfl⟩

/-- A grant to a station that holds no engine. -/
theorem grantEngine_eq (s : State) (e : EngineId) (st : Station) (g : Nat) (l : GroupLine) (hl : s.line st g = some l)
    (hh : s.heldEngine st = none) : s.grantEngine e st g =
      (s.modEngine e (fun _ => Engine.grantTo st l.spec)).modGroups st (modLine g (fun l => { l with engine := some e })) := by
  unfold grantEngine; simp only [hl, hh]

theorem grantEngine_grants (s : State) (e : EngineId) (st : Station) (g : Nat) (l : GroupLine) (hl : s.line st g = some l)
    (hh : s.heldEngine st = none) :
    ((s.grantEngine e st g).engine e).Granted st l.spec ∧ (∀ d, d ≠ e → (s.grantEngine e st g).engine d = s.engine d)
      ∧ (s.grantEngine e st g).noise.queue = s.noise.queue ∧ (s.grantEngine e st g).noise.deferred = s.noise.deferred
      ∧ (s.grantEngine e st g).line st g = some { l with engine := some e }
      ∧ ∀ j, j ≠ st → (s.grantEngine e st g).noise.groups[j.val] = s.noise.groups[j.val] := by
  rw [grantEngine_eq s e st g l hl hh]
  refine ⟨by simpa using grantTo_granted st l.spec, fun d hd => by simp [engine_modEngine, hd], by simp, by simp, ?_, ?_⟩
  · rw [line_modGroups _ _ _ _ (by simp), line_modEngine, hl]; rfl
  · intro j hj; simp [hj.symm]

/-- A FREE engine passes on (R100). -/
theorem passEngine_passes (s : State) (e : EngineId) (hf : (s.engine e).state = .free) (hn : (s.engine e).holder = none) :
    s.PassesEngine (s.passEngine e) e where
  free := by intro hq; unfold passEngine; simp [hf, hn, hq]
  head := by
    intro w rest k hq hl hh
    unfold passEngine
    simp only [hf, hq]
    obtain ⟨h1, _, h3, _⟩ := grantEngine_grants ({ s with noise := { s.noise with queue := rest } }) e w.station w.group k hl hh
    exact ⟨h1, h3⟩

/-! ### The end of a wait (R103) -/

theorem unmeasured_endsWait (s : State) (st : Station) (g : Nat) (l : GroupLine) (x : StepCtx) (r : Record)
    (hl : s.line st g = some l) (hx : (s.ctx st).step = some x) (hr : (s.ctx st).record = some r) :
    (s.unmeasured st g).EndsWait st x.index g l r
      ∧ ((s.unmeasured st g).ctx st).step = some { x with unmeasured := true } := by
  simp only [ctx, Fin.getElem_fin] at hx hr
  have hl' : ((s.remark st .engineWait).modStep st (fun x => { x with unmeasured := true })).line st g = some l := by
    rw [line_congr (s := s) st g (by simp), hl]
  have hs : (s.unmeasured st g).seq[st.val].step = some { x with unmeasured := true } := by
    unfold unmeasured; simp only [hl']; simp only [ctx, Fin.getElem_fin]; simp [hx]; split <;> simp [enterGroup, addGroupResult, hx]
  refine ⟨⟨?_, fun hi => ⟨?_, ?_⟩, fun hi => ⟨?_, ?_⟩⟩, by simpa only [ctx, Fin.getElem_fin] using hs⟩
  all_goals unfold unmeasured; simp only [hl', ctx, Fin.getElem_fin, remarks]; simp [hx]
  · split <;> simp [hr, enterGroup, addGroupResult]
  · simp [hi, hr]
  · simp [hi, hl']
  · simp [hi, hr, enterGroup, addGroupResult]
  · simp only [hi, if_true]
    refine (enterGroup_line _ st ⟨g, .notMeasured, none, 0, 0, none⟩).trans ?_
    simp only
    rw [line_modGroups _ _ _ _ (by simp [GroupLine.close]), hl']
    rfl

/-! ### Claims and window starts (R99, R101, R102) -/

theorem unmeasured_other (s : State) (st j : Station) (g : Nat) (hj : j ≠ st) :
    (s.unmeasured st g).noise.groups[j.val] = s.noise.groups[j.val] := by
  unfold unmeasured; dsimp only; (repeat' split) <;> simp [enterGroup, addGroupResult, hj.symm]

theorem unmeasured_noise (s : State) (st : Station) (g : Nat) :
    (∀ e, (s.unmeasured st g).engine e = s.engine e) ∧ (s.unmeasured st g).noise.queue = s.noise.queue
      ∧ (s.unmeasured st g).noise.deferred = s.noise.deferred := by
  refine ⟨fun e => ?_, ?_, ?_⟩
  · unfold unmeasured; dsimp only; (repeat' split) <;> cases e <;> simp [enterGroup, addGroupResult, engine]
  · unfold unmeasured; dsimp only; (repeat' split) <;> simp [enterGroup, addGroupResult]
  · unfold unmeasured; dsimp only; (repeat' split) <;> simp [enterGroup, addGroupResult]

/-- A claim of a station that holds no engine, with engine A FREE, or only B (R99). -/
theorem claimEngine_grants (s : State) (st : Station) (g : Nat) (e : EngineId) (hf : (s.engine e).state = .free)
    (hb : e = .b → s.noise.engineA.state ≠ .free) : s.claimEngine st g = s.grantEngine e st g := by
  unfold claimEngine
  cases e with
  | a => exact if_pos hf
  | b => exact (if_neg (hb rfl)).trans (if_pos hf)

/-- A claim that finds no engine FREE (R99, R102). -/
theorem claimEngine_waits (s : State) (st : Station) (g : Nat) (h : ∀ e, (s.engine e).state ≠ .free) :
    s.claimEngine st g = if s.config.waitLimit = 0 then
        (s.countStation st (fun c => { c with engineWaitsExpired := satAdd c.engineWaitsExpired 1 })).unmeasured st g
      else { s with noise := { s.noise with queue := s.noise.queue ++ [⟨st, g, s.now, s.config.waitLimit⟩] } } := by
  unfold claimEngine
  exact (if_neg (h .a)).trans (if_neg (h .b))

/-- A claim leaves the record and the window's mark but for a wait limit of 0 with no engine FREE. -/
theorem claimEngine_seq (s : State) (st : Station) (g : Nat)
    (h : s.config.waitLimit ≠ 0 ∨ ∃ e, (s.engine e).state = .free) : (s.claimEngine st g).seq = s.seq := by
  unfold claimEngine
  split
  · simp
  · split
    · simp
    · rename_i ha hb
      rw [if_neg]
      rcases h with h | ⟨e, h⟩
      · exact h
      · cases e
        · exact absurd h ha
        · exact absurd h hb

theorem claimEngine_other (s : State) (st j : Station) (g : Nat) (hj : j ≠ st) :
    (s.claimEngine st g).noise.groups[j.val] = s.noise.groups[j.val] := by
  have hg : ∀ e, (s.grantEngine e st g).noise.groups[j.val] = s.noise.groups[j.val] := by
    intro e; unfold grantEngine; split <;> simp [hj.symm]
  unfold claimEngine
  (repeat' split)
  · exact hg _
  · exact hg _
  · exact unmeasured_other _ _ _ _ hj
  · rfl

/-- Everything the start of a window does (R60, R99 to R103). -/
theorem windowStart_startsWindow (s : State) (st : Station) (g : Nat) (l : GroupLine) (x : StepCtx) (r : Record)
    (hl : s.line st g = some l) (hx : (s.ctx st).step = some x) (hu : x.unmeasured = false) (hr : (s.ctx st).record = some r) :
    s.StartsWindow (s.windowStart st g) st x.index g l r := by
  have same : ∀ t : State, t.seq = s.seq → t.remarks st = some r.remarks ∧ (t.ctx st).record.map Record.groups = some r.groups
      ∧ (t.ctx st).step.map StepCtx.unmeasured = some false := by
    intro t ht
    have : t.ctx st = s.ctx st := by simp only [ctx, ht]
    exact ⟨by rw [remarks, this, hr]; rfl, by rw [this, hr]; rfl, by rw [this, hx]; exact congrArg some hu⟩
  by_cases hc : l.status = .closed
  · have e : s.windowStart st g = s := by unfold windowStart; simp only [hl, hc, if_true]
    rw [e]
    exact ⟨fun _ => rfl, fun _ h => absurd hc h, fun _ h => absurd hc h, fun _ h => absurd hc h, fun h => absurd hc h,
      fun h => absurd hc h, fun _ => same s rfl, fun _ _ => rfl⟩
  obtain ⟨u, hu'⟩ : ∃ u, u = s.modGroups st (modLine g (fun l => { l with status := .opened })) := ⟨_, rfl⟩
  have ul : u.line st g = some { l with status := .opened } := by rw [hu', line_modGroups _ _ _ _ (by simp), hl]; rfl
  have ue : ∀ e, u.engine e = s.engine e := by intro e; rw [hu']; simp
  have uq : u.noise.queue = s.noise.queue := by rw [hu']; rfl
  have ud : u.noise.deferred = s.noise.deferred := by rw [hu']; rfl
  have uh : u.heldEngine st = s.heldEngine st := by rw [hu']; rfl
  have us : u.seq = s.seq := by rw [hu']; rfl
  have uo : ∀ j : Station, j ≠ st → u.noise.groups[j.val] = s.noise.groups[j.val] := by intro j hj; rw [hu']; simp [hj.symm]
  have uc : u.config = s.config := by rw [hu']; rfl
  have un : u.noise = { s.noise with groups := u.noise.groups } := by rw [hu']; rfl
  have uk : u.counters = s.counters := by rw [hu']; rfl
  have unow : u.now = s.now := by rw [hu']; rfl
  have key : s.windowStart st g = match l.engine with
      | some e =>
        if (u.engine e).state = .parked then u.modEngine e (fun x => { x with state := .accumulating, revOpen := false })
        else if (u.engine e).isComputing then u
        else u.claimEngine st g
      | none =>
        match u.heldEngine st with
        | some e => if (u.engine e).isComputing then u.setDeferred st (some g) else u.claimEngine st g
        | none => u.claimEngine st g := by
    unfold windowStart; simp only [hl, if_neg hc, hu'] <;> (try rfl)
  rw [key]
  refine ⟨fun h => absurd h hc, ?_, ?_, ?_, ?_, ?_, ?_, ?_⟩
  · intro e _ he hp
    simp only [he, ue, hp, if_true] at ul ⊢
    refine ⟨by simp [ue], fun d hd => by simp [engine_modEngine, hd, ue], by simp [uq], by simp [ud], ?_⟩
    rw [line_modEngine, ul]
  · intro e _ he hp
    have : (s.engine e).state ≠ .parked := by intro h; simp [Engine.isComputing, h] at hp
    simp only [he, ue, if_neg this, hp, if_true] at ul ⊢
    exact ⟨un, ul⟩
  · intro e _ he hh hp
    simp only [he, uh, hh, ue, hp, if_true] at ul ⊢
    refine ⟨?_, ?_⟩
    · rw [setDeferred_noise, un]
    · rw [line_congr (s := u) st g (by simp), ul]
  · intro _ he hh e hf hb
    simp only [he, uh, hh] at ul ⊢
    have hf' : (u.engine e).state = .free := by rw [ue]; exact hf
    have hb' : e = .b → u.noise.engineA.state ≠ .free := by intro h; have := ue .a; simp only [engine] at this; rw [this]; exact hb h
    rw [claimEngine_grants u st g e hf' hb']
    obtain ⟨h1, h2, h3, h4, h5, _⟩ := grantEngine_grants u e st g _ ul (uh.trans hh)
    exact ⟨h1, fun d hd => (h2 d hd).trans (ue d), h3.trans uq, h4.trans ud, h5⟩
  · intro _ he hh hf
    simp only [he, uh, hh] at ul ⊢
    rw [claimEngine_waits u st g (by intro e; rw [ue]; exact hf e), uc]
    split
    · rename_i h0
      obtain ⟨k1, k2, k3⟩ := unmeasured_noise (u.countStation st (fun c => { c with engineWaitsExpired := satAdd c.engineWaitsExpired 1 })) st g
      have sc : (u.countStation st (fun c => { c with engineWaitsExpired := satAdd c.engineWaitsExpired 1 })).ctx st = s.ctx st := by
        simp [ctx, us]
      obtain ⟨m1, m2⟩ := unmeasured_endsWait (u.countStation st (fun c => { c with engineWaitsExpired := satAdd c.engineWaitsExpired 1 })) st g
        _ x r (by rw [line_congr (s := u) st g (by simp), ul]) (by rw [sc, hx]) (by rw [sc, hr])
      refine ⟨fun e => (k1 e).trans ?_, k3.trans (by simpa using ud), fun h => absurd h0 h, fun _ => ⟨k2.trans (by simpa using uq), ?_, ?_, m1⟩⟩
      · rw [← ue]; cases e <;> rfl
      · rw [m2]; rfl
      · simp [uk, satAdd]
    · rename_i h0
      refine ⟨fun e => ?_, ud, fun _ => ⟨by simp [uq, unow], ?_⟩, fun h => absurd h h0⟩
      · rw [← ue]; cases e <;> rfl
      · exact ul
  · intro h
    apply same
    have cl : (s.config.waitLimit ≠ 0 ∨ ∃ e, (s.engine e).state = .free) → (u.claimEngine st g).seq = s.seq := by
      intro h
      rw [claimEngine_seq u st g ?_, us]
      rcases h with h | ⟨e, h⟩
      · exact .inl (by rw [uc]; exact h)
      · exact .inr ⟨e, by rw [ue]; exact h⟩
    rcases h with h | h | h | ⟨e, he, h⟩ | ⟨e, he, hh, h⟩
    · (repeat' split) <;> simp [us, cl (.inl h)]
    · exact absurd h hc
    · (repeat' split) <;> simp [us, cl (.inr h)]
    · simp only [he, ue]
      rcases h with h | h
      · simp [h, us]
      · split
        · simp [us]
        · simp [us]
    · simp only [he, uh, hh, ue, h, if_true]; simp [us]
  · intro j hj
    (repeat' split)
    · simp [uo j hj]
    · exact uo j hj
    · exact (claimEngine_other u st j g hj).trans (uo j hj)
    · simp [uo j hj]
    · exact (claimEngine_other u st j g hj).trans (uo j hj)
    · exact (claimEngine_other u st j g hj).trans (uo j hj)

/-- What the beginning of a step does to the Noise Analyser and the record (R52, R60). -/
theorem beginStep_beginsStep (s : State) (st : Station) (i : Nat) (spec : StepSpec) (r : Record)
    (hr : (s.ctx st).record = some r) : s.BeginsStep (s.beginStep st i spec) st i spec r where
  window := by
    rintro d g b k l rfl hl
    have h := windowStart_startsWindow
      (s.modCtx st (fun c => { c with step := some ⟨i, .dwell d (some g) b k, firstPhase (.dwell d (some g) b k), s.now, false⟩ })) st g l
      ⟨i, .dwell d (some g) b k, firstPhase (.dwell d (some g) b k), s.now, false⟩ r hl (by simp [ctx]) rfl
      (by simpa [ctx] using hr)
    exact ⟨h.closed, h.resumes, h.computes, h.defers, h.claims, h.waits, h.kept, h.others⟩
  plain := by
    intro h
    simp only [ctx, Fin.getElem_fin] at hr
    cases spec with
    | dwell d w b k =>
      cases w with
      | none => simp [beginStep, remarks, ctx, hr]
      | some g => exact absurd rfl (h d g b k)
    | _ => simp [beginStep, beginLeak, remarks, ctx, hr]

/-- A step that ends without touching the Noise Analyser, with a next one in the chain (R52). -/
theorem endStep_beginsStep (s : State) (st : Station) (o : StepOutcome) (x : StepCtx) (spec : StepSpec) (r : Record)
    (hx : (s.ctx st).step = some x) (hr : (s.ctx st).record = some r) (hn : s.nextIs st x.index spec) :
    s.BeginsStep (s.endStep st o) st (x.index + 1) spec r := by
  rw [endStep_eq _ _ _ _ hx]
  have hn' : (s.finishStep st o none).nextIs st x.index spec := by
    unfold nextIs at *; rw [recipe_of_test (s := s)]; exact hn; simp
  rw [nextStep_begins _ _ _ _ hn']
  have h := beginStep_beginsStep (s.finishStep st o none) st (x.index + 1) spec
    { r with steps := r.steps ++ [⟨x.index, x.spec.kind, o, none⟩] }
    (by simp only [ctx, Fin.getElem_fin] at hr; rw [finishStep_eq _ _ _ _ _ hx]; simp [ctx, addStepEntry, hr])
  rw [finishStep_eq _ _ _ _ _ hx] at h ⊢
  refine ⟨fun d g b k l hs hl => ?_, h.plain⟩
  have w := h.window d g b k l hs hl
  refine ⟨w.closed, w.resumes, w.computes, w.defers, w.claims, fun h1 h2 h3 h4 => ?_, w.kept, w.others⟩
  obtain ⟨a, b', c, d'⟩ := w.waits h1 h2 h3 h4
  refine ⟨a, b', c, fun h0 => ?_⟩
  obtain ⟨p, q, n, e⟩ := d' h0
  refine ⟨p, q, n, ⟨e.remark.trans ?_, fun hi => ?_, fun hi => ?_⟩⟩
  · simp only [Record.addRemark]; (repeat' split) <;> rfl
  · exact e.goesOn hi
  · exact e.closes hi

/-- The part of R133 that `LeakCircuit.measured` spells is what a sample of MEASURE does. -/
theorem takeLeakSample_measured (c : LeakCircuit) (n : Nat) (q : StQuantity) (x : Int) :
    takeLeakSample c n q x = c.measured n q x := by
  cases q <;> simp only [takeLeakSample, LeakCircuit.measured, blockSums]
  all_goals
    split
    · rename_i h
      have : (_ + 1 ≤ n) := h
      simp [this]
    · rename_i h
      have : ¬ (_ + 1 ≤ n) := h
      simp [this]

end State
end Sys2Proof.Machine
end

