-- ==== Sys2Proof/Tests/Slice0.lean ====
section
/-! SUPPORT. Tests of the model on small states, with expected values worked out in the manual or by hand from its rules,
and for each statement with hypotheses a state and operands that meet them. -/

namespace Sys2Proof.Tests

open Sys2Proof Sys2Proof.Machine

/-! Each of many small evaluations in a thread of its own would take the memory of all of them at once. -/
set_option Elab.async false

/-! ### Small states -/

/-- The state a command leaves. -/
def after (c : Instr) (s : State) : State :=
  match exec c s with
  | .next t => t
  | .fault _ | .refused _ => s

/-- The payload of the reply in the slot. -/
def replied (s : State) : List Byte := (s.link.slot.map Reply.payload).getD []

/-- A recipe of variant 3,210 with this chain. -/
def aRecipe (steps : List StepSpec) (groups : List GroupSpec := []) (windows : List GroupWindows := [])
    (leak : Option LeakSpec := none) : Recipe :=
  { body := [], variant := 3210, revision := 7, cls := .production, stopOnFail := false, steps := steps, groups := groups
    leak := leak, overrides := [], windows := windows, fingerprint := 0x1234 }

/-- A test of it from the private slot, started at line time 0. -/
def aTest (r : Recipe) : TestCtx :=
  { testTag := 9, text := [0x41], variant := 3210, ref := .transient, recipe := r, verification := false
    thresholds := effective defaultThresholds [], start := 0, cause := none, number := none }

/-- The record in progress of that test. -/
def aRecord : Record :=
  { number := none, station := 0, testTag := 9, text := [0x41], variant := 3210, recipeVariant := 3210, revision := 7
    fingerprint := 0x1234, transient := true, verification := false, start := 0, endTime := none, verdict := none
    cause := none, steps := [], groups := [], leaks := [], checks := [], remarks := [], remarksFull := false }

/-- Station 1's context in this state. -/
def inState (x : StationState) (r : Recipe) : StationCtx :=
  { state := x, enabled := true, test := some (aTest r), step := none, stopStart := none, record := some aRecord
    privateSlot := some r }

/-- Line time `ms`. -/
def at_ (ms : LineTime) (s : State) : State := { s with clock := ⟨ms, 0⟩ }

/-- Station 1 RUNNING step 1 of the recipe, begun at line time 0, in this phase; the drive enabled; line time `ms`. -/
def running (r : Recipe) (spec : StepSpec) (p : StepPhase) (ms : LineTime) : State :=
  at_ ms { State.reset with
    seq := State.reset.seq.upd 0 (fun _ => { inState .running r with step := some ⟨1, spec, p, 0, false⟩ })
    drive := State.reset.drive.upd 0 (fun d => { d with enable := true }) }

/-- Station 1 STOPPING since line time 0; line time `ms`. -/
def stopping (ms : LineTime) : State :=
  at_ ms { State.reset with
    seq := State.reset.seq.upd 0 (fun _ => { inState .stopping (aRecipe []) with stopStart := some 0 })
    drive := State.reset.drive.upd 0 (fun d => { d with enable := true, rate := 1000 }) }

/-- A plain DWELL. -/
def aDwell : StepSpec := .dwell 1000 none false 0

/-- The chain of one step and a DWELL after it. -/
def thenDwell (spec : StepSpec) : Recipe := aRecipe [spec, aDwell]

/-- A group specification of two orders. -/
def aGroup : GroupSpec :=
  { group := 0, k := 64, flank := .drive, flankMin := 200, tolerance := 20, discardLimit := 32
    orders := [⟨32, 126000⟩, ⟨11, 100⟩], peakLimit := some 2600 }

/-- A window of that group. -/
def aWindow (extend : Bool) : StepSpec := .dwell 1000 (some 0) extend 60000

/-- The group table's line with the group open and an engine of its own. -/
def aLine (e : Option EngineId) : GroupLine := ⟨aGroup, ⟨1, 1⟩, .opened, none, none, e, false⟩

/-- The recipe of one window of the group, then a DWELL. -/
def windowRecipe (extend : Bool) : Recipe := aRecipe [aWindow extend, aDwell] [aGroup] [⟨1, 1⟩]

/-- Engine A held by station 1 for the group in this state. -/
def anEngine (x : EngineState) (accepted discarded : Nat) : Engine :=
  { Engine.initial with state := x, holder := some 0, group := some 0, k := some 64, accepted := accepted
                        discarded := discarded }

/-- Station 1 RUNNING that window with engine A. -/
def inWindow (extend : Bool) (p : StepPhase) (x : Engine) (ms : LineTime) : State :=
  { running (windowRecipe extend) (aWindow extend) p ms with
    noise := { Noise.initial with engineA := x, groups := Noise.initial.groups.upd 0 (fun _ => [aLine (some .a)]) } }

/-- The leak specification of the manual's verification run. -/
def aLeak : LeakSpec :=
  { testPressure := 50000, fillTolerance := 2000, fillTime := 3000, settleTime := 8000, grossDrop := 5000
    measureTime := 10000, volume := 18000, leakLimit := 1200, riseLimit := 300, ventTime := 1500 }

/-- Station 1 RUNNING a LEAK step in this leak phase, begun at line time 0, with this held LEAK_PRESS. -/
def inLeak (p : LeakPhase) (press : Int) (ms : LineTime) : State :=
  let s := running (aRecipe [.leak, aDwell] [] [] (some aLeak)) .leak .leak ms
  { s with
    leak := { s.leak with circuits := s.leak.circuits.upd 0 (fun c => { c with
      phase := p, fillOpen := p.fillOpen, ventOpen := p.ventOpen, phaseStart := some 0, stepIndex := some 1 }) }
    mon := { s.mon with stations := s.mon.stations.upd 0 (fun v => v.set 4 { QuantityMon.initial with held := press }) } }

/-- A record the store holds under this number. -/
def stored (n : Nat) : Record := { aRecord with number := some n, endTime := some 5, verdict := some .pass }

/-- The store with these numbers, and the next. -/
def holding (ns : List Nat) (next : Nat) : State :=
  { State.reset with store := { State.reset.store with records := ns.map stored, next := some next } }

/-- Way 0 of set 2 holds variant 3,210's recipe with this lock count and statistics. -/
def loaded (lock tests fails : Nat) (s : State := State.reset) : State :=
  { s with table := s.table.set 2 ((s.table[2]).set 0 (some ⟨thenDwell aDwell, false, lock, 0, tests, fails⟩)) }

/-- The receiver part way into a frame. -/
def receiving (frame : List Byte) (expected : Option Nat) : State :=
  { State.reset with link := { State.reset.link with
      recv := .receiving, frame := frame, expected := expected, gapStart := some 0 } }

/-- A reply in the slot and on the line. -/
def busy (s : State) : State :=
  { s with link := { s.link with slot := some ⟨0x81, 1, [0]⟩, tx := .reply } }

/-! ### Numbers and formats -/

/-- R202: the CRC of the ASCII digits 1 to 9. -/
theorem test_crc_check_value : crc16 [0x31, 0x32, 0x33, 0x34, 0x35, 0x36, 0x37, 0x38, 0x39] = 0x29B1 := by decide +kernel

/-- R18's worked identity: check byte 86 is right, 85 is not. -/
theorem test_identity_check_byte :
    let f : SttFields := ⟨1, 0, 0, 3210, 86, "GA24-00117".toList.map (fun c => byteOf c.toNat), []⟩
    checkByteRight f = true ∧ checkByteRight { f with checkByte := 85 } = false := by decide +kernel

/-- R112's worked averages, R66's worked means: an exact half goes away from zero. -/
theorem test_round_half_away :
    roundDiv (-40) 16 = -3 ∧ roundDiv 5130 20 = 257 ∧ roundDiv 40125 10 = 4013 ∧ roundDiv (-25) 10 = -3 := by decide +kernel

/-- R77's worked speeds, for a full revolution forward, and its sign in reverse. -/
theorem test_rev_speed :
    revSpeed 50000 512 = 1200 ∧ revSpeed 66667 512 = 900 ∧ revSpeed 14000 512 = 4286 ∧ revSpeed 50000 (-512) = -1200 := by
  decide +kernel

/-- R113: S[0], S[16], S[32], S[64] and S[96]; C[16]. -/
theorem test_sine_table : sine 0 = 0 ∧ sine 16 = 23170 ∧ sine 32 = 32767 ∧ sine 64 = 0 ∧ sine 96 = -32767
    ∧ cosine 16 = 23170 := by decide +kernel

/-- The worked impulse of 256 at bin 0: level 400 at every order, peak-to-peak 256. -/
theorem test_impulse_level :
    let avg : List Int := 256 :: List.replicate 127 0
    levelOf 1 avg = ⟨1, 400, false⟩ ∧ levelOf 40 avg = ⟨40, 400, false⟩ ∧ peakToPeak avg = 256 := by decide +kernel

/-- The worked impulses a quarter-turn apart at order 1: A 15,499,731, level 739. -/
theorem test_quarter_turn_level :
    let avg : List Int := (256 :: List.replicate 15 0) ++ (256 :: List.replicate 111 0)
    amplitude 1 avg = 15499731 ∧ levelOf 1 avg = ⟨1, 739, false⟩ := by decide +kernel

/-- The worked decay arithmetic: Q 542; without the temperature stage it would be 1,083. -/
theorem test_leak_figures : leakFigures aLeak 101325 800000 799832 37600 37576
    = ⟨50000, 49990, 2350, 2349, 151320, 5, 9840, 542, false⟩ ∧ leakOutcome aLeak 542 = .pass
    ∧ (leakFigures aLeak 101325 800000 799832 37600 37600).q = 1083 := by decide +kernel

/-- Records c, d and h of the worked verdicts: FAIL, FAIL and ABORTED. -/
theorem test_verdicts :
    { aRecord with groups := [⟨0, .incomplete, some .short, 9, 0, none⟩], leaks := [⟨.pass, none, none⟩]
                   checks := [⟨1, .torque, -3, false⟩] }.compose = .fail
    ∧ { aRecord with groups := [⟨0, .notMeasured, none, 0, 0, none⟩], leaks := [⟨.rise, none, none⟩] }.compose = .fail
    ∧ { aRecord with cause := some .estop, steps := [⟨7, .leak, .failed, some .cutShort⟩] }.compose = .aborted := by
  decide +kernel

/-! ### Operands no frame can carry -/

/-- A text longer than its length byte says is refused. -/
theorem test_ill_formed_stt_text : (Instr.stt 1 ⟨1, 0, 0, 1, 0, List.replicate 256 0x41, []⟩).wf = false := by
  decide +kernel

/-- An STT payload over 1,016 bytes is refused. -/
theorem test_ill_formed_stt_payload : (Instr.stt 1 ⟨1, 0, 1, 1, 0, [0x41], List.replicate 1006 0⟩).wf = false := by
  decide +kernel

/-- An LDR body over 1,016 bytes is refused. -/
theorem test_ill_formed_ldr : (Instr.ldr 1 (List.replicate 1017 0)).wf = false := by decide +kernel

/-- A LIM list that does not fit a frame is refused. -/
theorem test_ill_formed_lim : (Instr.lim 1 (List.replicate 60 ⟨1, 0, 0, 0, 0⟩)).wf = false := by decide +kernel

/-- An MSK list over its count byte is refused. -/
theorem test_ill_formed_msk : (Instr.msk 1 (List.replicate 256 ⟨1, 1, 1⟩)).wf = false := by decide +kernel

/-- A CLF list over its count byte is refused. -/
theorem test_ill_formed_clf : (Instr.clf 1 1 (List.replicate 256 ⟨1, 1⟩)).wf = false := by decide +kernel

/-! ### Events of the part -/

/-- R27, R199: the strap and the emergency-stop input are read, a running test is gone, no change flag is set. -/
theorem test_power_on_reset :
    let t := after (.powerOnReset ⟨true, .baud460800, Vector.replicate 6 false⟩) (running (thenDwell aDwell) aDwell .timed 5)
    t.stateOf 0 = .idle ∧ t.pins.estop = true ∧ t.link.speed = .baud460800 ∧ t.counters.changed[(0 : Station)] = false := by
  decide +kernel

/-- R26: the restart discards a RUNNING test, counts it ABORTED and flags every station. -/
theorem test_restart :
    let s := busy (running (thenDwell aDwell) aDwell .timed 5)
    let t := after .restart { s with link := { s.link with restartPending := true } }
    t.stateOf 0 = .idle ∧ t.counters.live.stations[(0 : Station)].aborted = 1 ∧ t.counters.changed[(5 : Station)] = true
      ∧ t.now = 5 ∧ t.link.tx = .free := by decide +kernel

/-- R15: a RUNNING station is completed and deposited with cause ESTOP and verdict ABORTED; the axle is not ramped. -/
theorem test_emergency_stop :
    let t := after (.emergencyStop []) (running (thenDwell aDwell) aDwell .timed 5)
    t.stateOf 0 = .done ∧ t.pins.estop = true ∧ t.drive[(0 : Station)].enable = false
      ∧ t.store.records.map (fun r => (r.number, r.cause, r.verdict)) = [(some 1, some .estop, some .aborted)] := by
  decide +kernel

/-- R16: the release changes the level alone. -/
theorem test_emergency_stop_release :
    let s := { State.reset with pins := { State.reset.pins with estop := true } }
    after .emergencyStopRelease s = State.reset := by decide +kernel

/-- R8: a drive fault drops the enable without a ramp and stops the test with its cause and an NST. -/
theorem test_drive_fault :
    let t := after (.driveFault 0 true) (running (thenDwell aDwell) aDwell .timed 5)
    t.stateOf 0 = .stopping ∧ t.drive[(0 : Station)].enable = false
      ∧ t.link.tx = .notice ⟨false, .nst 0 .stopping (some .driveFault) none⟩ := by decide +kernel

/-- R82, R85: OIL_TEMP above the default high alarm of 13,000 cuts the RUNNING test at that sample; at it, nothing does. -/
theorem test_monitor_sample_alarm :
    let s := running (thenDwell aDwell) aDwell .timed 5
    (after (.monitorSample (.oilTemp 0 (.value 13001))) s).stateOf 0 = .stopping
      ∧ (after (.monitorSample (.oilTemp 0 (.value 13000))) s).stateOf 0 = .running := by decide +kernel

/-- R79: a value beyond the range is clamped to its nearer end, and latches nothing at an IDLE station. -/
theorem test_monitor_sample_clamps :
    let m := (after (.monitorSample (.oilTemp 0 (.value 20000))) State.reset).quantity 0 .oilTemp
    m.held = 15000 ∧ m.current.highAlarm = true ∧ m.latched = .none := by decide +kernel

/-- R81: the tenth invalid sample in a row makes LOST hold, and the held value stays. -/
theorem test_quantity_lost :
    let s := { State.reset with mon := { State.reset.mon with supply := ⟨650000, false, 9, .none, .none⟩ } }
    let m := (after (.quantityLost (.supply .noData)) s).mon.supply
    m.held = 650000 ∧ m.invalid = 10 ∧ m.current.lost = true ∧ m.latched.lost = true := by decide +kernel

/-- R66's worked CHECK: the tenth sample makes the sum 40,125; 4,013 is 13 away from 4,000 and fails the tolerance 12. -/
theorem test_check_averaged :
    let spec : StepSpec := .check .oilTemp 100 .within 4000 12
    let t := after (.checkAveraged (.oilTemp 0 (.value 4013))) (running (thenDwell spec) spec (.averaging 36112 9) 100)
    ((t.ctx 0).record.map Record.checks) = some [⟨1, .oilTemp, 4013, false⟩]
      ∧ (t.ctx 0).step = some ⟨2, aDwell, .timed, 100, false⟩ := by decide +kernel

/-- R11: the twentieth standstill sample completes a STOPPING station. -/
theorem test_standstill_confirmed :
    let s := stopping 500
    let t := after (.standstillConfirmed 0 false) { s with drive := s.drive.upd 0 (fun d => { d with standstill := 19 }) }
    t.stateOf 0 = .done ∧ (t.store.records.map Record.endTime) = [some 500] := by decide +kernel

/-- R134 to R138: the thousandth AIR_TEMP sample ends MEASURE with the worked figures of the verification run. -/
def atMeasureEnd : State :=
  let s := inLeak .measure 0 18000
  { s with leak := { s.leak with circuits := s.leak.circuits.upd 0 (fun c => { c with
      pCount := 1000, tCount := 999, pStart := 799872, pEnd := 799712, tStart := 32000, tEnd := 30000 }) } }

/-- The verification run's leak record: Q 1,083, PASS, and the step goes to VENT. -/
theorem test_measure_end :
    let t := after (.measureEnd (.airTemp 0 (.value 2000))) atMeasureEnd
    (t.ctx 0).record.map Record.leaks
        = some [⟨.pass, none, some ⟨49992, 49982, 2000, 2000, 151307, 10, 9840, 1083, false⟩⟩]
      ∧ (t.circuit 0).phase = .vent ∧ (t.circuit 0).ventOpen = true := by decide +kernel

/-- R69's worked ramp: from 99,900 the last update is short; −150 hundredths show as −1 rpm. -/
theorem test_drive_update :
    let s := { State.reset with drive := State.reset.drive.upd 0 (fun _ => ⟨99900, 100000, 300, 0, true, 0⟩) }
    (after (.driveUpdate 0) s).drive[(0 : Station)].setpoint = 100000 ∧ (⟨-150, 0, 0, 0, true, 0⟩ : Drive).rpm = -1 := by
  decide +kernel

/-- R77: the second index of a station after 512 lines and 50,000 µs: the next SPEED sample reads 1,200. -/
theorem test_encoder_index :
    let s := at_ 60 { State.reset with enc := State.reset.enc.upd 0 (fun _ => ⟨some ⟨10, 250⟩, none, 0, 512, 0⟩) }
    ((after (.monitorSample (.speed 0 false)) (after (.encoderIndex 0 250 (.value 0)) s)).quantity 0 .speed).held = 1200 := by
  decide +kernel

/-- Station 1 one accepted revolution short of K 64, at an index that closes a good revolution of 50,000 µs. -/
def lastRevolution : State :=
  let s := inWindow true .timed { anEngine .accumulating 63 1 with revOpen := true, samples := Vector.replicate 128 (some 7) } 60
  { s with
    enc := s.enc.upd 0 (fun _ => ⟨some ⟨10, 0⟩, none, 0, 512, 0⟩)
    drive := s.drive.upd 0 (fun d => { d with setpoint := 120000, target := 120000 })
    mon := { s.mon with stations := s.mon.stations.upd 0 (fun v => v.set 2 { QuantityMon.initial with held := 300 }) } }

/-- R107: the 64th accepted revolution takes the engine to COMPUTING at that index. -/
theorem test_k_reached :
    let t := after (.kReached 0 0 (.value 5)) lastRevolution
    t.noise.engineA.state = .computing 60 ∧ t.noise.engineA.accepted = 64 ∧ t.noise.engineA.bins[(3 : Fin 128)] = 7
      ∧ t.counters.live.stations[(0 : Station)].revsAccepted = 1 := by decide +kernel

/-- The same index with one line missing and one discard below the limit. -/
def lastDiscard : State :=
  let s := lastRevolution
  { s with
    noise := { s.noise with engineA := { s.noise.engineA with discarded := 31 } }
    enc := s.enc.upd 0 (fun e => { e with net := 511 }) }

/-- R108: the discard that reaches the limit closes the group INCOMPLETE UNSTEADY and frees the engine. -/
theorem test_group_unsteady :
    let t := after (.groupUnsteady 0 0 (.value 5)) lastDiscard
    t.noise.engineA.state = .free ∧ t.counters.live.stations[(0 : Station)].encoderFaults = 1
      ∧ (t.ctx 0).record.map Record.groups = some [⟨0, .incomplete, some .unsteady, 63, 32, none⟩] := by decide +kernel

/-- R117: a completion with all sums 0 is a PASS with levels 0, and engine A is FREE again. -/
theorem test_engine_completion :
    let t := after (.engineCompletion .a) (inWindow true .timed (anEngine (.computing 0) 64 2) 3)
    t.noise.engineA.state = .free
      ∧ (t.ctx 0).record.map Record.groups
        = some [⟨0, .pass, none, 64, 2, some ⟨[⟨32, 0, false⟩, ⟨11, 0, false⟩], 0⟩⟩] := by decide +kernel

/-- Station 1 at the head of the wait queue with engine A FREE. -/
def engineWaiting : State :=
  let s := inWindow true .timed .initial 5
  { s with noise := { s.noise with
      queue := [⟨0, 0, 1, 60000⟩], groups := s.noise.groups.upd 0 (fun _ => [aLine none]) } }

/-- R100: the engine goes to the head of the queue. -/
theorem test_engine_grant :
    let t := after (.engineGrant .a) engineWaiting
    t.noise.queue = [] ∧ t.noise.engineA.holder = some 0 ∧ t.noise.engineA.k = some 64
      ∧ t.noise.engineA.state = .accumulating := by decide +kernel

/-- Station 1 with a deferred claim and no engine. -/
def claimDeferred : State :=
  let s := engineWaiting
  { s with noise := { s.noise with queue := [], deferred := s.noise.deferred.upd 0 (fun _ => some 0) } }

/-- R101: the deferred claim takes engine A when it is FREE. -/
theorem test_deferred_claim :
    let t := after (.deferredClaim 0) claimDeferred
    t.noise.deferred[(0 : Station)] = none ∧ t.noise.engineA.holder = some 0 := by decide +kernel

/-- R102, R103: at the last window the expired wait closes the group NOT_MEASURED and leaves an ENGINE_WAIT remark. -/
theorem test_engine_wait_expiry :
    let t := after (.engineWaitExpiry 0) (at_ 60001 engineWaiting)
    t.noise.queue = [] ∧ t.counters.live.stations[(0 : Station)].engineWaitsExpired = 1
      ∧ (t.ctx 0).record.map (fun r => (r.groups, r.remarks)) = some ([⟨0, .notMeasured, none, 0, 0, none⟩], [.engineWait]) := by
  decide +kernel

/-- A RAMP to 1,500 rpm. -/
def aRamp : StepSpec := .ramp 1500 250 6000 10 500 8000

/-- R58: the RAMP times out FAILED and the test stops without a cause; R71: the drive ramps to 0 at the line stop rate. -/
theorem test_ramp_timeout :
    let t := after (.rampTimeout 0) (running (thenDwell aRamp) aRamp .ramping 8000)
    t.stepEntries 0 = some [⟨1, .ramp, .failed, some .rampTimeout⟩] ∧ t.stateOf 0 = .stopping
      ∧ t.drive[(0 : Station)].rate = 1000 ∧ t.drive[(0 : Station)].enable = true := by decide +kernel

/-- R59: the duration ends a plain DWELL, and the next step begins at that event. -/
theorem test_dwell_duration_expiry :
    let t := after (.dwellDurationExpiry 0) (running (thenDwell aDwell) aDwell .timed 1000)
    t.stepEntries 0 = some [⟨1, .dwell, .done, none⟩] ∧ t.stepIndex 0 = some 2 := by decide +kernel

/-- R61: the extension times out FAILED; R119: fewer than 16 revolutions close the group SHORT without levels. -/
theorem test_extend_timeout :
    let t := after (.extendTimeout 0) (inWindow true (.extended 1000) (anEngine .accumulating 15 0) 61000)
    t.stepEntries 0 = some [⟨1, .dwell, .failed, some .extendTimeout⟩]
      ∧ (t.ctx 0).record.map Record.groups = some [⟨0, .incomplete, some .short, 15, 0, none⟩] := by decide +kernel

/-- A GATE on OIL_TEMP that goes on at its timeout. -/
def aGate (action : OnTimeout) : StepSpec := .gate .oilTemp .atLeast 4000 1000 5000 action

/-- R63: a GATE's timeout with CONTINUE: TIMED_OUT, a remark, and the chain goes on. -/
theorem test_gate_timeout :
    let t := after (.gateTimeout 0) (running (thenDwell (aGate .proceed)) (aGate .proceed) .waiting 5000)
    t.stepEntries 0 = some [⟨1, .gate, .timedOut, none⟩] ∧ t.stepIndex 0 = some 2 ∧ t.remarks 0 = some [.gateTimeout] := by
  decide +kernel

/-- R72: the stop timeout completes the station with its remark, and not a millisecond before. -/
theorem test_stop_timeout :
    (after (.stopTimeout 0) (stopping 30000)).store.records.map Record.remarks = [[.stopTimeout]]
      ∧ after (.stopTimeout 0) (stopping 29999) = stopping 29999 := by decide +kernel

/-- R126: the standstill wait expires after 10,000 ms: INCOMPLETE NOT_STANDSTILL, and the step ends without a VENT. -/
theorem test_standstill_timer_expiry :
    let t := after (.standstillTimerExpiry 0) (inLeak .standstillWait 0 10000)
    (t.ctx 0).record.map Record.leaks = some [⟨.incomplete, some .notStandstill, none⟩] ∧ t.stepIndex 0 = some 2
      ∧ (t.circuit 0).phase = .none := by decide +kernel

/-- R130: a fill at 47,999 is below 48,000 and fails; at 52,000 it is in the band. -/
theorem test_fill_timer_expiry :
    ((after (.fillTimerExpiry 0) (inLeak .fill 47999 3000)).ctx 0).record.map Record.leaks = some [⟨.failFill, none, none⟩]
      ∧ ((after (.fillTimerExpiry 0) (inLeak .fill 52000 3000)).circuit 0).phase = .settle := by decide +kernel

/-- R132: the settle time's end begins MEASURE with both valves closed. -/
theorem test_settle_timer_expiry :
    let c := (after (.settleTimerExpiry 0) (inLeak .settle 50000 8000)).circuit 0
    c.phase = .measure ∧ c.fillOpen = false ∧ c.ventOpen = false ∧ c.phaseStart = some 8000 := by decide +kernel

/-- R140: the vent time's end returns the step DONE. -/
theorem test_vent_timer_expiry :
    let t := after (.ventTimerExpiry 0) (inLeak .vent 0 1500)
    t.stepEntries 0 = some [⟨1, .leak, .done, none⟩] ∧ (t.circuit 0).phase = .none := by decide +kernel

/-- Station 1 at the head of the supply queue, no condition of SUPPLY holding. -/
def supplyWaiting : State :=
  let s := inLeak .waitSupply 0 700
  { s with leak := { s.leak with queue := [0, 3] } }

/-- R128: the head is granted, its fill valve opens, the grant is counted. -/
theorem test_supply_grant :
    let t := after .supplyGrant supplyWaiting
    t.leak.grant = some 0 ∧ t.leak.queue = [3] ∧ (t.circuit 0).fillOpen = true ∧ (t.circuit 0).phaseStart = some 700
      ∧ t.counters.live.globals.supplyGrants = 1 := by decide +kernel

/-- Station 1 waits to deposit its closed record, below this store. -/
def depositing (ns : List Nat) (next : Nat) : State :=
  let s := holding ns next
  { s with
    store := { s.store with deposit := [0] }
    seq := s.seq.upd 0 (fun _ => { inState .completing (aRecipe []) with
      record := some { aRecord with endTime := some 9, verdict := some .fail } }) }

/-- R13: the deposit takes the next number, counts the verdict, empties the private slot and gives the NST. -/
theorem test_deposit :
    let t := after .deposit (depositing [658] 659)
    t.store.records.map Record.number = [some 658, some 659] ∧ t.store.next = some 660 ∧ t.stateOf 0 = .done
      ∧ t.counters.live.stations[(0 : Station)].failed = 1 ∧ (t.ctx 0).privateSlot = none
      ∧ t.link.tx = .notice ⟨false, .nst 0 .done none (some (.fail, 659))⟩ := by decide +kernel

/-- The worked snapshot intervals: interval 600 s, timer since 1,350,000, snapshot 18. -/
def snapshotTimer (ms : LineTime) : State :=
  let s := at_ ms State.reset
  { s with
    config := { s.config with autoInterval := 600 }
    counters := { s.counters with
      snapshot := { s.counters.snapshot with number := 18 }, intervalStart := 1350000, autoStart := some 1350000 } }

/-- R180's worked expiry at 1,950,000: snapshot 19, length 600,000, AUTO; the timer starts again. -/
theorem test_auto_snapshot_expiry :
    let c := (after .autoSnapshotExpiry (snapshotTimer 1950000)).counters
    c.snapshot.number = 19 ∧ c.snapshot.length = 600000 ∧ c.snapshot.cause = some .auto ∧ c.autoStart = some 1950000 := by
  decide +kernel

/-- R189: at 20 ms the frame is dropped uncounted; at 19 ms nothing happens. -/
theorem test_gap_timer_expiry :
    (after .gapTimerExpiry (at_ 20 (receiving [5] none))).link = State.reset.link
      ∧ after .gapTimerExpiry (at_ 19 (receiving [5] none)) = at_ 19 (receiving [5] none) := by decide +kernel

/-- R188: length 1 (and 1,019) is out of range and counted; length 1,018 is taken. -/
theorem test_length_out_of_range :
    (after (.lengthOutOfRange 0) (receiving [1] none)).counters.live.globals.framesBad = 1
      ∧ (after (.byteArrival 0x03) (receiving [0xFB] none)).counters.live.globals.framesBad = 1
      ∧ (after (.byteArrival 0x03) (receiving [0xFA] none)).link.expected = some 1018 := by decide +kernel

/-- R190: an IDN frame with a wrong last byte is discarded and counted in FRAMES_BAD, and not answered. -/
theorem test_crc_mismatch :
    let t := after (.crcMismatch 0xFF) (receiving [2, 0, 0x01, 7, 0] (some 2))
    t.counters.live.globals.framesBad = 1 ∧ t.link.slot = none ∧ t.link.recv = .hunting := by decide +kernel

/-- A frame of this kind and tag, all but its last byte arrived. -/
def almost (kind tag : Byte) : State :=
  let body : List Byte := [2, 0, kind, tag]
  receiving (body ++ [(crc16 body).extractLsb' 8 8]) (some 2)

/-- The last byte of that frame: the CRC's low byte. -/
def lastByte (kind tag : Byte) : Byte := (crc16 [2, 0, kind, tag]).extractLsb' 0 8

/-- R191: a good frame that finds a reply in the slot is discarded uncounted. -/
theorem test_frame_discarded_busy :
    let t := after (.frameDiscardedBusy (lastByte 0x01 7)) (busy (almost 0x01 7))
    t.link.slot = some ⟨0x81, 1, [0]⟩ ∧ t.link.recv = .hunting ∧ t.counters.live.globals.framesBad = 0 := by decide +kernel

/-- R192: kind 0x7F is answered 0xFF UNKNOWN_KIND; kind 0x90 keeps its own number. -/
theorem test_unknown_kind :
    (after (.unknownKind (lastByte 0x7F 7)) (almost 0x7F 7)).link.slot = some ⟨0xFF, 7, [0x01]⟩
      ∧ (after (.unknownKind (lastByte 0x90 7)) (almost 0x90 7)).link.slot = some ⟨0x90, 7, [0x01]⟩ := by decide +kernel

/-- R193: at the end of the reply the slot is empty and the oldest notice begins. -/
theorem test_transmit_end :
    let s := busy State.reset
    let t := after .transmitEnd { s with link := { s.link with queue := [⟨true, .nrt 1 2 3 4⟩] } }
    t.link.slot = none ∧ t.link.tx = .notice ⟨true, .nrt 1 2 3 4⟩ ∧ t.link.queue = [] := by decide +kernel

/-- R193: a FREE transmitter begins the waiting reply ahead of a queued notice. -/
theorem test_transmit_start :
    let s := busy State.reset
    let t := after .transmitStart { s with link := { s.link with tx := .free, queue := [⟨false, .nrt 1 2 3 4⟩] } }
    t.link.tx = .reply ∧ t.link.queue = [⟨false, .nrt 1 2 3 4⟩] := by decide +kernel

/-- R188: noise in HUNTING is lost; the start byte opens a frame. -/
theorem test_byte_arrival :
    after (.byteArrival 0x5A) State.reset = State.reset
      ∧ (after (.byteArrival 0xA5) State.reset).link.recv = .receiving := by decide +kernel

/-- R105: the crossing of line 508 backward from 0 takes bin 127's sample; a second crossing keeps the first. -/
theorem test_encoder_line :
    let s := inWindow true .timed { anEngine .accumulating 0 0 with revOpen := true } 60
    let s := { s with enc := s.enc.upd 0 (fun _ => ⟨some ⟨10, 0⟩, none, 0, -3, 509⟩) }
    let t := after (.encoderLine 0 false (.value 40)) s
    t.noise.engineA.samples[(127 : Fin 128)] = some 40 ∧ t.enc[(0 : Station)].net = -4 ∧ t.enc[(0 : Station)].pos = 508 := by
  decide +kernel

/-! ### Requests -/

/-- R196: IDN's payload, byte by byte, right after power-on. -/
theorem test_idn : replied (after (.idn 7) State.reset) =
    [0x00, 6, 0x47, 0x61, 0x6A, 0x65, 0x6E, 0x6F, 4, 0x41, 0x54, 0x2D, 0x36, 0x43, 6, 2, 8, 4, 48, 16, 0, 0, 0, 0,
     0x00, 0xC2, 0x01, 0x00, 0, 0xCD, 0x8B, 0x01, 0x00, 0xE8, 0x03, 5, 0, 0x60, 0xEA, 0, 0, 0, 0] := by decide +kernel

/-- R197: each numeric field of CFG is clamped into its range. -/
theorem test_cfg : (after (.cfg 7 ⟨1, 79999, 5001, 0, 600001, 3601⟩) State.reset).config
    = ⟨.verify, 80000, 5000, 1, 600000, 3600⟩ := by decide +kernel

/-- STT of the manual's axle at station 1. -/
def anStt (checkByte : Byte) : SttFields :=
  ⟨1, 0x11223344, 0, 3210, checkByte, "GA24-00117".toList.map (fun c => byteOf c.toNat), []⟩

/-- R19: the table's recipe is locked, and the reply has the start time and the fingerprint. -/
theorem test_stt :
    let t := after (.stt 7 (anStt 86)) (at_ 5 (loaded 0 20 1))
    replied t = [0x00, 5, 0, 0, 0, 0x34, 0x12] ∧ t.stateOf 0 = .running
      ∧ (t.table[(2 : Fin 8)][(0 : Fin 4)]).map (fun e => (e.lock, e.tests)) = some (1, 20)
      ∧ t.counters.live.stations[(0 : Station)].testsStarted = 1 := by decide +kernel

/-- R18: check byte 85 is refused IDENTITY_CHECK, and no test starts. R204, R206: nor does one of source 0 with a byte after
the text, refused BAD_LENGTH. -/
theorem test_stt_refused :
    (let t := after (.stt 7 (anStt 85)) (loaded 0 20 1)
     replied t = [0x08] ∧ t.stateOf 0 = .idle)
    ∧ (let t := after (.stt 7 { anStt 86 with body := [0] }) (loaded 0 20 1)
       replied t = [0x02] ∧ t.stateOf 0 = .idle) := by decide +kernel

/-- R21: ABT of a RUNNING station: cause HOST_ABORT, the step CUT_SHORT, the reply with the state after it. -/
theorem test_abt :
    let t := after (.abt 7 1) (running (thenDwell aDwell) aDwell .timed 5)
    replied t = [0x00, 0x03] ∧ (t.ctx 0).test.map TestCtx.cause = some (some .hostAbort)
      ∧ t.stepEntries 0 = some [⟨1, .dwell, .failed, some .cutShort⟩] := by decide +kernel

/-- A DONE station 1 with record number 5. -/
def doneStation : State :=
  { State.reset with seq := State.reset.seq.upd 0 (fun _ =>
      { inState .done (aRecipe []) with record := none, privateSlot := none, test := some { aTest (aRecipe []) with number := some 5 } }) }

/-- R22: REL of a DONE station. -/
theorem test_rel :
    let t := after (.rel 7 1) doneStation
    t.stateOf 0 = .idle ∧ (t.ctx 0).test = none ∧ replied t = [0x00] := by decide +kernel

/-- R23: ENA off takes an IDLE station to OFF. -/
theorem test_ena :
    let t := after (.ena 7 6 0) State.reset
    t.stateOf 5 = .off ∧ (t.ctx 5).enabled = false ∧ t.counters.changed[(5 : Station)] = true := by decide +kernel

/-- R24, R207: RDS of an IDLE station 2 begins OK, IDLE, enabled, no step; station 7 is BAD_STATION. -/
theorem test_rds :
    (replied (after (.rds 7 2) State.reset)).take 4 = [0x00, 0x01, 0x01, 0x00]
      ∧ (replied (after (.rds 7 7) State.reset)) = [0x04] := by decide +kernel

/-- R25: RST is answered OK and acts later. -/
theorem test_rst :
    let t := after (.rst 7) State.reset
    replied t = [0x00] ∧ t.link.restartPending = true ∧ t.counters.changed[(0 : Station)] = false := by decide +kernel

/-- R64: SKG skips the gate in progress and answers its index. -/
theorem test_skg :
    let t := after (.skg 7 1) (running (thenDwell (aGate .fail)) (aGate .fail) .waiting 5)
    replied t = [0x00, 1] ∧ t.stepEntries 0 = some [⟨1, .gate, .skipped, none⟩] ∧ t.remarks 0 = some [.gateSkipped] := by
  decide +kernel

/-- A body of one DWELL of 1,000 ms for this variant, revision 7. -/
def aBody (variant : Word16) : List Byte :=
  le16 variant ++ [7, 0, 0, 1, 0, 0, 0] ++ [2, 0xE8, 0x03, 0, 0, 0xFF, 0, 0, 0, 0, 0, 0, 0, 0, 0, 0]

/-- R43, R44: the body goes to the lowest invalid way of set variant mod 8, and the reply names both. -/
theorem test_ldr :
    let t := after (.ldr 7 (aBody 3210)) State.reset
    (replied t).take 3 = [0x00, 2, 0]
      ∧ (t.table[(2 : Fin 8)][(0 : Fin 4)]).map (fun e => (e.recipe.variant, e.recipe.steps, e.lock, e.rank))
        = some (3210, [aDwell], 0, 0) := by decide +kernel

/-- R44: the body of a locked variant is refused RECIPE_IN_USE. -/
theorem test_ldr_in_use : replied (after (.ldr 7 (aBody 3210)) (loaded 1 0 0)) = [0x0C] := by decide +kernel

/-- R42, R45: DRP writes the statistics back, makes the entry invalid and gives the NRT. -/
theorem test_drp :
    let t := after (.drp 7 3210) (loaded 0 23 2)
    t.table[(2 : Fin 8)][(0 : Fin 4)] = none ∧ t.counters.live.globals.retiredTests = 23
      ∧ t.counters.live.globals.retiredFails = 2 ∧ t.link.queue = [⟨false, .nrt 3210 7 23 2⟩] ∧ replied t = [0x00, 2, 0] := by
  decide +kernel

/-- R46: PIN answers set, way and mark; another value than yes or no is BAD_VALUE. -/
theorem test_pin :
    replied (after (.pin 7 3210 1) (loaded 3 0 0)) = [0x00, 2, 0, 1]
      ∧ replied (after (.pin 7 3210 2) (loaded 3 0 0)) = [0x03] := by decide +kernel

/-- R47, R208: one line of TBL: set, way, variant, revision, class, pinned, lock, rank, fingerprint, dirty. -/
theorem test_tbl : replied (after (.tbl 7) (loaded 3 1 0)) = [0x00, 1, 2, 0, 0x8A, 0x0C, 7, 0, 0, 3, 0, 0x34, 0x12, 1] := by
  decide +kernel

/-- R48: RRS reads 20 and 1 and leaves 0 and 0. -/
theorem test_rrs :
    let t := after (.rrs 7 3210) (loaded 3 20 1)
    replied t = [0x00, 0x8A, 0x0C, 7, 20, 0, 1, 0] ∧ t.table = (loaded 3 0 0).table := by decide +kernel

/-- R83: LIM replaces VIB's thresholds; with the order broken it is refused whole. -/
theorem test_lim :
    let ok : LimEntry := ⟨4, 0, 0, 4000, 12000⟩
    (after (.lim 7 [ok]) State.reset).mon.globals[(3 : Fin 7)] = ⟨0, 0, 4000, 12000⟩
      ∧ replied (after (.lim 7 [ok, ⟨1, 0, 5, 4, 9⟩]) State.reset) = [0x03] := by decide +kernel

/-- R92: MSK unmasks VIB HIGH_WARN; a mask value of 2 is refused. -/
theorem test_msk :
    ((after (.msk 7 [⟨4, 2, 0⟩]) State.reset).mon.masks[(3 : Fin 7)]).highWarn = false
      ∧ replied (after (.msk 7 [⟨4, 2, 2⟩]) State.reset) = [0x03] := by decide +kernel

/-- R93: RDM of a station is its scope and six lines of 27 bytes after the status; of GLOBAL 155 bytes in all. -/
theorem test_rdm :
    (replied (after (.rdm 7 1) State.reset)).length = 164 ∧ (replied (after (.rdm 7 0) State.reset)).length = 155 := by
  decide +kernel

/-- Station 1's VIB has both its alarm and its loss latched. -/
def latchedVib : State :=
  { State.reset with mon := { State.reset.mon with stations := State.reset.mon.stations.upd 0 (fun v =>
      v.set 3 { QuantityMon.initial with latched := ⟨true, false, false, false, true⟩ }) } }

/-- R94: CLF clears the named flag and keeps the other; an empty list clears both. -/
theorem test_clf :
    ((after (.clf 7 1 [⟨4, 1⟩]) latchedVib).quantity 0 .vib).latched = ⟨false, false, false, false, true⟩
      ∧ ((after (.clf 7 1 []) latchedVib).quantity 0 .vib).latched = .none := by decide +kernel

/-- R154: CHN sets LEAK_PRESS to the pattern of 1 Pa/s; decay rate 0 is BAD_VALUE. -/
theorem test_chn :
    (after (.chn 7 ⟨5, 2, 2, 0xFF, 0, 0, 0, 0, 1⟩) State.reset).cond[(4 : Station)].press = .pattern 1
      ∧ replied (after (.chn 7 ⟨5, 2, 2, 0xFF, 0, 0, 0, 0, 0⟩) State.reset) = [0x03] := by decide +kernel

/-- R169: RDR of an empty store is EMPTY with occupancy 0, of an absent number NOT_FOUND with the occupancy. -/
theorem test_rdr :
    replied (after (.rdr 7 0 0) State.reset) = [0x12, 0] ∧ replied (after (.rdr 7 1 3) (holding [4, 5] 6)) = [0x14, 2]
      ∧ (replied (after (.rdr 7 1 5) (holding [4, 5] 6))).take 6 = [0x00, 2, 5, 0, 0, 0] := by decide +kernel

/-- R170: RLR of the oldest removes it; of another record it is NOT_OLDEST. -/
theorem test_rlr :
    (after (.rlr 7 4) (holding [4, 5] 6)).store.records.map Record.number = [some 5]
      ∧ replied (after (.rlr 7 5) (holding [4, 5] 6)) = [0x13] := by decide +kernel

/-- R179: SNP takes snapshot 1 of the interval so far and answers it. -/
theorem test_snp :
    let t := after (.snp 7) (at_ 150000 State.reset)
    t.counters.snapshot.number = 1 ∧ t.counters.snapshot.length = 150000 ∧ t.counters.intervalStart = 150000
      ∧ (replied t).take 5 = [0x00, 1, 0, 0, 0] := by decide +kernel

/-- R182: RDN answers the last snapshot and takes none. -/
theorem test_rdn :
    let t := after (.rdn 7) (snapshotTimer 2000000)
    (replied t).take 3 = [0x00, 18, 0] ∧ t.counters = (snapshotTimer 2000000).counters := by decide +kernel

/-- R184: POL answers the change set and the six states, and clears the set. -/
theorem test_pol :
    let s := State.reset
    let t := after (.pol 7) { s with counters := { s.counters with changed := #v[false, false, false, false, true, true] } }
    replied t = [0x00, 0x30, 1, 1, 1, 1, 1, 1, 0, 0, 0] ∧ t.counters.changed = Vector.replicate 6 false := by decide +kernel

/-- R188, R190, R202: the seven bytes of an IDN frame, its CRC 0x2A7E worked out by hand, are answered as IDN is. -/
theorem test_idn_frame :
    requestFrame (.idn 7) = some [0xA5, 2, 0, 0x01, 7, 0x2A, 0x7E]
      ∧ ([0xA5, 2, 0, 0x01, 7, 0x2A, 0x7E] : List Byte).foldl State.receive State.reset = after (.idn 7) State.reset := by
  decide +kernel

/-! ### States and operands that meet the statements' hypotheses -/

theorem witness_StepTakesFrontCommand :
    (State.reset.withPending [.supplyGrant, .deposit]).pending = .supplyGrant :: [.deposit] := by decide +kernel

theorem witness_IdleStepTakesExpiryOrMillisecond :
    State.reset.pending = [] ∧ State.reset.nextDue = none
      ∧ (stopping 30000).pending = [] ∧ (stopping 30000).nextDue = some (.stopTimeout 0) := by decide +kernel

theorem witness_RequestIsTakenOrDiscarded :
    requestParts (.pol 7) = some (0x4A, 7, []) ∧ (busy State.reset).link.slot ≠ none ∧ State.reset.link.slot = none := by
  decide +kernel

/-- The longest payload a frame carries, and the shortest. -/
theorem witness_RequestPayloadReadsBack :
    (Instr.ldr 1 (List.replicate 1016 0)).wf = true
      ∧ requestParts (.ldr 1 (List.replicate 1016 0)) = some (0x20, 1, List.replicate 1016 0)
      ∧ (Instr.snp 1).wf = true ∧ requestParts (.snp 1) = some (0x48, 1, []) := by decide +kernel

theorem witness_FrameBytesRunTheirCommand :
    (Instr.idn 7).wf = true ∧ requestFrame (.idn 7) = some [0xA5, 2, 0, 0x01, 7, 0x2A, 0x7E]
      ∧ State.reset.link.recv = .hunting := by decide +kernel

/-- The state with stop-on-fail in station 1's recipe. -/
def strict (s : State) : State :=
  { s with seq := s.seq.upd 0 (fun c => { c with test := c.test.map (fun t =>
    { t with recipe := { t.recipe with stopOnFail := true } }) }) }

/-- The state with station 1's step in EXTENDED since this line time. -/
def extended (since : LineTime) (s : State) : State :=
  { s with seq := s.seq.upd 0 (fun c => { c with step := c.step.map (fun x => { x with phase := .extended since }) }) }

/-- The state with station 1's leak circuit changed. -/
def withCircuit (f : LeakCircuit → LeakCircuit) (s : State) : State :=
  { s with leak := { s.leak with circuits := s.leak.circuits.upd 0 f } }

/-- The state with this wait queue, station 2's group open and without an engine. -/
def queued (queue : List EngineWait) (s : State) : State :=
  { s with noise := { s.noise with queue := queue, groups := s.noise.groups.upd 1 (fun _ => [aLine none]) } }

/-- Station 2 at the head of the wait queue. -/
def secondWaits : List EngineWait := [⟨1, 0, 0, 60000⟩]

/-- An engine ACCUMULATING for this station. -/
def engineOf (st : Station) : Engine := { anEngine .accumulating 0 0 with holder := some st }

theorem witness_RestartFollowsRstReply :
    State.reset.link.slot = none
      ∧ (let s := busy State.reset
         let t := { s with link := { s.link with restartPending := true } }
         t.link.restartPending = true ∧ t.link.tx = .reply) := by decide +kernel

theorem witness_EmergencyStopCompletesTests :
    (running (thenDwell aDwell) aDwell .timed 5).pins.estop = false
      ∧ (running (thenDwell aDwell) aDwell .timed 5).stateOf 0 = .running ∧ (stopping 5).stateOf 0 = .stopping
      ∧ (stopping 5).stateOf 1 ≠ .running ∧ (stopping 5).stateOf 1 ≠ .stopping := by decide +kernel

/-- The one testing station in FILL, the holder of the supply grant. -/
theorem witness_EmergencyStopCompletesTests_record :
    let w := inLeak .fill 20000 700
    let s : State := { w with leak := { w.leak with grant := some 0 } }
    s.pins.estop = false ∧ s.StationsInPlace ∧ s.RunsStep 0 ⟨1, .leak, .leak, 0, false⟩ aRecord
      ∧ (s.ctx 0).test = some (aTest (aRecipe [.leak, aDwell] [] [] (some aLeak)))
      ∧ ∀ j : Station, j ≠ 0 → s.stateOf j ≠ .running ∧ s.stateOf j ≠ .stopping := by
  intro w s
  have phases : ∀ st : Station, (s.circuit st).phase ≠ .none → st = 0 := by decide +kernel
  refine ⟨by decide +kernel, ⟨by decide +kernel, fun st h => ?_, by decide +kernel, by decide +kernel, by decide +kernel,
    by decide +kernel, by decide +kernel⟩, ⟨rfl, rfl, rfl⟩, rfl, by decide +kernel⟩
  obtain rfl := phases st h
  exact .inl ⟨rfl, _, rfl, rfl, rfl⟩

theorem witness_DriveFaultDropsDrive :
    (let s := running (thenDwell aDwell) aDwell .timed 5
     s.pins.driveFault[(0 : Station)] = false ∧ s.drive[(0 : Station)].enable = true ∧ s.stateOf 0 = .running)
    ∧ (stopping 5).pins.driveFault[(0 : Station)] = false ∧ (stopping 5).drive[(0 : Station)].enable = true
    ∧ (stopping 5).stateOf 0 = .stopping ∧ State.reset.drive[(0 : Station)].enable = false := by decide +kernel

/-- The sum of an identity's bytes, as R18 has it. -/
def identitySum (f : SttFields) : Nat :=
  ((f.text.map BitVec.toNat).sum + f.variant.toNat % 256 + f.variant.toNat / 256 + f.checkByte.toNat) % 256

/-- What STT's statement asks of an identity and of the bytes after it. -/
abbrev taken (f : SttFields) : Prop :=
  1 ≤ f.text.length ∧ f.text.length ≤ 20 ∧ (∀ b ∈ f.text, 0x20 ≤ b.toNat ∧ b.toNat ≤ 0x7E) ∧ f.variant ≠ 0 ∧ identitySum f = 0
    ∧ (if f.source = 1 then LengthAgrees f.body else f.body = [])

/-- What it asks of the station. -/
abbrev startable (s : State) : Prop :=
  s.link.slot = none ∧ (s.ctx 0).enabled = true ∧ s.pins.estop = false ∧ s.stateOf 0 = .idle

/-- An STT that takes the table's recipe. -/
theorem witness_SttStartsTest_table :
    let s := loaded 0 20 1
    let f := anStt 86
    startable s ∧ f.station = stationCode 0 ∧ taken f ∧ f.source = 0
      ∧ s.lookup f.variant.toNat = some (2, 0, ⟨thenDwell aDwell, false, 0, 0, 20, 1⟩) ∧ ((thenDwell aDwell).cls = .master → s.config.mode = .verify)
      ∧ (s.substituted 0 = true → s.config.mode = .verify)
      ∧ s.pins.driveFault[(0 : Station)] = false
      ∧ s.table[(2 : Fin 8)][(0 : Fin 4)] = some ⟨thenDwell aDwell, false, 0, 0, 20, 1⟩ := by decide +kernel

/-- Set 2 with variant 3,210 of rank 2 in way 1, beside ranks 0, 1 and 3. -/
def ranked : State :=
  let e (v rank : Nat) : Option Entry := some ⟨{ thenDwell aDwell with variant := v }, false, 0, rank, 0, 0⟩
  { State.reset with table := State.reset.table.set 2 #v[e 2 0, e 3210 2, e 18 1, e 26 3] }

/-- R19, R38: an STT of it; the ranks below 2 go up by 1, that of 3 stays, the entry takes rank 0 and is locked. -/
theorem witness_SttStartsTest_ranks :
    startable ranked ∧ ranked.lookup (anStt 86).variant.toNat
        = some (2, 1, ⟨thenDwell aDwell, false, 0, 2, 0, 0⟩)
      ∧ ((after (.stt 7 (anStt 86)) ranked).table[(2 : Fin 8)]).toList.map (fun e => e.map (fun e => (e.rank, e.lock)))
        = [some (1, 0), some (0, 1), some (2, 0), some (3, 0)] := by decide +kernel

/-- Its thresholds, the defaults, are in order; and so are those of an override that narrows OIL_TEMP. -/
theorem witness_SttStartsTest_thresholds :
    let narrow : Recipe := { thenDwell aDwell with overrides := [⟨.oilTemp, none, some 1000, some 10500, some 14000⟩] }
    (∀ q : StQuantity, ((loaded 0 20 1).resolvedThresholds (thenDwell aDwell) q).ordered = true)
      ∧ (∀ q : StQuantity, (State.reset.resolvedThresholds narrow q).ordered = true)
      ∧ State.reset.resolvedThresholds narrow .oilTemp = ⟨-4000, 1000, 10500, 13000⟩ :=
  ⟨fun q => by cases q <;> decide +kernel, fun q => by cases q <;> decide +kernel, by decide +kernel⟩

/-- An STT taken with the drive-fault input already active: what the rules ask of the state is as above, and step 1 is cut
short in its record. -/
theorem witness_SttStartsTest_driveFault :
    let t := loaded 0 20 1
    let s := { t with pins := { t.pins with driveFault := t.pins.driveFault.upd 0 (fun _ => true) } }
    startable s ∧ s.lookup (anStt 86).variant.toNat = some (2, 0, ⟨thenDwell aDwell, false, 0, 0, 20, 1⟩)
      ∧ s.substituted 0 = false
      ∧ s.pins.driveFault[(0 : Station)] = true ∧ (thenDwell aDwell).steps.head? = some aDwell
      ∧ (after (.stt 7 (anStt 86)) s).stepEntries 0 = some [⟨1, .dwell, .failed, some .cutShort⟩] := by decide +kernel

/-- An inline STT of a MASTER recipe on a substituted channel, in mode VERIFY. -/
def inlineStt : SttFields :=
  { anStt 86 with source := 1, body := le16 3210 ++ [7, 1, 0, 1, 0, 0, 0] ++ (aBody 3210).drop 9 }

/-- The recipe it carries. -/
def inlineRecipe : Recipe :=
  { aRecipe [aDwell] with body := inlineStt.body, cls := .master, fingerprint := crc16 inlineStt.body }

/-- Mode VERIFY with station 1's AIR_TEMP substituted. -/
def verifying : State :=
  { State.reset with
    config := { State.reset.config with mode := .verify }
    cond := State.reset.cond.upd 0 (fun c => { c with temp := .fixed 2000 }) }

theorem witness_SttStartsTest_inline :
    let s := verifying
    let f := inlineStt
    RecipeCarried f.body inlineRecipe ∧ startable s ∧ f.station = stationCode 0 ∧ taken f ∧ f.source = 1
      ∧ inlineRecipe.variant = f.variant.toNat ∧ (inlineRecipe.cls = .master → s.config.mode = .verify)
      ∧ (s.substituted 0 = true → s.config.mode = .verify)
      ∧ s.pins.driveFault[(0 : Station)] = false
      ∧ s.substituted 0 = true ∧ inlineRecipe.steps.head? = some aDwell
      ∧ (∀ q ∈ allStQuantities, (s.resolvedThresholds inlineRecipe q).ordered = true) :=
  ⟨(validate_ok_iff _ _).1 (by decide +kernel), by decide +kernel⟩

/-- The table with this recipe for variant 3,210. -/
def tableOf (r : Recipe) : State :=
  { State.reset with table := State.reset.table.set 2 ((State.reset.table[2]).set 0 (some ⟨r, false, 0, 0, 0, 0⟩)) }

/-- A recipe that begins with a window of group 0 and has one of group 1 behind it. -/
def twoGroups : Recipe :=
  aRecipe [aWindow true, .dwell 1000 (some 1) false 0] [aGroup, { aGroup with group := 1 }] [⟨1, 1⟩, ⟨2, 2⟩]

/-- A recipe that begins with a RAMP, with a LEAK step, and with a window, of one group and of one of two. -/
theorem witness_SttStartsTest_firstStep :
    (∀ r ∈ [thenDwell aRamp, aRecipe [.leak, aDwell] [] [] (some aLeak), windowRecipe true, twoGroups],
      let s := tableOf r
      startable s ∧ s.lookup (anStt 86).variant.toNat = some (2, 0, ⟨r, false, 0, 0, 0, 0⟩) ∧ (r.cls = .master → s.config.mode = .verify)
        ∧ (s.substituted 0 = true → s.config.mode = .verify) ∧ s.pins.driveFault[(0 : Station)] = false
        ∧ (∀ q ∈ allStQuantities, (s.resolvedThresholds r q).ordered = true))
    ∧ (thenDwell aRamp).steps.head? = some aRamp
    ∧ (windowRecipe true).steps.head? = some (aWindow true)
    ∧ (twoGroups.steps.head? = some (aWindow true) ∧ (twoGroups.groups.map GroupSpec.group)[1]? = some 1)
    ∧ ((windowRecipe true).groups.zip (windowRecipe true).windows).find? (fun y => y.1.group == 0) = some (aGroup, ⟨1, 1⟩)
    ∧ aRecord.remarks = [] ∧ aRecord.remarksFull = false ∧ aRecord.groups = [] := by
  refine ⟨?_, ?_⟩ <;> decide +kernel

/-- A state for each of the first five checks, and an identity on each side of each boundary. -/
theorem witness_SttChecksInOrder_station :
    (let off := { State.reset with seq := State.reset.seq.upd 0 (fun c => { c with state := .off, enabled := false }) }
     let stop := { State.reset with pins := { State.reset.pins with estop := true } }
     let f := anStt 86
     State.reset.link.slot = none ∧ off.link.slot = none ∧ stop.link.slot = none ∧ doneStation.link.slot = none
      ∧ (if f.source = 1 then LengthAgrees f.body else f.body = []) ∧ f.station = stationCode 0
      ∧ ¬(if f.source = 1 then LengthAgrees [0] else [(0 : Byte)] = [])
      ∧ (off.ctx 0).enabled = false
      ∧ (stop.ctx 0).enabled = true ∧ stop.pins.estop = true
      ∧ (doneStation.ctx 0).enabled = true ∧ doneStation.pins.estop = false ∧ doneStation.stateOf 0 ≠ .idle
      ∧ (State.reset.ctx 0).enabled = true ∧ State.reset.pins.estop = false ∧ State.reset.stateOf 0 = .idle)
    ∧ ((0 : Byte).toNat = 0 ∧ 6 < (7 : Byte).toNat ∧ 20 < (List.replicate 21 (0x41 : Byte)).length
      ∧ (∃ b ∈ [(0x1F : Byte)], b.toNat < 0x20 ∨ 0x7E < b.toNat) ∧ ∃ b ∈ [(0x7F : Byte)], b.toNat < 0x20 ∨ 0x7E < b.toNat)
    ∧ (let t : List Byte := 0x20 :: List.replicate 19 0x7E
       1 ≤ t.length ∧ t.length ≤ 20 ∧ (∀ b ∈ t, 0x20 ≤ b.toNat ∧ b.toNat ≤ 0x7E) ∧ (65535 : Word16) ≠ 0
        ∧ ((t.map BitVec.toNat).sum + (65535 : Word16).toNat % 256 + (65535 : Word16).toNat / 256 + (0 : Byte).toNat) % 256
          ≠ 0) := by decide +kernel

/-- What the body of variant 3,211 carries. -/
def otherRecipe : Recipe :=
  { aRecipe [aDwell] with body := aBody 3211, variant := 3211, fingerprint := crc16 (aBody 3211) }

/-- A body of class 2 is refused at its header. -/
theorem unclassed_refused : RecipeRefused ((aBody 3210).set 3 2) .header 0 :=
  (validate_error_iff _ ⟨.header, 0⟩).1 (by decide +kernel)

/-- A production station 1 with its AIR_TEMP substituted. -/
def substituting : State := { State.reset with cond := State.reset.cond.upd 0 (fun c => { c with temp := .fixed 2000 }) }

/-- Thresholds of VIB out of order, as an override could leave them. -/
def conflicting : State := { State.reset with mon := { State.reset.mon with
  globals := State.reset.mon.globals.set 3 ⟨5, 4, 3, 2⟩ } }

/-- Checks 6 to 9, each with an identity that sums to 0: an unnamed source; a variant the table does not hold; a body of
class 2; a body of another variant; a MASTER recipe, and a substituted channel, in mode PRODUCTION; VIB's limits in conflict. -/
theorem witness_SttChecksInOrder_recipe :
    let f := { anStt 86 with source := 1, body := aBody 3211 }
    (identitySum (anStt 86) = 0 ∧ identitySum inlineStt = 0 ∧ (2 : Byte) ≠ 0 ∧ (2 : Byte) ≠ 1
      ∧ (State.reset.lookup (anStt 86).variant.toNat).isNone = true
      ∧ LengthAgrees (aBody 3210 |>.set 3 2) ∧ LengthAgrees f.body ∧ otherRecipe.variant ≠ f.variant.toNat)
    ∧ RecipeRefused (aBody 3210 |>.set 3 2) .header 0 ∧ RecipeCarried f.body otherRecipe
    ∧ RecipeCarried inlineStt.body inlineRecipe ∧ (inlineRecipe.variant = inlineStt.variant.toNat
      ∧ inlineRecipe.cls = .master ∧ State.reset.config.mode = .production)
    ∧ (∃ i w e, (loaded 0 20 1).lookup (anStt 86).variant.toNat = some (i, w, e) ∧ e.recipe = thenDwell aDwell)
    ∧ ((thenDwell aDwell).cls = .production ∧ substituting.substituted 0 = true ∧ substituting.config.mode = .production)
    ∧ (conflicting.substituted 0 = false ∧ allStQuantities = [.oilTemp, .speed, .torque] ++ .vib :: [.leakPress, .airTemp]
      ∧ (∀ p ∈ [StQuantity.oilTemp, .speed, .torque],
          (conflicting.resolvedThresholds (thenDwell aDwell) p).ordered = true)
      ∧ (conflicting.resolvedThresholds (thenDwell aDwell) .vib).ordered = false) :=
  ⟨by decide +kernel, unclassed_refused, (validate_ok_iff _ _).1 (by decide +kernel),
    (validate_ok_iff _ _).1 (by decide +kernel), by decide +kernel, ⟨2, 0, _, rfl, rfl⟩, by decide +kernel, by decide +kernel⟩

theorem witness_AbtStopsRunningStation :
    (running (thenDwell aDwell) aDwell .timed 5).link.slot = none
      ∧ (running (thenDwell aDwell) aDwell .timed 5).stateOf 0 = .running
      ∧ (stopping 5).link.slot = none ∧ (stopping 5).stateOf 0 = .stopping
      ∧ (stopping 5).stateOf 1 ≠ .running ∧ (stopping 5).stateOf 1 ≠ .stopping ∧ 6 < (7 : Byte).toNat := by decide +kernel

theorem witness_RelReturnsDoneStation :
    doneStation.link.slot = none ∧ doneStation.stateOf 0 = .done ∧ doneStation.stateOf 1 ≠ .done ∧ (0 : Byte).toNat = 0
      ∧ 6 < (7 : Byte).toNat := by decide +kernel

theorem witness_EnaMovesBetweenOffAndIdle :
    (let off := { State.reset with seq := State.reset.seq.upd 0 (fun c => { c with state := .off, enabled := false }) }
     off.link.slot = none ∧ off.stateOf 0 = .off ∧ off.stateOf 1 = .idle ∧ (0xFF : Byte) ≠ 0)
    ∧ doneStation.stateOf 0 ≠ .off ∧ doneStation.stateOf 0 ≠ .idle
    ∧ (let s := busy State.reset
       let t := { s with link := { s.link with restartPending := true } }
       t.link.restartPending = true ∧ t.link.tx = .reply) := by decide +kernel

theorem witness_ReadsChangeNothing :
    (holding [4, 5] 6).link.slot = none ∧ (holding [4, 5] 6).store.records = stored 4 :: [stored 5]
      ∧ (holding [4, 5] 6).store.records.find? (fun r => r.number == some (5 : Word32).toNat) = some (stored 5) := by
  decide +kernel

/-- The numbers at the edges of the refusals, an empty store, and a number the store does not hold. -/
theorem witness_ReadsChangeNothing_refused :
    ((0 : Byte).toNat = 0 ∧ 6 < (7 : Byte).toNat ∧ (7 : Byte).toNat < 128 ∧ (127 : Byte).toNat < 128
      ∧ 128 ≤ (128 : Byte).toNat)
    ∧ ((2 : Byte) ≠ 0 ∧ (2 : Byte) ≠ 1 ∧ State.reset.link.slot = none ∧ State.reset.store.records = [])
    ∧ (holding [4, 5] 6).store.records ≠ [] ∧ ∀ r ∈ (holding [4, 5] 6).store.records, r.number ≠ some (6 : Word32).toNat := by
  decide +kernel

/-- Station 1 runs the step it was set running. -/
theorem running_runsStep (r : Recipe) (spec : StepSpec) (p : StepPhase) (ms : LineTime) :
    (running r spec p ms).RunsStep 0 ⟨1, spec, p, 0, false⟩ aRecord := ⟨rfl, rfl, rfl⟩

/-- Station 1 runs the window it was set in. -/
theorem inWindow_runsStep (extend : Bool) (p : StepPhase) (x : Engine) (ms : LineTime) :
    (inWindow extend p x ms).RunsStep 0 ⟨1, aWindow extend, p, 0, false⟩ aRecord := ⟨rfl, rfl, rfl⟩

/-- Station 1 runs the LEAK step it was set in. -/
theorem inLeak_runsStep (p : LeakPhase) (press : Int) (ms : LineTime) :
    (inLeak p press ms).RunsStep 0 ⟨1, .leak, .leak, 0, false⟩ aRecord := ⟨rfl, rfl, rfl⟩

/-- Each timeout at the very millisecond of its expiry. -/
theorem witness_StepTimeoutsFailStep :
    ((running (thenDwell aRamp) aRamp .ramping 8000).RunsStep 0 ⟨1, aRamp, .ramping, 0, false⟩ aRecord
      ∧ 8000 ≤ elapsed 0 (running (thenDwell aRamp) aRamp .ramping 8000).now)
    ∧ ((running (thenDwell (aGate .fail)) (aGate .fail) .waiting 5000).RunsStep 0 ⟨1, aGate .fail, .waiting, 0, false⟩ aRecord
      ∧ 5000 ≤ elapsed 0 (running (thenDwell (aGate .fail)) (aGate .fail) .waiting 5000).now)
    ∧ ((inWindow true (.extended 1000) (anEngine .accumulating 15 0) 61000).RunsStep 0
        ⟨1, aWindow true, .extended 1000, 0, false⟩ aRecord
      ∧ 60000 ≤ elapsed 1000 (inWindow true (.extended 1000) (anEngine .accumulating 15 0) 61000).now) :=
  ⟨⟨running_runsStep .., by decide +kernel⟩, ⟨running_runsStep .., by decide +kernel⟩,
    ⟨inWindow_runsStep .., by decide +kernel⟩⟩

/-- An open window at its duration, with extend; the same without extend; a plain DWELL; a GATE at its timeout. -/
theorem witness_StepEndsBeginNextStep :
    ((inWindow true .timed (anEngine .accumulating 5 0) 1000).RunsStep 0 ⟨1, aWindow true, .timed, 0, false⟩ aRecord
      ∧ (inWindow true .timed (anEngine .accumulating 5 0) 1000).groupClosed 0 0 = false
      ∧ 1000 ≤ elapsed 0 (inWindow true .timed (anEngine .accumulating 5 0) 1000).now)
    ∧ ((inWindow false .timed (anEngine .accumulating 5 0) 1000).RunsStep 0 ⟨1, aWindow false, .timed, 0, false⟩ aRecord
      ∧ (inWindow false .timed (anEngine .accumulating 5 0) 1000).nextIs 0 1 aDwell)
    ∧ ((running (thenDwell aDwell) aDwell .timed 1000).RunsStep 0 ⟨1, aDwell, .timed, 0, false⟩ aRecord
      ∧ (running (thenDwell aDwell) aDwell .timed 1000).nextIs 0 1 aDwell
      ∧ 1000 ≤ elapsed 0 (running (thenDwell aDwell) aDwell .timed 1000).now)
    ∧ ((running (thenDwell (aGate .proceed)) (aGate .proceed) .waiting 5000).RunsStep 0
        ⟨1, aGate .proceed, .waiting, 0, false⟩ aRecord
      ∧ (running (thenDwell (aGate .proceed)) (aGate .proceed) .waiting 5000).nextIs 0 1 aDwell
      ∧ 5000 ≤ elapsed 0 (running (thenDwell (aGate .proceed)) (aGate .proceed) .waiting 5000).now
      ∧ (running (thenDwell (aGate .proceed)) (aGate .proceed) .waiting 5000).link.slot = none) :=
  ⟨⟨inWindow_runsStep .., by decide +kernel⟩, ⟨inWindow_runsStep .., rfl⟩, ⟨running_runsStep .., rfl, by decide +kernel⟩,
    ⟨running_runsStep .., rfl, by decide +kernel⟩⟩

/-- A plain DWELL before a window of a group still PENDING; the end of a window whose engine is COMPUTING. -/
theorem witness_StepEndsBeginNextStep_window :
    (let l : GroupLine := ⟨aGroup, ⟨2, 2⟩, .pending, none, none, none, false⟩
     let w := running (aRecipe [aDwell, aWindow true, aDwell] [aGroup] [⟨2, 2⟩]) aDwell .timed 1000
     let s : State := { w with noise := { Noise.initial with groups := Noise.initial.groups.upd 0 (fun _ => [l]) } }
     s.RunsStep 0 ⟨1, aDwell, .timed, 0, false⟩ aRecord ∧ s.nextIs 0 1 (aWindow true) ∧ s.line 0 0 = some l
      ∧ 1000 ≤ elapsed 0 s.now)
    ∧ (let s := inWindow false .timed (anEngine (.computing 999) 64 0) 1000
       s.RunsStep 0 ⟨1, aWindow false, .timed, 0, false⟩ aRecord ∧ s.nextIs 0 1 aDwell ∧ s.waiting 0 = false
        ∧ s.line 0 0 = some (aLine (some .a)) ∧ (s.engine .a).state ≠ .accumulating ∧ 1000 ≤ elapsed 0 s.now) :=
  ⟨⟨⟨rfl, rfl, rfl⟩, rfl, by decide +kernel⟩, ⟨inWindow_runsStep .., rfl, by decide +kernel⟩⟩

/-- SKG at an IDLE station, and at one RUNNING a DWELL. -/
theorem witness_StepEndsBeginNextStep_noGate :
    State.reset.link.slot = none ∧ State.reset.stateOf 0 ≠ .running ∧ 6 < (7 : Byte).toNat
      ∧ (running (thenDwell aDwell) aDwell .timed 5).link.slot = none
      ∧ ∀ x q rel value hold timeout action, ((running (thenDwell aDwell) aDwell .timed 5).ctx 0).step = some x →
          x.spec ≠ .gate q rel value hold timeout action := by
  refine ⟨by decide +kernel, by decide +kernel, by decide, by decide +kernel, fun x q rel value hold timeout action h => ?_⟩
  have e : ((running (thenDwell aDwell) aDwell .timed 5).ctx 0).step = some ⟨1, aDwell, .timed, 0, false⟩ := rfl
  rw [e] at h; cases h
  exact fun g => StepSpec.noConfusion g

/-- The last DWELL of a chain, at standstill and at speed. -/
theorem witness_ChainEndDecidesState :
    (let s := running (aRecipe [aDwell]) aDwell .timed 1000
     s.RunsStep 0 ⟨1, aDwell, .timed, 0, false⟩ aRecord ∧ (s.recipe 0).bind (fun c => c.steps[1]?) = none
      ∧ s.drive[(0 : Station)].setpoint = 0 ∧ (s.quantity 0 .speed).held.natAbs ≤ s.config.standstill
      ∧ 1000 ≤ elapsed 0 s.now)
    ∧ (let s := { running (aRecipe [aDwell]) aDwell .timed 1000 with
          drive := State.reset.drive.upd 0 (fun d => { d with enable := true, setpoint := 1 }) }
       s.RunsStep 0 ⟨1, aDwell, .timed, 0, false⟩ aRecord
        ∧ ¬(s.drive[(0 : Station)].setpoint = 0 ∧ (s.quantity 0 .speed).held.natAbs ≤ s.config.standstill)) :=
  ⟨⟨⟨rfl, rfl, rfl⟩, by decide +kernel⟩, ⟨⟨rfl, rfl, rfl⟩, by decide +kernel⟩⟩

/-- A station's sample; a SUPPLY sample with the grant free, a station at the head of the queue and the supply healthy; with
the queue empty; with a station waiting and LOW_ALARM at 299,999 Pa. -/
theorem witness_SampleHoldsAndJudges :
    (SensorInput.vib 5 (.value 7) []).target = some (5, .vib) ∧ (SensorInput.speed 0 true).target = some (0, .speed)
    ∧ (let t := after (.monitorSample (.supply (.value 300000))) supplyWaiting
       supplyWaiting.leak.queue = 0 :: [3] ∧ supplyWaiting.leak.grant = none ∧ t.mon.supply.current.lowAlarm = false
        ∧ t.mon.supply.current.lost = false)
    ∧ State.reset.leak.queue = [] ∧ State.reset.leak.grant = none
    ∧ (after (.monitorSample (.supply (.value 299999))) supplyWaiting).mon.supply.current.lowAlarm = true := by decide +kernel

/-- A warning first to latch at a RUNNING station that stays in its step, and an alarm at a STOPPING one. -/
theorem witness_SampleHoldsAndJudges_latches :
    (let s := running (thenDwell aDwell) aDwell .timed 5
     let t := after (.monitorSample (.oilTemp 0 (.value 13000))) s
     t.stateOf 0 = s.stateOf 0 ∧ t.stepIndex 0 = s.stepIndex 0 ∧ (t.quantity 0 .oilTemp).latched = ⟨false, true, false, false, false⟩)
    ∧ (let s := stopping 5
       let t := after (.monitorSample (.oilTemp 0 (.value 13001))) s
       t.stateOf 0 = s.stateOf 0 ∧ t.stepIndex 0 = s.stepIndex 0
        ∧ (t.quantity 0 .oilTemp).latched = ⟨true, true, false, false, false⟩) := by decide +kernel

theorem witness_AlarmLatchCutsTest :
    let s := running (thenDwell aDwell) aDwell .timed 5
    let x : SensorInput := .oilTemp 0 (.value 13001)
    let m := s.quantity 0 .oilTemp
    x.target = some (0, .oilTemp) ∧ s.stateOf 0 = .running ∧ FlagKind.highAlarm.isAlarm = true
      ∧ newLatches (s.watched 0 .oilTemp)
          (m.sample (((s.gather x).sampleValue x).map (Quantity.station .oilTemp).clamp) (s.reference 0 .oilTemp)
            (s.watched 0 .oilTemp)).current m.latched = .highAlarm :: [.highWarn] := by decide +kernel

theorem witness_TenthInvalidSampleLoses :
    let s := { State.reset with mon := { State.reset.mon with supply := ⟨650000, false, 9, .none, .none⟩ } }
    (s.sampled (.supply .noData)).invalid = 9 ∧ (s.gather (.supply .noData)).sampleValue (.supply .noData) = none := by
  decide +kernel

/-- The worked CHECK at its tenth sample: 40,125 over ten samples, which fails without stop-on-fail. -/
theorem witness_CheckJudgesMean :
    let spec : StepSpec := .check .oilTemp 100 .within 4000 12
    let s := running (thenDwell spec) spec (.averaging 36112 9) 100
    s.RunsStep 0 ⟨1, spec, .averaging 36112 9, 0, false⟩ aRecord ∧ s.nextIs 0 1 aDwell ∧ 9 + 1 = 100 / 10
      ∧ s.latchesNothing 0 .oilTemp ((s.gather (.oilTemp 0 (.value 4013))).sampleValue (.oilTemp 0 (.value 4013)))
      ∧ s.stopOnFail 0 = false :=
  ⟨⟨rfl, rfl, rfl⟩, rfl, by decide, by unfold State.latchesNothing; decide +kernel, by decide +kernel⟩

/-- The same sample with stop-on-fail: 4,013 is 13 away from 4,000. -/
theorem witness_CheckJudgesMean_stops :
    let spec : StepSpec := .check .oilTemp 100 .within 4000 12
    let s := strict (running (thenDwell spec) spec (.averaging 36112 9) 100)
    let y : SensorInput := .oilTemp 0 (.value 4013)
    s.RunsStep 0 ⟨1, spec, .averaging 36112 9, 0, false⟩ aRecord ∧ y.target = some (0, .oilTemp)
      ∧ s.latchesNothing 0 .oilTemp ((s.gather y).sampleValue y)
      ∧ ¬(roundDiv (36112 + ((s.takeSample y).quantity 0 .oilTemp).held) (100 / 10) - 4000).natAbs ≤ 12
      ∧ s.stopOnFail 0 = true :=
  ⟨⟨rfl, rfl, rfl⟩, rfl, by unfold State.latchesNothing; decide +kernel, by decide +kernel, by decide +kernel⟩

/-- What the step statements ask of a sample that latches nothing, but for the step in progress. -/
def plainSample (s : State) (y : SensorInput) (q : StQuantity) : Prop :=
  y.target = some (0, q) ∧ s.latchesNothing 0 q ((s.gather y).sampleValue y)

/-- SPEED 0 at a RAMP to 11 rpm with a tolerance of 10, and at one to 10: its hold not yet begun, 1 ms short of its in-band
time, and at it. -/
theorem witness_SampleMovesStep_ramp :
    let ramp (target : Int) : StepSpec := .ramp target 250 6000 10 500 8000
    let s (target : Int) (p : StepPhase) (ms : LineTime) := running (thenDwell (ramp target)) (ramp target) p ms
    let y : SensorInput := .speed 0 false
    let off (target : Int) (x : State) : Nat := (((x.takeSample y).quantity 0 .speed).held - target).natAbs
    (plainSample (s 11 .ramping 5) y .speed ∧ ¬off 11 (s 11 .ramping 5) ≤ 10)
    ∧ (plainSample (s 10 .ramping 5) y .speed ∧ (s 10 .ramping 5).drive[(0 : Station)].setpoint = 0
      ∧ (s 10 .ramping 5).drive[(0 : Station)].target = 0
      ∧ off 10 (s 10 .ramping 5) ≤ 10 ∧ elapsed 5 (s 10 .ramping 5).now < 500)
    ∧ elapsed 0 (s 10 (.inBand 0) 499).now < 500
    ∧ (plainSample (s 10 (.inBand 0) 500) y .speed ∧ 500 ≤ elapsed 0 (s 10 (.inBand 0) 500).now
      ∧ (s 10 (.inBand 0) 500).nextIs 0 1 aDwell
      ∧ off 10 (s 10 (.inBand 0) 500) ≤ 10) := by
  unfold plainSample State.latchesNothing State.nextIs; decide +kernel

/-- A GATE on OIL_TEMP of at least 4,000 at 3,999 and at 4,000, 1 ms short of its hold time and at it; a CHECK at its ninth
sample of ten; a sample that a DWELL does not read. Each step is in progress. -/
theorem witness_SampleMovesStep_gate :
    let gate := running (thenDwell (aGate .fail)) (aGate .fail)
    let check : StepSpec := .check .oilTemp 100 .within 4000 12
    let y (n : Int) : SensorInput := .oilTemp 0 (.value n)
    let held (s : State) (n : Int) : Bool × Int :=
      let m := (s.takeSample (y n)).quantity 0 .oilTemp; (m.lastValid, m.held)
    (gate .waiting 5).RunsStep 0 ⟨1, aGate .fail, .waiting, 0, false⟩ aRecord
    ∧ (plainSample (gate .waiting 5) (y 3999) .oilTemp ∧ held (gate .waiting 5) 3999 = (true, 3999))
    ∧ (plainSample (gate .waiting 5) (y 4000) .oilTemp ∧ held (gate .waiting 5) 4000 = (true, 4000))
    ∧ elapsed 0 (gate (.holding 0) 999).now < 1000
    ∧ (plainSample (gate (.holding 0) 1000) (y 4000) .oilTemp ∧ 1000 ≤ elapsed 0 (gate (.holding 0) 1000).now
      ∧ (gate (.holding 0) 1000).nextIs 0 1 aDwell)
    ∧ (plainSample (running (thenDwell check) check (.averaging 32000 8) 90) (y 4012) .oilTemp ∧ 8 + 1 ≠ 100 / 10)
    ∧ plainSample (running (thenDwell aDwell) aDwell .timed 5) (y 4012) .oilTemp := by
  refine ⟨running_runsStep .., ?_⟩
  unfold plainSample State.latchesNothing State.nextIs; decide +kernel

/-- Station 1 STOPPING at its timeout, without a leak phase and in VENT; with room in the store, with the store full, with a
station in the deposit queue, and with the numbering exhausted. -/
theorem witness_StoppingEndsAtStandstillOrTimeout_timeout :
    let s := stopping 30000
    let vent : State := { s with leak := { s.leak with circuits := s.leak.circuits.upd 0 (fun c => { c with phase := .vent }) } }
    let store (x : Store) : State := { s with store := x }
    s.stateOf 0 = .stopping ∧ (s.ctx 0).test = some (aTest (aRecipe [])) ∧ (s.ctx 0).record = some aRecord
      ∧ (s.circuit 0).phase = .none ∧ (vent.circuit 0).phase = .vent ∧ (s.ctx 0).stopStart = some 0 ∧ 30000 ≤ elapsed 0 s.now
      ∧ (s.store.next = some 1 ∧ s.store.records.length < 48 ∧ s.store.deposit = [])
      ∧ 48 ≤ (store (holding ((List.range 48).map (· + 612)) 660).store).store.records.length
      ∧ (store { s.store with deposit := [3] }).store.deposit ≠ [] ∧ (store { s.store with next := none }).store.next = none := by
  decide +kernel

theorem witness_StoppingEndsAtStandstillOrTimeout_standstill :
    let t := stopping 500
    let s := { t with drive := t.drive.upd 0 (fun d => { d with standstill := 19 }) }
    s.stateOf 0 = .stopping ∧ s.drive[(0 : Station)].setpoint = 0 ∧ s.drive[(0 : Station)].standstill = 19
      ∧ s.latchesNothing 0 .speed (s.sampleValue (.speed 0 false))
      ∧ (s.takeSample (.speed 0 false)).atStandstill 0 = true :=
  ⟨by decide +kernel, by decide +kernel, by decide +kernel, by unfold State.latchesNothing; decide +kernel, by decide +kernel⟩

/-- The longest LIM list, all seven quantities at 0, and one bad list for each refusal. -/
theorem witness_LimAndMskSetWhatTheyName_lim :
    let xs : List (Quantity × Thresholds) := allQuantities.map (fun q => (q, ⟨0, 0, 0, 0⟩))
    let es : List LimEntry := allQuantities.map (fun q => ⟨q.code, 0, 0, 0, 0⟩)
    1 ≤ xs.length ∧ xs.length ≤ 7 ∧ (xs.map Prod.fst).Nodup
      ∧ List.Forall₂ (fun (e : LimEntry) x => quantityOf e.quantity = some x.1
          ∧ x.2 = ⟨e.lowAlarm.toInt, e.lowWarn.toInt, e.highWarn.toInt, e.highAlarm.toInt⟩
          ∧ x.2.ordered = true ∧ x.2.inRange x.1 = true) es xs
      ∧ 7 < (⟨1, 0, 0, 0, 0⟩ :: es).length ∧ quantityOf 8 = none ∧ quantityOf 0 = none
      ∧ ¬([⟨1, 0, 0, 0, 0⟩, ⟨1, 0, 0, 0, 0⟩].map (fun (e : LimEntry) => quantityOf e.quantity)).Nodup
      ∧ (⟨0, 1, 0, 0⟩ : Thresholds).ordered = false ∧ (⟨-1, 0, 0, 0⟩ : Thresholds).inRange .supply = false := by
  decide +kernel

/-- The longest MSK list, all 35 pairs, and one bad list for each refusal. -/
theorem witness_LimAndMskSetWhatTheyName_msk :
    let xs : List (Quantity × FlagKind × Bool) := allQuantities.flatMap (fun q => latchOrder.map (fun k => (q, k, true)))
    let es : List MskSetting := allQuantities.flatMap (fun q => latchOrder.map (fun k => ⟨q.code, k.code, 1⟩))
    1 ≤ xs.length ∧ xs.length = 35 ∧ (xs.map (fun x => (x.1, x.2.1))).Nodup
      ∧ List.Forall₂ (fun (e : MskSetting) x => quantityOf e.quantity = some x.1 ∧ flagKindOf e.kind = some x.2.1
          ∧ e.mask = yesNo x.2.2) es xs
      ∧ 35 < (⟨1, 1, 1⟩ :: es).length ∧ flagKindOf 0 = none ∧ flagKindOf 6 = none ∧ (2 : Byte) ≠ 0 ∧ (2 : Byte) ≠ 1
      ∧ ¬([⟨1, 1, 0⟩, ⟨1, 1, 1⟩].map (fun (e : MskSetting) => (quantityOf e.quantity, flagKindOf e.kind))).Nodup := by
  decide +kernel

theorem witness_ClfClearsNamedFlags :
    let ok (ps : List FlagPair) (xs : List (Quantity × FlagKind)) : Prop := xs.Nodup ∧ List.Forall₂ (fun (p : FlagPair) x =>
      quantityOf p.quantity = some x.1 ∧ flagKindOf p.kind = some x.2) ps xs
    ok [⟨4, 1⟩, ⟨4, 5⟩] [(.station .vib, .highAlarm), (.station .vib, .lost)]
      ∧ (∀ x ∈ [(Quantity.station .vib, FlagKind.highAlarm), (.station .vib, .lost)], x.1 ≠ .supply)
      ∧ ok [⟨7, 5⟩] [(.supply, .lost)] ∧ (∀ x ∈ [(Quantity.supply, FlagKind.lost)], x.1 = .supply) ∧ ok [] []
      ∧ latchedVib.link.slot = none := by decide +kernel

/-- One list for each refusal: an unknown quantity and kind, SUPPLY under a station, VIB under GLOBAL, a pair twice. -/
theorem witness_ClfClearsNamedFlags_refused :
    6 < (7 : Byte).toNat ∧ (127 : Byte).toNat < 128 ∧ 128 ≤ (128 : Byte).toNat ∧ (6 : Byte).toNat ≤ 6
      ∧ quantityOf 8 = none ∧ flagKindOf 6 = none ∧ (1 : Byte) ≠ 0 ∧ quantityOf 7 = some .supply
      ∧ quantityOf 4 = some (.station .vib)
      ∧ ¬([⟨4, 1⟩, ⟨4, 1⟩].map (fun (p : FlagPair) => (quantityOf p.quantity, flagKindOf p.kind))).Nodup := by decide +kernel

theorem witness_EncoderEventsTrackTheShaft :
    State.reset.accumulating 0 = none ∧ lastRevolution.accumulating 0 = some .a ∧ (lastRevolution.engine .a).revOpen = true
      ∧ (inWindow true .timed (anEngine .accumulating 0 0) 5).accumulating 0 = some .a
      ∧ ((inWindow true .timed (anEngine .accumulating 0 0) 5).engine .a).revOpen = false := by decide +kernel

/-- The K-th revolution at the edges of the checks: speed 20 rpm below the target, torque at the flank minimum; and the
same on the coast flank with the shaft in reverse, before the K-th. -/
theorem witness_AcceptedRevolutionIsAdded :
    (let s := { lastRevolution with
        drive := lastRevolution.drive.upd 0 (fun d => { d with target := 122000 })
        mon := { lastRevolution.mon with stations := lastRevolution.mon.stations.upd 0 (fun v =>
          v.set 2 { QuantityMon.initial with held := 200 }) } }
     s.accumulating 0 = some .a ∧ (s.engine .a).revOpen = true ∧ (s.engine .a).group = some 0
      ∧ s.line 0 0 = some (aLine (some .a)) ∧ s.enc[(0 : Station)].last = some ⟨10, 0⟩ ∧ s.enc[(0 : Station)].net = 512
      ∧ RevolutionSpeed (elapsed 10 s.now * 1000 + max s.clock.us 0 - 0) s.enc[(0 : Station)].net 1200
      ∧ (1200 - s.drive[(0 : Station)].target.tdiv 100).natAbs ≤ aGroup.tolerance
      ∧ 0 < (s.quantity 0 .torque).held ∧ (aGroup.flankMin : Int) ≤ (s.quantity 0 .torque).held
      ∧ (∀ b : Fin 128, (s.engine .a).samples[b] ≠ some (-32768) ∧ (s.engine .a).samples[b] ≠ some 32767)
      ∧ (s.engine .a).k = some ((s.engine .a).accepted + 1))
    ∧ (let g := { aGroup with flank := .coast }
       let s := { lastRevolution with
        noise := { lastRevolution.noise with
          groups := lastRevolution.noise.groups.upd 0 (fun _ => [{ aLine (some .a) with spec := g }])
          engineA := { lastRevolution.noise.engineA with accepted := 5 } }
        enc := lastRevolution.enc.upd 0 (fun e => { e with net := -512 })
        drive := lastRevolution.drive.upd 0 (fun d => { d with target := -120000 })
        mon := { lastRevolution.mon with stations := lastRevolution.mon.stations.upd 0 (fun v =>
          v.set 2 { QuantityMon.initial with held := -200 }) } }
       s.accumulating 0 = some .a ∧ (s.engine .a).revOpen = true ∧ (s.engine .a).group = some 0
        ∧ s.line 0 0 = some { aLine (some .a) with spec := g } ∧ s.enc[(0 : Station)].last = some ⟨10, 0⟩
        ∧ s.enc[(0 : Station)].net = -512
        ∧ RevolutionSpeed (elapsed 10 s.now * 1000 + max s.clock.us 0 - 0) s.enc[(0 : Station)].net (-1200)
        ∧ (-1200 - s.drive[(0 : Station)].target.tdiv 100).natAbs ≤ g.tolerance
        ∧ (s.quantity 0 .torque).held < 0 ∧ (g.flankMin : Int) ≤ -(s.quantity 0 .torque).held
        ∧ (∀ b : Fin 128, (s.engine .a).samples[b] ≠ some (-32768) ∧ (s.engine .a).samples[b] ≠ some 32767)
        ∧ (s.engine .a).k ≠ some ((s.engine .a).accepted + 1)) := by decide +kernel

/-- What the discard's statement asks of a revolution, but for the check that fails. -/
abbrev closesRevolution (s : State) (l : GroupLine) : Prop :=
  s.accumulating 0 = some .a ∧ (s.engine .a).revOpen = true ∧ (s.engine .a).group = some 0 ∧ s.line 0 0 = some l
    ∧ s.enc[(0 : Station)].last = some ⟨10, 0⟩ ∧ (s.ctx 0).record = some aRecord

/-- A discard at the limit with a line missing; below it with one too many; 21 rpm off the target; a torque of 199 below the
flank minimum; a torque of 0 on the coast flank; a bin at the end of the range. -/
theorem witness_DiscardedRevolutionIsCounted :
    let own := aLine (some .a)
    let extra := { lastRevolution with enc := lastRevolution.enc.upd 0 (fun e => { e with net := 513 }) }
    let off := { lastRevolution with drive := lastRevolution.drive.upd 0 (fun d => { d with target := 122100 }) }
    let weak (n : Int) : State := { lastRevolution with mon := { lastRevolution.mon with
      stations := lastRevolution.mon.stations.upd 0 (fun v => v.set 2 { QuantityMon.initial with held := n }) } }
    let coast : GroupLine := { own with spec := { aGroup with flank := .coast } }
    let idle := weak 0
    let turned : State := { idle with noise := { idle.noise with groups := idle.noise.groups.upd 0 (fun _ => [coast]) } }
    let full : State := { lastRevolution with noise := { lastRevolution.noise with engineA :=
      { lastRevolution.noise.engineA with samples := (Vector.replicate 128 (some 7)).set 5 (some 32767) } } }
    (closesRevolution lastDiscard own ∧ lastDiscard.enc[(0 : Station)].net ≠ 512 ∧ lastDiscard.enc[(0 : Station)].net ≠ -512
      ∧ lastDiscard.inExtended 0 0 = false ∧ lastDiscard.noise.queue = []
      ∧ aGroup.discardLimit ≤ (lastDiscard.engine .a).discarded + 1)
    ∧ (closesRevolution extra own ∧ extra.enc[(0 : Station)].net = 513
      ∧ (extra.engine .a).discarded + 1 < aGroup.discardLimit)
    ∧ (closesRevolution off own
      ∧ RevolutionSpeed (elapsed 10 off.now * 1000 + max off.clock.us 0 - 0) off.enc[(0 : Station)].net 1200
      ∧ aGroup.tolerance < (1200 - off.drive[(0 : Station)].target.tdiv 100).natAbs)
    ∧ (closesRevolution (weak 199) own ∧ aGroup.flank = .drive
      ∧ ¬(0 < ((weak 199).quantity 0 .torque).held ∧ (aGroup.flankMin : Int) ≤ ((weak 199).quantity 0 .torque).held))
    ∧ (closesRevolution turned coast ∧ ¬((turned.quantity 0 .torque).held < 0
        ∧ (coast.spec.flankMin : Int) ≤ -(turned.quantity 0 .torque).held))
    ∧ (closesRevolution full own ∧ (full.engine .a).samples[(5 : Fin 128)] = some 32767) := by
  refine ⟨?_, ?_, ?_, ?_, ?_, ?_⟩ <;> decide +kernel

/-- The discard at the limit with station 2 waiting, and with the window in EXTENDED. -/
theorem witness_DiscardedRevolutionIsCounted_limit :
    (let s := queued secondWaits lastDiscard
     closesRevolution s (aLine (some .a)) ∧ s.enc[(0 : Station)].net = 511 ∧ s.inExtended 0 0 = false
      ∧ s.noise.queue = ⟨1, 0, 0, 60000⟩ :: [] ∧ s.line 1 0 = some (aLine none) ∧ s.heldEngine 1 = none
      ∧ aGroup.discardLimit ≤ (s.engine .a).discarded + 1)
    ∧ (let s := extended 20 lastDiscard
       closesRevolution s (aLine (some .a)) ∧ s.enc[(0 : Station)].net = 511 ∧ s.inExtended 0 0 = true
        ∧ (s.ctx 0).step = some ⟨1, aWindow true, .extended 20, 0, false⟩ ∧ s.stateOf 0 = .running
        ∧ (s.recipe 0).bind (fun r => r.steps[1]?) = some aDwell
        ∧ aGroup.discardLimit ≤ (s.engine .a).discarded + 1) := by
  refine ⟨?_, ?_⟩ <;> decide +kernel

/-- What the completion's statement asks of engine A, held by station 1 for group 0. -/
abbrev completes (s : State) (l : GroupLine) : Prop :=
  (s.engine .a).state = .computing 0 ∧ 1 ≤ elapsed 0 s.now ∧ (s.engine .a).holder = some 0 ∧ (s.engine .a).group = some 0
    ∧ (s.engine .b).holder ≠ some 0 ∧ s.line 0 0 = some l ∧ (s.ctx 0).record = some aRecord

/-- Engine A after 64 revolutions whose average is an impulse of 256 at bin 0: a level of 400 where 100 is the limit. -/
def loudEngine : Engine := { anEngine (.computing 0) 64 2 with bins := (Vector.replicate 128 0).set 0 16384 }

/-- A completion of an open group, a PASS, with nobody and with station 2 waiting; of a group closed SHORT; a FAIL without
stop-on-fail, with the window in EXTENDED, and under stop-on-fail. -/
theorem witness_CompletionDeliversOrDiscards :
    let own := aLine (some .a)
    let short : GroupLine := { own with status := .closed, outcome := some .incomplete, cause := some .short }
    let s := inWindow true .timed (anEngine (.computing 0) 64 2) 1
    let closed : State := { s with noise := { s.noise with groups := s.noise.groups.upd 0 (fun _ => [short]) } }
    let fails := inWindow true (.extended 0) loudEngine 1
    let plain (x : State) : Prop := x.stateOf 0 = .running ∧ (x.engine .a).abandoned = false ∧ x.waiting 0 = false
    let passes (x : Engine) : Bool := figuresPass aGroup (groupFigures x.bins x.accepted aGroup.orders)
    (completes s own ∧ plain s ∧ s.inExtended 0 0 = false ∧ s.noise.queue = [] ∧ passes (s.engine .a) = true)
    ∧ (completes (queued secondWaits s) own ∧ plain (queued secondWaits s) ∧ (queued secondWaits s).line 1 0 = some (aLine none)
      ∧ (queued secondWaits s).heldEngine 1 = none)
    ∧ (completes closed short ∧ plain closed ∧ closed.inExtended 0 0 = false)
    ∧ (completes fails own ∧ plain fails ∧ passes loudEngine = false ∧ fails.stopOnFail 0 = false
      ∧ fails.inExtended 0 0 = true ∧ (fails.ctx 0).step = some ⟨1, aWindow true, .extended 0, 0, false⟩
      ∧ (fails.recipe 0).bind (fun r => r.steps[1]?) = some aDwell)
    ∧ (completes (strict fails) own ∧ plain (strict fails) ∧ (strict fails).stopOnFail 0 = true
      ∧ (strict fails).inExtended 0 0 = true) := by
  refine ⟨?_, ?_, ?_, ?_, ?_⟩ <;> decide +kernel

/-- A completion with the holder gone; for a test begun earlier; with a claim for group 1 deferred, nobody waiting, and with
station 2 waiting and engine B at station 3. -/
theorem witness_CompletionDeliversOrDiscards_deferred :
    let own := aLine (some .a)
    let other : GroupLine := { aLine none with spec := { aGroup with group := 1 } }
    let s := inWindow true .timed (anEngine (.computing 0) 64 2) 1
    let gone : State := { s with seq := State.reset.seq }
    let later := inWindow true .timed { anEngine (.computing 0) 64 2 with abandoned := true } 1
    let claims : State := { s with noise := { s.noise with
      groups := s.noise.groups.upd 0 (fun _ => [own, other]), deferred := s.noise.deferred.upd 0 (fun _ => some 1) } }
    let both : State := let x := queued secondWaits claims
      { x with noise := { x.noise with engineB := engineOf 2 } }
    (gone.stateOf 0 ≠ .running ∧ gone.noise.deferred[(0 : Station)] = none ∧ (gone.engine .a).holder = some 0)
    ∧ (completes later own ∧ (later.engine .a).abandoned = true ∧ later.noise.deferred[(0 : Station)] = none)
    ∧ (completes claims own ∧ claims.noise.deferred[(0 : Station)] = some 1 ∧ claims.line 0 1 = some other
      ∧ claims.inExtended 0 0 = false ∧ claims.stopOnFail 0 = false ∧ claims.noise.queue = [])
    ∧ (completes both own ∧ both.noise.deferred[(0 : Station)] = some 1 ∧ both.line 0 1 = some other
      ∧ both.noise.queue = ⟨1, 0, 0, 60000⟩ :: [] ∧ both.line 1 0 = some (aLine none) ∧ both.heldEngine 1 = none
      ∧ (both.engine .b).state ≠ .free ∧ both.config.waitLimit ≠ 0) := by
  refine ⟨?_, ?_, ?_, ?_⟩ <;> decide +kernel

theorem witness_GrantsGoToHeadOfQueue_engine :
    ((engineWaiting.engine .a).state = .free ∧ engineWaiting.noise.queue = ⟨0, 0, 1, 60000⟩ :: []
      ∧ engineWaiting.line 0 0 = some (aLine none) ∧ engineWaiting.heldEngine 0 = none)
    ∧ (claimDeferred.stateOf 0 = .running ∧ claimDeferred.noise.deferred[(0 : Station)] = some 0
      ∧ claimDeferred.heldEngine 0 = none ∧ claimDeferred.line 0 0 = some (aLine none)
      ∧ claimDeferred.noise.engineA.state = .free)
    ∧ (let held (st : Station) : Engine := { anEngine .accumulating 0 0 with holder := some st }
       let s := { claimDeferred with noise := { claimDeferred.noise with engineA := held 1, engineB := held 2 } }
       s.noise.engineA.state ≠ .free ∧ s.noise.engineB.state ≠ .free ∧ s.config.waitLimit ≠ 0 ∧ s.heldEngine 0 = none) := by
  decide +kernel

/-- A deferred claim with only engine B FREE, and one with neither and a wait limit of 0, in TIMED and in EXTENDED. -/
theorem witness_GrantsGoToHeadOfQueue_deferred :
    (let s : State := { claimDeferred with noise := { claimDeferred.noise with engineA := engineOf 1 } }
     s.stateOf 0 = .running ∧ s.noise.deferred[(0 : Station)] = some 0 ∧ s.heldEngine 0 = none
      ∧ s.line 0 0 = some (aLine none) ∧ s.noise.engineA.state ≠ .free ∧ s.noise.engineB.state = .free)
    ∧ (let s : State := { claimDeferred with
          noise := { claimDeferred.noise with engineA := engineOf 1, engineB := engineOf 2 }
          config := { claimDeferred.config with waitLimit := 0 } }
       s.stateOf 0 = .running ∧ s.noise.deferred[(0 : Station)] = some 0 ∧ s.heldEngine 0 = none
        ∧ s.line 0 0 = some (aLine none) ∧ (s.ctx 0).record = some aRecord ∧ s.noise.engineA.state ≠ .free
        ∧ s.noise.engineB.state ≠ .free ∧ s.config.waitLimit = 0
        ∧ (s.ctx 0).step = some ⟨1, aWindow true, .timed, 0, false⟩
        ∧ ((extended 4 s).ctx 0).step = some ⟨1, aWindow true, .extended 4, 0, false⟩
        ∧ ((extended 4 s).recipe 0).bind (fun r => r.steps[1]?) = some aDwell) := by
  refine ⟨?_, ?_⟩ <;> decide +kernel

/-- The first of a group's two windows, at the wait limit. -/
theorem witness_EngineWaitExpires :
    let l : GroupLine := { aLine none with windows := ⟨1, 2⟩ }
    let w : EngineWait := ⟨0, 0, 1, 60000⟩
    let t := at_ 60001 engineWaiting
    let s := { t with noise := { t.noise with groups := t.noise.groups.upd 0 (fun _ => [l]) } }
    s.RunsStep 0 ⟨1, aWindow true, .timed, 0, false⟩ aRecord ∧ s.noise.queue.find? (fun v => v.station == 0) = some w
      ∧ w.limit ≤ elapsed w.since s.now ∧ s.line 0 w.group = some l ∧ 1 ≠ l.windows.last :=
  ⟨⟨rfl, rfl, rfl⟩, by decide +kernel⟩

/-- The group's last window at the wait limit, in TIMED and in EXTENDED. -/
theorem witness_EngineWaitExpires_last :
    let w : EngineWait := ⟨0, 0, 1, 60000⟩
    let s := at_ 60001 engineWaiting
    s.RunsStep 0 ⟨1, aWindow true, .timed, 0, false⟩ aRecord
      ∧ (extended 1000 s).RunsStep 0 ⟨1, aWindow true, .extended 1000, 0, false⟩ aRecord ∧ (extended 1000 s).nextIs 0 1 aDwell
      ∧ s.noise.queue.find? (fun v => v.station == 0) = some w ∧ w.limit ≤ elapsed w.since s.now
      ∧ s.line 0 w.group = some (aLine none) ∧ (aLine none).windows.last = 1 :=
  ⟨⟨rfl, rfl, rfl⟩, ⟨rfl, rfl, rfl⟩, rfl, by decide +kernel⟩

/-- Station 1 at the duration of a window of group 0 without extend, these windows the group's, the next step this one, its
line and engine A as given, this wait queue. -/
def atWindowEnd (w : GroupWindows) (next : StepSpec) (l : GroupLine) (a : Engine) (queue : List EngineWait) : State :=
  let s := running (aRecipe [aWindow false, next, aDwell] [aGroup] [w]) (aWindow false) .timed 1000
  { s with noise := { Noise.initial with
      engineA := a, queue := queue
      groups := (Noise.initial.groups.upd 0 (fun _ => [{ l with windows := w }])).upd 1 (fun _ => [aLine none]) } }

/-- Station 1 at the window's duration runs the window. -/
theorem atWindowEnd_runsStep (w : GroupWindows) (next : StepSpec) (l : GroupLine) (a : Engine) (queue : List EngineWait) :
    (atWindowEnd w next l a queue).RunsStep 0 ⟨1, aWindow false, .timed, 0, false⟩ aRecord
      ∧ (atWindowEnd w next l a queue).nextIs 0 1 next ∧ 1000 ≤ elapsed 0 (atWindowEnd w next l a queue).now :=
  ⟨⟨rfl, rfl, rfl⟩, rfl, by simp [atWindowEnd, running, at_, State.now]; decide⟩

/-- The first of two windows, and the last with 16 and with 15 accepted revolutions, with nobody and with station 2 in the
queue; still waiting, in the first and in the last; and the first of two windows in a row. -/
theorem witness_WindowEndParksOrCloses :
    let acc (n : Nat) := anEngine .accumulating n 2
    let own := aLine (some .a)
    let mine (w : GroupWindows) (e : Option EngineId) (x : State) : Prop :=
      x.line 0 0 = some { aLine e with windows := w } ∧ (aLine e).status = .opened
    let idle (x : State) : Prop := x.waiting 0 = false ∧ (x.engine .a).state = .accumulating
    let early := atWindowEnd ⟨1, 2⟩ aDwell own (acc 5) []
    let full := atWindowEnd ⟨1, 1⟩ aDwell own (acc 16) []
    let short := atWindowEnd ⟨1, 1⟩ aDwell own (acc 15) []
    let passed := atWindowEnd ⟨1, 1⟩ aDwell own (acc 15) [⟨1, 0, 0, 60000⟩]
    let resumed := atWindowEnd ⟨1, 2⟩ (aWindow false) own (acc 5) []
    (mine ⟨1, 2⟩ (some .a) early ∧ idle early ∧ 1 ≠ 2)
    ∧ (mine ⟨1, 1⟩ (some .a) full ∧ idle full ∧ 16 ≤ (full.engine .a).accepted)
    ∧ (mine ⟨1, 1⟩ (some .a) short ∧ idle short ∧ (short.engine .a).accepted < 16 ∧ short.noise.queue = [])
    ∧ (mine ⟨1, 1⟩ (some .a) passed ∧ idle passed ∧ passed.noise.queue = ⟨1, 0, 0, 60000⟩ :: []
      ∧ passed.line 1 0 = some (aLine none) ∧ passed.heldEngine 1 = none)
    ∧ (∀ w ∈ [(⟨1, 1⟩ : GroupWindows), ⟨1, 2⟩], mine w none (atWindowEnd w aDwell (aLine none) .initial [⟨0, 0, 0, 60000⟩])
      ∧ (atWindowEnd w aDwell (aLine none) .initial [⟨0, 0, 0, 60000⟩]).waiting 0 = true)
    ∧ (mine ⟨1, 2⟩ (some .a) resumed ∧ idle resumed) := by decide +kernel

/-- An ABT in a window: with an engine ACCUMULATING and nobody, or station 2, waiting; with one COMPUTING; in the queue. -/
theorem witness_ExitFromRunningSettlesTest :
    let s (l : GroupLine) (a : Engine) (queue : List EngineWait) := atWindowEnd ⟨1, 1⟩ aDwell l a queue
    let alone := s (aLine (some .a)) (anEngine .accumulating 15 2) []
    let next := s (aLine (some .a)) (anEngine .parked 15 2) [⟨1, 0, 0, 60000⟩]
    let done := s (aLine (some .a)) (anEngine (.computing 999) 64 2) []
    let queued := s (aLine none) .initial [⟨0, 0, 0, 60000⟩]
    alone.link.slot = none
    ∧ (alone.heldEngine 0 = some .a ∧ (alone.engine .a).isComputing = false
      ∧ alone.noise.queue.filter (fun w => w.station != 0) = [])
    ∧ (next.heldEngine 0 = some .a ∧ (next.engine .a).isComputing = false
      ∧ next.noise.queue.filter (fun w => w.station != 0) = ⟨1, 0, 0, 60000⟩ :: [] ∧ next.line 1 0 = some (aLine none)
      ∧ next.heldEngine 1 = none)
    ∧ (done.heldEngine 0 = some .a ∧ (done.engine .a).isComputing = true) ∧ queued.waiting 0 = true := by decide +kernel

/-- Sums that round to the same averages; a sum at each end of the range. -/
theorem witness_NoiseFiguresAreExact :
    0 < 16 ∧ averages (Vector.replicate 128 7) 16 = averages (Vector.replicate 128 0) 16
      ∧ -32768 * (16 : Int) ≤ (Vector.replicate 128 (-524288 : Int))[(0 : Fin 128)]
      ∧ (Vector.replicate 128 (524272 : Int))[(127 : Fin 128)] ≤ 32767 * (16 : Int)
      ∧ (List.replicate 128 (3 : Int)).length = 128 ∧ aGroup.orders[1]? = some ⟨11, 100⟩
      ∧ (groupFigures loudEngine.bins 64 aGroup.orders).levels.length = aGroup.orders.length
      ∧ aGroup.peakLimit = some 2600
      ∧ (∀ b : Fin 128, -32768 * (64 : Int) ≤ loudEngine.bins[b] ∧ loudEngine.bins[b] ≤ 32767 * (64 : Int)) := by
  decide +kernel

/-- Each leak timer at the millisecond of its expiry. -/
theorem witness_LeakTimersMoveThePhase :
    ((inLeak .standstillWait 0 10000).RunsStep 0 ⟨1, .leak, .leak, 0, false⟩ aRecord
      ∧ (inLeak .standstillWait 0 10000).nextIs 0 1 aDwell
      ∧ ((inLeak .standstillWait 0 10000).circuit 0).phaseStart = some 0
      ∧ ((inLeak .standstillWait 0 10000).circuit 0).phase = .standstillWait
      ∧ 10000 ≤ elapsed 0 (inLeak .standstillWait 0 10000).now)
    ∧ ((inLeak .vent 0 1500).RunsStep 0 ⟨1, .leak, .leak, 0, false⟩ aRecord ∧ (inLeak .vent 0 1500).nextIs 0 1 aDwell
      ∧ (inLeak .vent 0 1500).leakSpec 0 = some aLeak ∧ ((inLeak .vent 0 1500).circuit 0).phase = .vent
      ∧ aLeak.ventTime ≤ elapsed 0 (inLeak .vent 0 1500).now)
    ∧ ((inLeak .settle 0 8000).leakSpec 0 = some aLeak ∧ ((inLeak .settle 0 8000).circuit 0).phase = .settle
      ∧ ((inLeak .settle 0 8000).circuit 0).phaseStart = some 0 ∧ aLeak.settleTime ≤ elapsed 0 (inLeak .settle 0 8000).now)
    ∧ (let s := inLeak .vent 0 1500
       let t := { s with seq := s.seq.upd 0 (fun c => { c with state := .stopping, step := none, stopStart := some 0 }) }
       t.leakSpec 0 = some aLeak ∧ (t.circuit 0).phaseStart = some 0 ∧ (t.circuit 0).phase = .vent ∧ t.stateOf 0 = .stopping) :=
  ⟨⟨inLeak_runsStep .., rfl, by decide +kernel⟩, ⟨inLeak_runsStep .., rfl, by decide +kernel⟩, by decide +kernel,
    by decide +kernel⟩

/-- A fill at its time by the holder of the grant. -/
def filling (press : Int) : State :=
  let s := inLeak .fill press 3000
  { s with leak := { s.leak with grant := some 0 } }

/-- A fill 1 Pa below the band, at each of its ends, and 1 Pa above. -/
theorem witness_LeakTimersMoveThePhase_fill :
    ∀ press ∈ [(47999 : Int), 48000, 52000, 52001], (filling press).leakSpec 0 = some aLeak
      ∧ ((filling press).circuit 0).phase = .fill ∧ ((filling press).circuit 0).phaseStart = some 0
      ∧ aLeak.fillTime ≤ elapsed 0 (filling press).now ∧ (filling press).leak.grant = some 0
      ∧ 0 ∉ (filling press).leak.queue ∧ ((filling press).ctx 0).record = some aRecord ∧ (filling press).stopOnFail 0 = false
      ∧ ((filling press).quantity 0 .leakPress).held = press := by decide +kernel

/-- The fill below the band under stop-on-fail, in a LEAK step of a RUNNING station. -/
theorem witness_LeakTimersMoveThePhase_stops :
    let s := strict (filling 47999)
    s.RunsStep 0 ⟨1, .leak, .leak, 0, false⟩ aRecord ∧ s.leakSpec 0 = some aLeak ∧ (s.circuit 0).phase = .fill
      ∧ (s.circuit 0).phaseStart = some 0 ∧ aLeak.fillTime ≤ elapsed 0 s.now ∧ s.leak.grant = some 0 ∧ 0 ∉ s.leak.queue
      ∧ (s.quantity 0 .leakPress).held < (aLeak.testPressure : Int) - aLeak.fillTolerance ∧ s.stopOnFail 0 = true :=
  ⟨⟨rfl, rfl, rfl⟩, by decide +kernel⟩

theorem witness_GrantsGoToHeadOfQueue_supply :
    (supplyWaiting.leak.queue = 0 :: [3] ∧ supplyWaiting.leak.grant = none
      ∧ supplyWaiting.mon.supply.current.lowAlarm = false ∧ supplyWaiting.mon.supply.current.lost = false)
    ∧ State.reset.leak.queue = [] ∧ (filling 50000).leak.grant ≠ none := by decide +kernel

theorem witness_MeasureEndComputesLeakRate :
    let s := atMeasureEnd
    let y : SensorInput := .airTemp 0 (.value 2000)
    let c := (s.circuit 0).measured (aLeak.measureTime / 10) .airTemp ((s.takeSample y).quantity 0 .airTemp).held
    s.RunsStep 0 ⟨1, .leak, .leak, 0, false⟩ aRecord ∧ s.leakSpec 0 = some aLeak ∧ y.target = some (0, .airTemp)
      ∧ (s.circuit 0).phase = .measure ∧ s.latchesNothing 0 .airTemp ((s.gather y).sampleValue y)
      ∧ s.stopOnFail 0 = false ∧ s.leak.grant ≠ some 0 ∧ aLeak.measureTime / 10 ≤ c.pCount
      ∧ aLeak.measureTime / 10 ≤ c.tCount :=
  ⟨⟨rfl, rfl, rfl⟩, by decide +kernel, by decide +kernel, by decide +kernel, by unfold State.latchesNothing; decide +kernel,
    by decide +kernel, by decide +kernel, by decide +kernel, by decide +kernel⟩

/-- The same end with the end sum 10 Pa a sample lower: FAIL_LEAK, under stop-on-fail. -/
theorem witness_MeasureEndComputesLeakRate_fails :
    let s : State := strict (withCircuit (fun c => { c with pEnd := c.pEnd - 160 }) atMeasureEnd)
    let y : SensorInput := .airTemp 0 (.value 2000)
    let c := (s.circuit 0).measured (aLeak.measureTime / 10) .airTemp ((s.takeSample y).quantity 0 .airTemp).held
    s.RunsStep 0 ⟨1, .leak, .leak, 0, false⟩ aRecord ∧ s.leakSpec 0 = some aLeak ∧ (s.circuit 0).phase = .measure
      ∧ s.latchesNothing 0 .airTemp ((s.gather y).sampleValue y) ∧ s.leak.grant ≠ some 0 ∧ aLeak.measureTime / 10 ≤ c.pCount
      ∧ aLeak.measureTime / 10 ≤ c.tCount ∧ s.stopOnFail 0 = true
      ∧ (leakFigures aLeak s.config.patm c.pStart c.pEnd c.tStart c.tEnd).q > aLeak.leakLimit :=
  ⟨⟨rfl, rfl, rfl⟩, by decide +kernel, by decide +kernel, by unfold State.latchesNothing; decide +kernel,
    by decide +kernel, by decide +kernel, by decide +kernel, by decide +kernel, by decide +kernel⟩

/-- A place in the supply in order, and a LEAK step in progress. -/
def inPlace (s : State) : Prop :=
  s.leakSpec 0 = some aLeak ∧ (s.leak.grant = some 0 ↔ (s.circuit 0).phase = .fill) ∧ 0 ∉ s.leak.queue

/-- STANDSTILL_WAIT with the axle turning at 1,200 rpm, and at standstill with the supply free and held by station 4. -/
theorem witness_SampleMovesLeakStep_standstill :
    let s := inLeak .standstillWait 0 60
    let y : SensorInput := .speed 0 false
    let turning := { s with enc := s.enc.upd 0 (fun _ => ⟨some ⟨60, 0⟩, some ⟨10, 0⟩, 512, 0, 0⟩) }
    let held := { s with leak := { s.leak with grant := some 3 } }
    let speed (x : State) : Nat := ((x.takeSample y).quantity 0 .speed).held.natAbs
    (inPlace turning ∧ (turning.circuit 0).phase = .standstillWait ∧ plainSample turning y .speed
      ∧ turning.config.standstill < speed turning)
    ∧ (inPlace s ∧ plainSample s y .speed ∧ speed s ≤ s.config.standstill ∧ s.mon.supply.current.lowAlarm = false
      ∧ s.mon.supply.current.lost = false ∧ s.leak.grant = none ∧ s.leak.queue = [])
    ∧ (inPlace held ∧ plainSample held y .speed ∧ speed held ≤ s.config.standstill ∧ held.leak.grant ≠ none) := by
  unfold inPlace plainSample State.latchesNothing; decide +kernel

/-- SETTLE at 45,000 Pa and 1 Pa below, with stop-on-fail and without; LOST first to latch in MEASURE; LOW_ALARM and LOST of
SUPPLY beginning to hold in FILL. -/
theorem witness_SampleMovesLeakStep_phases :
    let settle := inLeak .settle 50000 100
    let y (n : Int) : SensorInput := .leakPress 0 (.value n)
    let held (n : Int) : Int := ((settle.takeSample (y n)).quantity 0 .leakPress).held
    let measure : State := let s := inLeak .measure 0 100
      { s with mon := { s.mon with stations := s.mon.stations.upd 0 (fun v =>
        v.set 4 { QuantityMon.initial with held := 50000, invalid := 9 }) } }
    let lost : SensorInput := .leakPress 0 .noData
    let fill := filling 20000
    let nearly := { fill with mon := { fill.mon with supply := { fill.mon.supply with invalid := 9 } } }
    let judged (s : State) (r : Reading) :=
      (s.mon.supply.sample ((Reading.valid r).map Quantity.supply.clamp) s.mon.globals[Quantity.supply.idx] true).current
    (inPlace settle ∧ (settle.circuit 0).phase = .settle ∧ plainSample settle (y 45000) .leakPress ∧ held 45000 = 45000
      ∧ plainSample settle (y 44999) .leakPress ∧ held 44999 = 44999 ∧ settle.stopOnFail 0 = false)
    ∧ (inPlace (strict settle) ∧ plainSample (strict settle) (y 44999) .leakPress ∧ (strict settle).stopOnFail 0 = true)
    ∧ (inPlace measure ∧ (measure.circuit 0).phase = .measure ∧ lost.target = some (0, .leakPress)
      ∧ newLatches true ((measure.quantity 0 .leakPress).sample
          (((measure.gather lost).sampleValue lost).map (Quantity.station .leakPress).clamp)
          (measure.reference 0 .leakPress) true).current (measure.quantity 0 .leakPress).latched = .lost :: [])
    ∧ (inPlace fill ∧ (fill.circuit 0).phase = .fill ∧ (judged fill (.value 299999)).lowAlarm = true
      ∧ fill.mon.supply.current.lowAlarm = false)
    ∧ (inPlace nearly ∧ (judged nearly .noData).lost = true ∧ nearly.mon.supply.current.lost = false) := by
  unfold inPlace plainSample State.latchesNothing
  refine ⟨?_, ?_, ?_, ?_, ?_⟩ <;> decide +kernel

/-- The first LEAK_PRESS sample of MEASURE, and the last AIR_TEMP one with one LEAK_PRESS sample missing. -/
theorem witness_SampleMovesLeakStep_measure :
    let n := aLeak.measureTime / 10
    let p : SensorInput := .leakPress 0 (.value 50000)
    let t : SensorInput := .airTemp 0 (.value 2000)
    let first := inLeak .measure 50000 100
    let late := withCircuit (fun c => { c with pCount := 999 }) atMeasureEnd
    (inPlace first ∧ (first.circuit 0).phase = .measure ∧ plainSample first p .leakPress
      ∧ ((first.circuit 0).measured n .leakPress ((first.takeSample p).quantity 0 .leakPress).held).pCount < n)
    ∧ (inPlace late ∧ (late.circuit 0).phase = .measure ∧ plainSample late t .airTemp
      ∧ ((late.circuit 0).measured n .airTemp ((late.takeSample t).quantity 0 .airTemp).held).pCount < n
      ∧ ((late.circuit 0).measured n .airTemp ((late.takeSample t).quantity 0 .airTemp).held).tCount = n) := by
  unfold inPlace plainSample State.latchesNothing
  refine ⟨?_, ?_⟩ <;> decide +kernel

/-- CHN at an IDLE and at a RUNNING station, and each of its entries at the ends of its ranges. -/
theorem witness_ChnSetsOneEntry :
    (let f : ChnFields := ⟨1, 2, 2, 0xFF, 0, 0, 0, 0, 5000⟩
     State.reset.link.slot = none ∧ f.station = stationCode 0
      ∧ State.reset.cond[(0 : Station)].change f = some { Conditioning.live with press := .pattern 5000 }
      ∧ State.reset.stateOf 0 = .idle
      ∧ (running (thenDwell aDwell) aDwell .timed 5).cond[(0 : Station)].change f
        = some { Conditioning.live with press := .pattern 5000 }
      ∧ (running (thenDwell aDwell) aDwell .timed 5).stateOf 0 = .running)
    ∧ ((-32768 : Int) = (-32768 : Word32).toInt ∧ (8000 : Int) = (8000 : Word32).toInt ∧ 1 ≤ (1 : Word16).toNat
      ∧ (5000 : Word16).toNat ≤ 5000)
    ∧ ((7 : Byte).toNat ≠ 0 ∧ 6 < (7 : Byte).toNat ∧ (1 : Byte) = yesNo true ∧ (2 : Byte) ≠ 0 ∧ (2 : Byte) ≠ 1
      ∧ (-32769 : Word32).toInt < -32768 ∧ 250000 < (250001 : Word32).toInt ∧ 8000 < (8001 : Word32).toInt
      ∧ 63 < (64 : Byte).toNat ∧ 16000 < (16001 : Word16).toNat ∧ 127 < (128 : Byte).toNat ∧ 5000 < (5001 : Word16).toNat) := by
  decide +kernel

theorem witness_ChnSetsOneEntry_alone :
    exec .supplyGrant State.reset = .next State.reset ∧ exec (.byteArrival 0) State.reset = .next State.reset
      ∧ State.reset.link.completes 0 = none := ⟨rfl, rfl, rfl⟩

/-- State `s` with station 1's conditioning entries these. -/
def conditioned (c : Conditioning) (s : State) : State := { s with cond := s.cond.upd 0 (fun _ => c) }

/-- The entries of the two leak channels in each mode, in each kind of leak phase; a pattern of 1 Pa/s 500 ms into SETTLE, an
exact half, gives 50,000. -/
theorem witness_ConditionedValuesFollowTheirEntries_leak :
    let pattern : Conditioning := { Conditioning.live with press := .pattern 1 }
    let settling : State := let s := conditioned pattern (inLeak .settle 50000 500)
      { s with leak := { s.leak with circuits := s.leak.circuits.upd 0 (fun c => { c with settleStart := some 0 }) } }
    let d : Int := 1000 * 50000 - (1 * elapsed 0 settling.now : Nat)
    (State.reset.cond[(0 : Station)].press = .live ∧ State.reset.cond[(0 : Station)].temp = .live)
    ∧ ((conditioned { Conditioning.live with press := .fixed 250000, temp := .fixed (-2000) } State.reset).cond[(0 : Station)]
        = { Conditioning.live with press := .fixed 250000, temp := .fixed (-2000) })
    ∧ (∀ p ∈ [LeakPhase.none, .standstillWait, .vent, .waitSupply, .fill, .measure],
        (conditioned pattern (inLeak p 0 5)).cond[(0 : Station)].press = .pattern 1
        ∧ ((conditioned pattern (inLeak p 0 5)).circuit 0).phase = p
        ∧ (conditioned pattern (inLeak p 0 5)).leakSpec 0 = some aLeak)
    ∧ (settling.leakSpec 0 = some aLeak ∧ (settling.circuit 0).phase = .settle ∧ (settling.circuit 0).settleStart = some 0
      ∧ 2 * (1000 * (50000 : Int) - d).natAbs = 1000 ∧ d.natAbs ≤ (1000 * (50000 : Int)).natAbs) := by decide +kernel

/-- An encoder whose latest two index events are 50 ms apart, the last at 300 ms, with this net count between them. -/
def turned (net : Int) (clock : Clock) : State :=
  { State.reset with clock := clock, enc := State.reset.enc.upd 0 (fun _ => ⟨some ⟨300, 0⟩, some ⟨250, 0⟩, net, 0, 0⟩) }

/-- R77: no index event; the last one 500,000 µs before the sample and 500,001; a net count of 0; and the manual's speeds, with
an exact half and a reverse turn. -/
theorem witness_ConditionedValuesFollowTheirEntries_speed :
    State.reset.enc[(0 : Station)].last = none
      ∧ (∀ s ∈ [turned 512 ⟨800, 0⟩, turned 512 ⟨800, 1⟩, turned 0 ⟨800, 0⟩],
          s.enc[(0 : Station)].last = some ⟨300, 0⟩ ∧ s.enc[(0 : Station)].prev = some ⟨250, 0⟩)
      ∧ elapsed 300 (turned 512 ⟨800, 0⟩).clock.now * 1000 + (turned 512 ⟨800, 0⟩).clock.us - 0 ≤ 500000
      ∧ 500000 < elapsed 300 (turned 512 ⟨800, 1⟩).clock.now * 1000 + (turned 512 ⟨800, 1⟩).clock.us - 0
      ∧ (turned 512 ⟨800, 0⟩).enc[(0 : Station)].latestNet ≠ 0 ∧ (turned 0 ⟨800, 0⟩).enc[(0 : Station)].latestNet = 0
      ∧ RevolutionSpeed (elapsed 250 300 * 1000 + 0 - 0) 512 1200 ∧ RevolutionSpeed 66667 512 900
      ∧ RevolutionSpeed 14000 512 4286 ∧ RevolutionSpeed 64000 512 938 ∧ RevolutionSpeed 64000 (-512) (-938)
      ∧ ¬RevolutionSpeed 64000 512 937 := by decide +kernel

/-- R77, R79: what SPEED holds after a sample of each, and after one with a reported fault; 4,286 rpm is clamped to 4,000. -/
theorem test_speed_samples :
    (((after (.monitorSample (.speed 0 false)) (turned 512 ⟨800, 0⟩)).quantity 0 .speed).held = 1200
      ∧ ((after (.monitorSample (.speed 0 false)) (turned 512 ⟨800, 1⟩)).quantity 0 .speed).held = 0)
    ∧ ((after (.monitorSample (.speed 0 true)) (turned 512 ⟨800, 0⟩)).quantity 0 .speed).lastValid = false
    ∧ (let s := { turned (-512) ⟨301, 0⟩ with enc := State.reset.enc.upd 0 (fun _ =>
        ⟨some ⟨300, 0⟩, some ⟨286, 0⟩, -512, 0, 0⟩) }
       ((after (.monitorSample (.speed 0 false)) s).quantity 0 .speed).held = -4000) := by decide +kernel

/-- A revolution to open, and bin 1's crossing at line 4; a tone of order 1, amplitude 16,000 and phase 32 inverted gives
−16,000 at bin 0; VIB with a LIVE fault and without. -/
theorem witness_ConditionedValuesFollowTheirEntries_accel :
    let tone : Conditioning := { Conditioning.live with accel := .pattern 1 16000 32, invert := true }
    let opening := conditioned tone (inWindow true .timed (anEngine .accumulating 0 0) 60)
    let crossing : State := let s := inWindow true .timed { anEngine .accumulating 0 0 with revOpen := true } 60
      { s with enc := s.enc.upd 0 (fun _ => ⟨some ⟨10, 0⟩, none, 0, 3, 3⟩) }
    (opening.accumulating 0 = some .a ∧ (opening.engine .a).revOpen = false
      ∧ opening.cond[(0 : Station)].accel = .pattern 1 16000 32 ∧ opening.cond[(0 : Station)].invert = true
      ∧ 2 * (32767 * 16000 - 16000 * sine ((1 * 0 + 32) % 128)).natAbs ≤ 32767 ∧ (16000 : Int) ≠ -32768)
    ∧ (crossing.accumulating 0 = some .a ∧ (crossing.engine .a).revOpen = true
      ∧ (crossing.engine .a).samples[(1 : Fin 128)] = none ∧ crossing.enc[(0 : Station)].last ≠ none
      ∧ (crossing.enc[(0 : Station)].pos + 1).val = 4 * 1 ∧ crossing.cond[(0 : Station)].accel = .live)
    ∧ (State.reset.cond[(0 : Station)].accel = .live ∧ State.reset.mon.vib[(0 : Station)].fault = false
      ∧ ((0x8000 : Word16).toInt = -32768) ∧ ∀ n, AccelReading.noData ≠ .value n) :=
  ⟨by decide +kernel, by decide +kernel, by decide +kernel, by decide +kernel, by decide, fun _ h => AccelReading.noConfusion h⟩

/-- A deposit into a store of one record, with the last number of all; and an RLR of a full store. -/
theorem witness_DepositNumbersRecord :
    let r : Record := { aRecord with endTime := some 9, verdict := some .fail }
    let full := (List.range 48).map (· + 612)
    ((depositing [658] 4294967295).store.deposit = 0 :: [] ∧ (depositing [658] 4294967295).store.next = some 4294967295
      ∧ ((depositing [658] 4294967295).ctx 0).record = some r
      ∧ ((depositing [658] 4294967295).ctx 0).test = some (aTest (aRecipe [])) ∧ r.verdict = some .fail
      ∧ (depositing [658] 4294967295).store.records.length < 48)
    ∧ (depositing full 660).store.deposit = 0 :: [] ∧ (depositing full 660).store.next = some 660
    ∧ ((depositing full 660).ctx 0).record = some r ∧ (depositing full 660).link.slot = none
    ∧ (depositing full 660).store.records.length = 48
    ∧ (depositing full 660).store.records.head? = some (stored 612)
    ∧ (stored 612).number = some (612 : Word32).toNat := by decide +kernel

theorem witness_DepositNumbersRecord_rlr :
    State.reset.link.slot = none ∧ State.reset.store.records = [] ∧ (holding [4, 5] 6).link.slot = none
      ∧ (holding [4, 5] 6).store.records = stored 4 :: [stored 5] ∧ (stored 4).number = some (4 : Word32).toNat
      ∧ (stored 4).number ≠ some (5 : Word32).toNat ∧ (holding [4, 5] 6).store.deposit = [] := by decide +kernel

/-- A station waiting beside an exhausted numbering, and one beside a full store. -/
theorem witness_DepositNumbersRecord_waiting :
    let s := depositing [4, 5] 6
    let exhausted : State := { s with store := { s.store with next := none } }
    exhausted.store.next = none ∧ exhausted.store.records = stored 4 :: [stored 5] ∧ exhausted.link.slot = none
      ∧ exhausted.store.deposit = [0] ∧ 48 ≤ (depositing ((List.range 48).map (· + 612)) 660).store.records.length := by
  decide +kernel

/-- The auto-snapshot timer at its expiry, and an SNP taken. -/
theorem witness_SnapshotCopiesAndZeroes :
    (snapshotTimer 1950000).counters.autoStart = some 1350000
      ∧ (snapshotTimer 1950000).config.autoInterval * 1000 ≤ elapsed 1350000 (snapshotTimer 1950000).now
      ∧ (snapshotTimer 1950000).link.slot = none
      ∧ (after (.snp 7) (snapshotTimer 1950000)).link.slot
        = some ⟨0xC8, 7, 0x00 :: (after (.snp 7) (snapshotTimer 1950000)).counters.snapshot.bytes⟩ := by decide +kernel

theorem witness_RrsReadsAndZeroes :
    (loaded 3 20 1).link.slot = none ∧ (3210 : Word16) ≠ 0 ∧ (3211 : Word16) ≠ 0
      ∧ (loaded 3 20 1).lookup (3210 : Word16).toNat = some (2, 0, ⟨thenDwell aDwell, false, 3, 0, 20, 1⟩)
      ∧ (loaded 3 20 1).lookup (3211 : Word16).toNat = none := by decide +kernel

/-- A body of variant 3,210, beside an empty set, beside a locked entry; a clean unlocked entry. -/
theorem witness_RecipesInstallDropAndPin :
    let r : Recipe := { aRecipe [aDwell] with body := aBody 3210, fingerprint := crc16 (aBody 3210) }
    RecipeCarried (aBody 3210) r ∧ State.reset.link.slot = none ∧ LengthAgrees (aBody 3210)
      ∧ State.reset.lookup r.variant = none ∧ RecipeSet.freeWay State.reset.table[setIndex r.variant] = some 0
      ∧ (loaded 3 0 0).lookup r.variant = some (2, 0, ⟨thenDwell aDwell, false, 3, 0, 0, 0⟩) ∧ 3 ≠ 0
      ∧ (loaded 0 0 0).lookup r.variant = some (2, 0, ⟨thenDwell aDwell, false, 0, 0, 0, 0⟩)
      ∧ (loaded 0 0 0).link.slot = none ∧ (loaded 3 0 0).link.slot = none :=
  ⟨(validate_ok_iff _ _).1 (by decide +kernel), by decide +kernel⟩

/-! The manual's worked validation (R34): eight steps, groups 2 and 0, a leak specification, and an override of OIL_TEMP. -/

/-- A RAMP record with this target. -/
def rampRecord (target : Word16) : List Byte :=
  1 :: (le16 target ++ le16 250 ++ le16 6000 ++ 10 :: (le16 500 ++ le32 8000 ++ [0, 0]))

/-- A DWELL record with this window byte. -/
def dwellRecord (window : Byte) : List Byte := 2 :: (le32 1000 ++ window :: 0 :: (le32 0 ++ List.replicate 5 0))

/-- A CHECK record of this quantity, at least 35.00 °C over 1,000 ms. -/
def checkRecord (quantity : Byte) : List Byte := 4 :: quantity :: (le16 1000 ++ 1 :: (le32 3500 ++ le16 0 ++ List.replicate 5 0))

/-- A group record: this group and K, the rest as `aGroup`. -/
def groupBytes (group : Byte) (k : Word16) : List Byte :=
  group :: (le16 k ++ 0 :: (le16 200 ++ 20 :: (le16 32 ++ 2 :: 1 :: (le16 2600 ++ 32 :: (le32 126000 ++ 11 :: (le32 100
    ++ List.replicate 10 0))))))

/-- The leak record of `aLeak` with this test volume. -/
def leakBytes (volume : Word32) : List Byte :=
  le32 50000 ++ le16 2000 ++ le16 3000 ++ le32 8000 ++ le16 5000 ++ le16 10000 ++ le32 volume ++ le32 1200 ++ le32 300 ++ le16 1500

/-- An override record of this quantity: a high alarm of 140.00 °C alone. -/
def overrideBytes (quantity : Byte) : List Byte := quantity :: 8 :: (le32 0 ++ le32 0 ++ le32 0 ++ le32 14000)

/-- The worked body, with these in the places the manual varies. -/
def workedBody (check w4 w6 : Byte) (target : Word16) (k : Word16) (volume : Word32) (overs : List Byte) : List Byte :=
  le16 3210 ++ [7, 0, 1, 8, 2, 1, byteOf overs.length]
    ++ rampRecord 1200 ++ dwellRecord 2 ++ checkRecord check ++ dwellRecord w4 ++ rampRecord (BitVec.ofInt 16 (-900))
    ++ dwellRecord w6 ++ rampRecord target ++ (5 :: List.replicate 15 0)
    ++ groupBytes 2 k ++ groupBytes 0 64 ++ leakBytes volume ++ overs.flatMap overrideBytes

/-- What it carries as the manual has it, but for the bytes and their fingerprint: group 2's windows 2 and 4, group 0's 6. -/
def workedRecipe : Recipe :=
  let ramp (target : Int) : StepSpec := .ramp target 250 6000 10 500 8000
  let window (g : Nat) : StepSpec := .dwell 1000 (some g) false 0
  { body := [], variant := 3210, revision := 7, cls := .production, stopOnFail := true
    steps := [ramp 1200, window 2, .check .oilTemp 1000 .atLeast 3500 0, window 2, ramp (-900), window 0, ramp 0, .leak]
    groups := [{ aGroup with group := 2 }, aGroup], leak := some aLeak
    overrides := [⟨.oilTemp, none, none, none, some 14000⟩], windows := [⟨2, 4⟩, ⟨6, 6⟩], fingerprint := 0 }

/-- R34: the worked recipe validates. -/
theorem witness_RecipesInstallDropAndPin_carried :
    let body := workedBody 1 2 0 0 64 18000 [1]
    LengthAgrees body ∧ ∃ r, RecipeCarried body r ∧ { r with body := [], fingerprint := 0 } = workedRecipe := by
  intro body
  have h : (validate body).toOption.map (fun r => { r with body := [], fingerprint := 0 }) = some workedRecipe := by decide +kernel
  refine ⟨by decide +kernel, ?_⟩
  cases hv : validate body with
  | error e => rw [hv] at h; cases h
  | ok r => rw [hv] at h; exact ⟨r, (validate_ok_iff _ _).1 hv, Option.some.inj h⟩

/-- R33, R34: the manual's variations, SUPPLY in step 3, the groups of windows 4 and 6 exchanged, and target 300 in step 7; and
a K of 15, a volume of 99 and an override named twice. -/
theorem witness_RecipesInstallDropAndPin_refused :
    RecipeRefused (workedBody 7 2 0 0 64 18000 [1]) .step 3 ∧ RecipeRefused (workedBody 1 0 2 0 64 18000 [1]) .step 6
      ∧ RecipeRefused (workedBody 1 2 0 300 64 18000 [1]) .step 8 ∧ RecipeRefused (workedBody 1 2 0 0 15 18000 [1]) .groupSpec 1
      ∧ RecipeRefused (workedBody 1 2 0 0 64 99 [1]) .leakSpec 1 ∧ RecipeRefused (workedBody 1 2 0 0 64 18000 [1, 1]) .override 2
      ∧ LengthAgrees (workedBody 1 2 0 0 64 18000 [1, 1]) :=
  ⟨(validate_error_iff _ ⟨.step, 3⟩).1 (by decide +kernel), (validate_error_iff _ ⟨.step, 6⟩).1 (by decide +kernel),
    (validate_error_iff _ ⟨.step, 8⟩).1 (by decide +kernel), (validate_error_iff _ ⟨.groupSpec, 1⟩).1 (by decide +kernel),
    (validate_error_iff _ ⟨.leakSpec, 1⟩).1 (by decide +kernel), (validate_error_iff _ ⟨.override, 2⟩).1 (by decide +kernel),
    by decide +kernel⟩

/-- Set 2 full: four entries of these pinned marks, of ranks 0 to 3, the last with statistics to write back. -/
def fullSet (pinned : Bool) : State :=
  let e (v rank tests : Nat) : Option Entry := some ⟨{ thenDwell aDwell with variant := v }, pinned, 0, rank, tests, 0⟩
  { State.reset with table := State.reset.table.set 2 #v[e 2 0 0, e 10 1 0, e 18 2 0, e 26 3 5] }

/-- A body in place over a dirty pinned entry; over the victim of a full set, way 3; beside a set with every entry pinned; a
body of class 2; a variant the table does not hold. -/
theorem witness_RecipesInstallDropAndPin_retire :
    (let e : Entry := ⟨thenDwell aDwell, true, 0, 0, 20, 1⟩
     let s := { State.reset with table := State.reset.table.set 2 ((State.reset.table[2]).set 0 (some e)) }
     s.link.slot = none ∧ s.lookup 3210 = some (setIndex 3210, (0 : Fin 4), e) ∧ s.table[setIndex 3210][(0 : Fin 4)] = some e
      ∧ e.lock = 0 ∧ (e.tests ≠ 0 ∨ e.fails ≠ 0))
    ∧ (let s := fullSet false
       s.link.slot = none ∧ s.lookup 3210 = none ∧ RecipeSet.freeWay s.table[setIndex 3210] = none
        ∧ ((s.table[setIndex 3210][(3 : Fin 4)]).map (fun e => (e.lock, e.pinned, e.rank, e.tests))) = some (0, false, 3, 5)
        ∧ ∀ v : Fin 4, v ≠ 3 → (s.table[setIndex 3210][v]).any (fun d => decide (d.rank < 3)) = true)
    ∧ (let s := fullSet true
       s.link.slot = none ∧ s.lookup 3210 = none ∧ ∀ v : Fin 4, (s.table[setIndex 3210][v]).any Entry.pinned = true)
    ∧ LengthAgrees ((aBody 3210).set 3 2) ∧ ¬LengthAgrees ((aBody 3210).set 6 1)
    ∧ (fullSet true).lookup (3210 : Word16).toNat = none ∧ (3210 : Word16) ≠ 0 := by decide +kernel

theorem witness_CfgAppliesClampedFields :
    (2 : Byte) ≠ 0 ∧ (2 : Byte) ≠ 1 ∧ State.reset.link.slot = none ∧ (1 : Byte) = LineMode.verify.code
      ∧ LineMode.verify ≠ State.reset.config.mode
      ∧ (∀ st : Station, State.reset.stateOf st ≠ .running ∧ State.reset.stateOf st ≠ .stopping
          ∧ State.reset.stateOf st ≠ .completing)
      ∧ LineMode.verify ≠ (stopping 5).config.mode ∧ (stopping 5).stateOf 0 = .stopping ∧ (stopping 5).link.slot = none := by
  decide +kernel

/-- Each receive state, and a length on each side of each bound: 1, 2, 1,018 and 1,019. -/
theorem witness_ReceiverAndTransmitterGoOn_receiver :
    State.reset.link.recv = .hunting ∧ (0x5A : Byte) ≠ 0xA5
      ∧ (receiving [] none).link.recv = .receiving ∧ (receiving [] none).link.expected = none
      ∧ (receiving [] none).link.frame = []
      ∧ (receiving [0xFA] none).link.frame = [0xFA] ∧ (receiving [0xFA] none).link.expected = none
      ∧ (0xFA : Byte).toNat + 256 * (0x03 : Byte).toNat = 1018 ∧ 1018 < (0xFB : Byte).toNat + 256 * (0x03 : Byte).toNat
      ∧ 2 ≤ (2 : Byte).toNat + 256 * (0 : Byte).toNat ∧ (1 : Byte).toNat + 256 * (0 : Byte).toNat < 2
      ∧ (receiving [2, 0, 0x01] (some 2)).link.expected = some 2
      ∧ (receiving [2, 0, 0x01] (some 2)).link.frame.length + 1 ≠ 2 + 4 := by decide +kernel

theorem witness_ReceiverAndTransmitterGoOn_transmitter :
    ((receiving [5] none).link.recv = .receiving ∧ (receiving [5] none).link.gapStart = some 0
      ∧ 20 ≤ elapsed 0 (at_ 20 (receiving [5] none)).now)
    ∧ (busy State.reset).link.tx = .reply ∧ (busy State.reset).link.restartPending = false
    ∧ ({ State.reset.link with tx := .notice ⟨false, .nrt 1 2 3 4⟩ } : Link).tx = .notice ⟨false, .nrt 1 2 3 4⟩
    ∧ State.reset.link.tx = .free := by decide +kernel

/-- The shortest frame at its last byte: with a wrong CRC, with a good one at a full slot, and of no request's kind. -/
theorem witness_CompleteFrameIsJudged :
    (let s := almost 0x7F 7
     let f := s.link.frame ++ [lastByte 0x7F 7]
     let g := s.link.frame ++ [lastByte 0x7F 7 + 1]
     s.link.recv = .receiving ∧ s.link.expected = some (s.link.frame.length - 3) ∧ 5 ≤ s.link.frame.length
      ∧ crc16 (f.take (f.length - 2)) = byteAt f (f.length - 2) ++ byteAt f (f.length - 1)
      ∧ crc16 (g.take (g.length - 2)) ≠ byteAt g (g.length - 2) ++ byteAt g (g.length - 1)
      ∧ s.link.slot = none ∧ byteAt f 2 = 0x7F ∧ (busy s).link.slot ≠ none)
    ∧ byteAt ((almost 0x90 7).link.frame ++ [lastByte 0x90 7]) 2 ∉
        [0x01, 0x02, 0x10, 0x11, 0x12, 0x13, 0x14, 0x15, 0x16, 0x20, 0x21, 0x22, 0x23, 0x24, 0x30,
          0x31, 0x32, 0x33, 0x38, 0x40, 0x41, 0x48, 0x49, (0x4A : Byte)] := by decide +kernel

/-- Frames without a payload of a kind that asks for one: REL, STT, LDR, LIM, MSK, CLF. -/
theorem witness_CompleteFrameIsJudged_length :
    ∀ kind ∈ [(0x12 : Byte), 0x10, 0x20, 0x30, 0x31, 0x33],
      let s := almost kind 7
      let f := s.link.frame ++ [lastByte kind 7]
      s.link.recv = .receiving ∧ s.link.expected = some (s.link.frame.length - 3) ∧ 5 ≤ s.link.frame.length
        ∧ crc16 (f.take (f.length - 2)) = byteAt f (f.length - 2) ++ byteAt f (f.length - 1) ∧ s.link.slot = none
        ∧ byteAt f 2 = kind ∧ (f.take (f.length - 2)).drop 4 = [] ∧ ¬LengthAgrees [] := by decide +kernel

/-- A queue of 15 and one of 16; a drive fault whose NST a FREE transmitter begins; a RUNNING station at an emergency stop. -/
theorem witness_NoticesJoinTheQueueOrAreLost :
    let n : Notice := ⟨false, .nrt 1 2 3 4⟩
    let s := running (thenDwell aDwell) aDwell .timed 5
    (List.replicate 15 n).length < 16 ∧ 16 ≤ (List.replicate 16 n).length
    ∧ (s.GivesNotices (after (.driveFault 0 true) s) [.nst 0 .stopping (some .driveFault) none] ∧ s.link.tx = .free
      ∧ s.link.slot = none ∧ s.link.queue = [])
    ∧ (s.pins.estop = false ∧ s.stateOf 0 = .running
      ∧ (∀ j : Station, j ≠ 0 → s.stateOf j ≠ .running ∧ s.stateOf j ≠ .stopping)
      ∧ (s.ctx 0).test = some (aTest (thenDwell aDwell)) ∧ (s.ctx 0).record = some aRecord) := by
  unfold State.GivesNotices; decide +kernel

/-! ### States that meet what every step keeps, and a step from them -/

/-- A store of two records, the command waiting that releases the older. -/
def releasing : State := (holding [4, 5] 6).withPending [.rlr 7 4]

theorem witness_EveryStepKeepsStoreNumbered :
    releasing.Numbered ∧ ∃ t, step releasing = .next t ∧ t.store.records = [stored 5] := by
  refine ⟨⟨?_, ?_, ?_⟩, _, rfl, by decide +kernel⟩
  · intro r h
    have h : r ∈ [stored 4, stored 5] := h
    simp only [List.mem_cons, List.not_mem_nil, or_false] at h
    rcases h with rfl | rfl
    · exact ⟨4, rfl, by decide, by decide, show 4 < 6 by decide⟩
    · exact ⟨5, rfl, by decide, by decide, show 5 < 6 by decide⟩
  · have h : releasing.store.records = [stored 4, stored 5] := rfl
    rw [h]
    refine List.pairwise_pair.2 fun j k hj hk => ?_
    have hj : some 4 = some j := hj
    have hk : some 5 = some k := hk
    cases hj; cases hk; decide
  · intro n h
    have h : some 6 = some n := h
    cases h; decide

theorem witness_EveryStepKeepsRemarksDistinct :
    releasing.RemarksKept ∧ ∃ t, step releasing = .next t ∧ t.store.records = [stored 5] := by
  refine ⟨⟨?_, ?_⟩, _, rfl, by decide +kernel⟩
  · intro st r h
    have n : ∀ j : Station, (releasing.ctx j).record = none := by decide +kernel
    rw [n st] at h
    cases h
  · intro r h
    have h : r ∈ [stored 4, stored 5] := h
    simp only [List.mem_cons, List.not_mem_nil, or_false] at h
    rcases h with rfl | rfl <;> exact ⟨by decide, by decide, by decide⟩

theorem witness_EveryStepKeepsBounds :
    releasing.Bounded ∧ ∃ t, step releasing = .next t ∧ t.store.records = [stored 5] := by
  refine ⟨⟨⟨?_, ?_⟩, ⟨?_, ?_⟩, ?_, by decide +kernel, by decide +kernel, ?_, ?_⟩, _, rfl, by decide +kernel⟩
  · unfold StationCounters.fits; decide +kernel
  · unfold GlobalCounters.fits; decide +kernel
  · unfold StationCounters.fits; decide +kernel
  · unfold GlobalCounters.fits; decide +kernel
  · intro i w e h
    have n : ∀ (j : Fin 8) (v : Fin 4), releasing.table[j][v] = none := by decide +kernel
    rw [n i w] at h
    cases h
  · unfold LineConfig.inRange; decide +kernel
  · intro q
    cases q with
    | supply => decide +kernel
    | station q => cases q <;> decide +kernel

theorem witness_EveryStepKeepsValvesInPhase :
    let s := supplyWaiting.withPending [.supplyGrant]
    s.ValvesFollowPhase ∧ ∃ t, step s = .next t ∧ (t.circuit 0).phase = .fill := by
  refine ⟨?_, _, rfl, by decide +kernel⟩
  unfold State.ValvesFollowPhase; decide +kernel

theorem witness_EveryStepKeepsAgeRanksDense :
    let s := (loaded 0 20 1).withPending [.drp 7 3210]
    s.RanksDense ∧ ∃ t, step s = .next t ∧ t.table[(2 : Fin 8)][(0 : Fin 4)] = none := by
  refine ⟨?_, _, rfl, by decide +kernel⟩
  unfold State.RanksDense; decide +kernel

/-- Station 1 alone in the supply wait queue, granted at the step. -/
theorem witness_EveryStepKeepsStationsInPlace :
    let w := inLeak .waitSupply 0 700
    let s := ({ w with leak := { w.leak with queue := [0] } } : State).withPending [.supplyGrant]
    s.StationsInPlace ∧ ∃ t, step s = .next t ∧ t.leak.grant = some 0 := by
  intro w s
  have phases : ∀ st : Station, (s.circuit st).phase ≠ .none → st = 0 := by decide +kernel
  refine ⟨⟨by decide +kernel, fun st h => ?_, by decide +kernel, by decide +kernel, by decide +kernel, by decide +kernel,
    by decide +kernel⟩, _, rfl, by decide +kernel⟩
  obtain rfl := phases st h
  exact .inl ⟨rfl, _, rfl, rfl, rfl⟩

/-- Variant 3,210's recipe, locked once by station 1 RUNNING it, deposited by the emergency stop. -/
theorem witness_EveryStepKeepsLocksCounted :
    let r := running (thenDwell aDwell) aDwell .timed 5
    let s := (loaded 1 20 1 { r with seq := r.seq.upd 0 (fun c => { c with
      test := c.test.map (fun t => { t with ref := .table 2 0 }) }) }).withPending [.emergencyStop []]
    s.StationsInPlace ∧ s.LocksCounted ∧ ∃ t, step s = .next t
      ∧ (t.table[(2 : Fin 8)][(0 : Fin 4)]).map (fun e => (e.lock, e.tests)) = some (0, 21) := by
  refine ⟨⟨by decide +kernel, fun st h => ?_, by decide +kernel, by decide +kernel, by decide +kernel, by decide +kernel,
    by decide +kernel⟩, by unfold State.LocksCounted; decide +kernel, _, rfl, by decide +kernel⟩
  exact absurd h (by revert st; decide +kernel)

/-- Engine A held by station 1, which gives it up at an ABT. -/
theorem witness_EveryStepKeepsEnginesHeld :
    let s := (inWindow true .timed (anEngine .accumulating 5 0) 5).withPending [.abt 7 1]
    s.EnginesHeld ∧ ∃ t, step s = .next t ∧ t.noise.engineA.holder = none := by
  refine ⟨⟨fun e => ?_, fun e => ?_, fun e => ?_, by decide +kernel⟩, _, rfl, by decide +kernel⟩ <;> cases e <;> decide +kernel

end Sys2Proof.Tests
end

section
/-! PROOFS. Test stations and their lifecycle: what REL (R22) and ENA (R23) come to, and what the restart (R26) keeps of a
station. -/

namespace Sys2Proof.Machine

open Sys2Proof

/-! ### A request that names a station -/

/-- A request that numbers a station goes on with the station. -/
theorem withStation_stationCode (st : Station) (s : State) (f : Station → State × List Byte) :
    withStation (stationCode st) s f = f st := by
  simp only [withStation, stationOf_stationCode]

/-- A request with a number outside 1 to 6 is refused BAD_STATION and changes nothing. -/
theorem withStation_badStation (b : Byte) (s : State) (f : Station → State × List Byte)
    (h : b.toNat = 0 ∨ 6 < b.toNat) : withStation b s f = (s, [0x04]) := by
  simp only [withStation, stationOf_eq_none b h]
  rfl

/-! ### REL (R22) -/

/-- REL with the slot empty: its rule on the state with the receiver in HUNTING, and the reply. -/
theorem exec_rel_of_serveRel {tag b : Byte} {s t : State} {payload : List Byte} (hslot : s.link.slot = none)
    (hserve : serveRel b s.received = (t, payload)) : exec (.rel tag b) s = .next (t.replies 0x92 tag payload) := by
  have harm : exec (.rel tag b) s = request 0x12 tag (serveRel b) s := rfl
  rw [harm, request_taken _ _ _ _ hslot (by decide), hserve]
  rfl

/-- REL of a DONE station releases it. -/
theorem serveRel_of_done {s : State} {st : Station} (h : s.stateOf st = .done) :
    serveRel (stationCode st) s = (s.releaseStation st, [0x00]) := by
  rw [serveRel, withStation_stationCode, if_pos h]
  rfl

/-- REL of a station that is not DONE is refused STATE. -/
theorem serveRel_of_not_done {s : State} {st : Station} (h : s.stateOf st ≠ .done) :
    serveRel (stationCode st) s = (s, [0x05]) := by
  rw [serveRel, withStation_stationCode, if_neg h]
  rfl

namespace State

/-- The released station's context: IDLE, with no test fields and no record (R22). -/
theorem releaseStation_ctx_self (s : State) (st : Station) :
    (s.releaseStation st).ctx st = { s.ctx st with state := .idle, test := none, record := none } := by
  simp [releaseStation, ctx]

/-- The released station's group table is empty (R22, R98). -/
theorem releaseStation_groups_self (s : State) (st : Station) : (s.releaseStation st).noise.groups[st] = [] := by
  simp [releaseStation]

/-- A release counts nothing and sets the station's change-of-state flag (R22, R183). -/
theorem releaseStation_counters (s : State) (st : Station) :
    (s.releaseStation st).counters = { s.counters with changed := s.counters.changed.upd st (fun _ => true) } := rfl

/-- A release leaves the other stations. -/
theorem releaseStation_othersKept (s : State) (st : Station) : s.OthersKept (s.releaseStation st) st :=
  fun _ hj => ⟨releaseStation_seq_other s (Ne.symm hj), rfl⟩

end State

/-- Settles O15: each clause is the case of REL's rule that its premise names. -/
theorem relReturnsDoneStation : Obligations.RelReturnsDoneStation := by
  intro tag s hslot
  refine ⟨fun b hb => exec_rel_of_serveRel hslot (withStation_badStation b _ _ hb), fun st => ⟨fun hdone => ?_, fun hne =>
    exec_rel_of_serveRel hslot (serveRel_of_not_done hne)⟩⟩
  have hctx := s.received.releaseStation_ctx_self st
  refine ⟨_, exec_rel_of_serveRel hslot (serveRel_of_done hdone), congrArg StationCtx.state hctx,
    (congrArg StationCtx.enabled hctx :), congrArg StationCtx.test hctx, congrArg StationCtx.record hctx,
    s.received.releaseStation_groups_self st, ?_, ?_, rfl, s.received.releaseStation_othersKept st,
    ⟨rfl, rfl, rfl, rfl, rfl⟩, rfl, rfl, rfl, rfl, rfl⟩
  · simp [State.releaseStation_counters]
  · simp [State.releaseStation_counters]

/-! ### ENA (R23) -/

/-- ENA with the slot empty: its rule on the state with the receiver in HUNTING, and the reply. -/
theorem exec_ena_of_serveEna {tag b e : Byte} {s t : State} {payload : List Byte} (hslot : s.link.slot = none)
    (hserve : serveEna b e s.received = (t, payload)) : exec (.ena tag b e) s = .next (t.replies 0x93 tag payload) := by
  have harm : exec (.ena tag b e) s = request 0x13 tag (serveEna b e) s := rfl
  rw [harm, request_taken _ _ _ _ hslot (by decide), hserve]
  rfl

/-- A station's state and enabled flag set together, with the change-of-state flag, are one change of its context. -/
theorem State.setState_modCtx_enabled (s : State) (st : Station) (on : Bool) (x : StationState) :
    (s.modCtx st (fun c => { c with enabled := on })).setState st x =
      (s.modCtx st (fun c => { c with enabled := on, state := x })).markChanged st := by
  simp only [setState, modCtx, PerStation.upd_upd]

/-- ENA on at an OFF station: IDLE and enabled. -/
theorem serveEna_on_of_off {s : State} {st : Station} {e : Byte} (h : s.stateOf st = .off) (he : e ≠ 0) :
    serveEna (stationCode st) e s =
      ((s.modCtx st (fun c => { c with enabled := true, state := .idle })).markChanged st, [0x00]) := by
  have hon : (e != 0) = true := bne_iff_ne.mpr he
  simp only [serveEna, withStation_stationCode, h, hon, State.setState_modCtx_enabled]
  rfl

/-- ENA off at an IDLE station: OFF and not enabled. -/
theorem serveEna_off_of_idle {s : State} {st : Station} (h : s.stateOf st = .idle) :
    serveEna (stationCode st) 0 s =
      ((s.modCtx st (fun c => { c with enabled := false, state := .off })).markChanged st, [0x00]) := by
  simp only [serveEna, withStation_stationCode, h, bne_self_eq_false, State.setState_modCtx_enabled]
  rfl

/-- ENA off at an OFF station is answered OK and changes nothing. -/
theorem serveEna_off_of_off {s : State} {st : Station} (h : s.stateOf st = .off) :
    serveEna (stationCode st) 0 s = (s, [0x00]) := by
  simp only [serveEna, withStation_stationCode, h, bne_self_eq_false]
  rfl

/-- ENA on at a station that is not OFF is answered OK and changes nothing. -/
theorem serveEna_on_of_not_off {s : State} {st : Station} {e : Byte} (h : s.stateOf st ≠ .off) (he : e ≠ 0) :
    serveEna (stationCode st) e s = (s, [0x00]) := by
  have hon : (e != 0) = true := bne_iff_ne.mpr he
  simp only [serveEna, withStation_stationCode, hon]
  cases hst : s.stateOf st with
  | off => exact absurd hst h
  | idle | running | stopping | completing | done => rfl

/-- ENA off at a station neither OFF nor IDLE is refused STATE. -/
theorem serveEna_off_refused {s : State} {st : Station} (hoff : s.stateOf st ≠ .off) (hidle : s.stateOf st ≠ .idle) :
    serveEna (stationCode st) 0 s = (s, [0x05]) := by
  simp only [serveEna, withStation_stationCode, bne_self_eq_false]
  cases hst : s.stateOf st with
  | off => exact absurd hst hoff
  | idle => exact absurd hst hidle
  | running | stopping | completing | done => rfl

/-! ### The restart's stations (R26) -/

/-- A station's context after the restart. -/
theorem State.restart_ctx (s : State) (st : Station) : s.restart.ctx st = (s.ctx st).restarted := by
  simp [State.restart, ctx]

/-- The end of the RST reply restarts every station's context. -/
theorem exec_restart_ctx {s : State} (hpending : s.link.restartPending = true) (htx : s.link.tx = .reply) :
    ∃ t, exec .restart s = .next t ∧ ∀ st : Station, t.ctx st = (s.ctx st).restarted := by
  have hdue : s.restartDue = true := by simp [State.restartDue, hpending, htx]
  refine ⟨_, eventWhen_taken State.restartDue State.restart s hdue, fun st => ?_⟩
  rw [State.ctx, State.afterNotices_seq]
  exact s.restart_ctx st

/-- Settles O16: each clause of the request is a case of ENA's rule, and the restart's is what it makes of a context. -/
theorem enaMovesBetweenOffAndIdle : Obligations.EnaMovesBetweenOffAndIdle := by
  refine ⟨fun tag s hslot => ⟨fun b e hb => exec_ena_of_serveEna hslot (withStation_badStation b _ _ hb), fun st e =>
    ⟨?on, ?off, ?kept, ?refused⟩⟩, fun s hpending htx => ?restart⟩
  case on =>
    intro hoff he
    exact exec_ena_of_serveEna hslot (serveEna_on_of_off hoff he)
  case off =>
    rintro hidle rfl
    exact exec_ena_of_serveEna hslot (serveEna_off_of_idle hidle)
  case kept =>
    rintro (⟨hoff, rfl⟩ | ⟨hoff, he⟩)
    · exact exec_ena_of_serveEna hslot (serveEna_off_of_off hoff)
    · exact exec_ena_of_serveEna hslot (serveEna_on_of_not_off hoff he)
  case refused =>
    rintro hoff hidle rfl
    exact exec_ena_of_serveEna hslot (serveEna_off_refused hoff hidle)
  case restart =>
    obtain ⟨t, hexec, hctx⟩ := exec_restart_ctx hpending htx
    refine ⟨t, hexec, fun st => ⟨(congrArg StationCtx.enabled (hctx st) :), fun hoff => ?_⟩⟩
    calc t.stateOf st = (s.ctx st).restarted.state := congrArg StationCtx.state (hctx st)
      _ = .off := if_pos hoff

end Sys2Proof.Machine
end

section
/-! PROOFS. Recipes and the recipe table: what a request that names a variant comes to (R39), RRS (R48), and what
POWER_ON_RESET leaves in every block (R27, R50, R172, R185). -/

namespace Sys2Proof.Machine

open Sys2Proof

/-! ### A request that names a variant (R39) -/

/-- The receiver in HUNTING looks up what the table holds. -/
theorem State.received_lookup (s : State) (v : Nat) : s.received.lookup v = s.lookup v := by
  simp only [lookup, received_table]

/-- A request for variant 0 is refused BAD_VALUE and changes nothing. -/
theorem withEntry_zero (s : State) (f : Fin 8 → Fin 4 → Entry → State × List Byte) : withEntry 0 s f = (s, [0x03]) := rfl

/-- A request for a variant that the table does not hold is refused RECIPE_MISSING and changes nothing. -/
theorem withEntry_miss {v : Word16} {s : State} (f : Fin 8 → Fin 4 → Entry → State × List Byte) (hv : v ≠ 0)
    (hmiss : s.lookup v.toNat = none) : withEntry v s f = (s, [0x09]) := by
  simp only [withEntry, if_neg hv, hmiss]
  rfl

/-- A request for a variant that the table holds goes on with its set, way and entry. -/
theorem withEntry_hit {v : Word16} {s : State} {i : Fin 8} {w : Fin 4} {e : Entry}
    (f : Fin 8 → Fin 4 → Entry → State × List Byte) (hv : v ≠ 0) (hhit : s.lookup v.toNat = some (i, w, e)) :
    withEntry v s f = f i w e := by
  simp only [withEntry, if_neg hv, hhit]

/-! ### RRS (R48) -/

/-- RRS with the slot empty: its rule on the state with the receiver in HUNTING, and the reply. -/
theorem exec_rrs_of_serveRrs {tag : Byte} {v : Word16} {s t : State} {payload : List Byte} (hslot : s.link.slot = none)
    (hserve : serveRrs v s.received = (t, payload)) : exec (.rrs tag v) s = .next (t.replies 0xA4 tag payload) := by
  have harm : exec (.rrs tag v) s = request 0x24 tag (serveRrs v) s := rfl
  rw [harm, request_taken _ _ _ _ hslot (by decide), hserve]
  rfl

/-- Settles O47: variant 0, a miss and a hit are the three cases of the lookup, which the end of the frame leaves as it
was; the hit's fields are read from the entry that the lookup found, before the change. -/
theorem rrsReadsAndZeroes : Obligations.RrsReadsAndZeroes := by
  intro tag v s hslot
  refine ⟨?zero, fun hv hmiss => ?miss, fun i w e hv hhit => ?hit⟩
  case zero =>
    rintro rfl
    exact exec_rrs_of_serveRrs hslot (withEntry_zero _ _)
  case miss =>
    rw [← s.received_lookup] at hmiss
    exact exec_rrs_of_serveRrs hslot (withEntry_miss _ hv hmiss)
  case hit =>
    rw [← s.received_lookup] at hhit
    exact exec_rrs_of_serveRrs hslot (withEntry_hit _ hv hhit)

/-! ### The power-on state, read station by station, engine by engine and entry by entry -/

/-- POWER_ON_RESET keeps nothing of the state but the commands that are waiting (R27). -/
theorem exec_powerOnReset (pins : PowerOnPins) (s : State) :
    exec (.powerOnReset pins) s = .next ((State.powerOn pins).withPending s.pending) := rfl

namespace State

variable (pins : PowerOnPins) (st : Station)

@[simp] theorem powerOn_seq : (powerOn pins).seq[st.val] = .initial := Vector.getElem_replicate _
@[simp] theorem powerOn_drive : (powerOn pins).drive[st.val] = .off := Vector.getElem_replicate _
@[simp] theorem powerOn_enc : (powerOn pins).enc[st.val] = .initial := Vector.getElem_replicate _
@[simp] theorem powerOn_cond : (powerOn pins).cond[st.val] = .live := Vector.getElem_replicate _
@[simp] theorem powerOn_circuits : (powerOn pins).leak.circuits[st.val] = .rest := Vector.getElem_replicate _
@[simp] theorem powerOn_groups : (powerOn pins).noise.groups[st.val] = [] := Vector.getElem_replicate _
@[simp] theorem powerOn_deferred : (powerOn pins).noise.deferred[st.val] = none := Vector.getElem_replicate _

/-- Every quantity of every station is as before its first sample (R80, R95). -/
@[simp] theorem powerOn_quantity (q : StQuantity) : (powerOn pins).mon.stations[st.val][q.idx.val] = .initial := by
  have hstation : (powerOn pins).mon.stations[st.val] = Vector.replicate 6 .initial := Vector.getElem_replicate _
  rw [hstation, Vector.getElem_replicate]

/-- Warnings are masked, alarms and losses are not (R91). -/
theorem powerOn_mask (q : Quantity) (k : FlagKind) : ((powerOn pins).mon.masks[q.idx]).has k = !k.isAlarm := by
  have hmask : (powerOn pins).mon.masks[q.idx] = ⟨false, true, true, false, false⟩ := Vector.getElem_replicate _
  rw [hmask]
  cases k <;> rfl

/-- Both engines are as at power-on reset (R121). -/
theorem powerOn_engine (e : EngineId) : (powerOn pins).engine e = .initial := by
  cases e <;> rfl

/-- No way of any set holds an entry (R50). -/
theorem powerOn_table (i : Fin 8) (w : Fin 4) : (powerOn pins).table[i][w] = none := by
  have hset : (powerOn pins).table[i] = Vector.replicate 4 none := Vector.getElem_replicate _
  rw [hset]
  exact Vector.getElem_replicate _

/-- Every station's counters are 0, live and in the snapshot, and its change flag is clear (R185). -/
theorem powerOn_stationCounters :
    (powerOn pins).counters.live.stations[st] = ⟨0, 0, 0, 0, 0, 0, 0, 0, 0, 0⟩
      ∧ (powerOn pins).counters.snapshot.counters.stations[st] = ⟨0, 0, 0, 0, 0, 0, 0, 0, 0, 0⟩
      ∧ (powerOn pins).counters.changed[st] = false :=
  ⟨Vector.getElem_replicate _, Vector.getElem_replicate _, Vector.getElem_replicate _⟩

end State

/-- An encoder that has given no event stands at bin 0 (R77). -/
@[simp] theorem Encoder.initial_bin : Encoder.initial.bin = 0 := rfl

/-- Every accumulator bin of an engine is 0 at power-on reset. -/
theorem Engine.initial_bins (b : Fin 128) : Engine.initial.bins[b] = 0 := Vector.getElem_replicate _

/-- Settles O7: what a block holds once is read off the power-on state; what it holds per station, quantity, engine or
entry is the same value at every place. -/
theorem powerOnResetsEveryBlock : Obligations.PowerOnResetsEveryBlock := by
  intro pins s
  refine ⟨_, exec_powerOnReset pins s, rfl, rfl, rfl, fun st => ?stations, ⟨rfl, rfl, rfl, rfl, rfl⟩, rfl,
    State.powerOn_mask pins, fun e => ?engines, rfl, rfl, rfl, rfl, rfl, rfl, rfl, rfl, rfl, rfl, rfl, rfl, rfl,
    State.powerOn_table pins, rfl, rfl, rfl, State.powerOn_stationCounters pins, rfl, rfl, rfl, rfl, rfl, rfl, rfl, rfl, rfl⟩
  case stations =>
    simp [StationCtx.initial, LeakCircuit.rest, Conditioning.live, QuantityMon.initial]
  case engines =>
    have hengine : ((State.powerOn pins).withPending s.pending).engine e = .initial := State.powerOn_engine pins e
    rw [hengine]
    exact ⟨rfl, rfl, rfl, rfl, rfl, rfl, Engine.initial_bins⟩

end Sys2Proof.Machine
end

section
/-! PROOFS. The order computation (R112 to R116): rounding to nearest and the integer square root against what they are for,
the averages, the sums over the bins, the level of an order, the peak-to-peak, and what passes. -/

namespace Sys2Proof.Machine

open Sys2Proof

/-! ### Rounding to nearest (R1) -/

/-- The quotient `roundDiv` takes of a magnitude `k` lies within half a divisor of it, the upper half excluded. -/
theorem roundedQuotient_bounds (k : Nat) {d : Nat} (hd : 0 < d) :
    2 * ((2 * k + d) / (2 * d) * d) ≤ 2 * k + d ∧ 2 * k < 2 * ((2 * k + d) / (2 * d) * d) + d := by
  have hfloor := Nat.div_mul_le_self (2 * k + d) (2 * d)
  have hnext := Nat.lt_div_mul_add (a := 2 * k + d) (show 0 < 2 * d by omega)
  have hassoc : (2 * k + d) / (2 * d) * (2 * d) = 2 * ((2 * k + d) / (2 * d) * d) := Nat.mul_left_comm ..
  omega

/-- `roundDiv` is the nearest quotient, and at an exact half the one farther from zero. -/
theorem roundDiv_nearest (n : Int) {d : Nat} (hd : 0 < d) :
    2 * (roundDiv n d * d - n).natAbs ≤ d
      ∧ (2 * (roundDiv n d * d - n).natAbs = d → n.natAbs ≤ (roundDiv n d * d).natAbs) := by
  obtain ⟨hlow, hhigh⟩ := roundedQuotient_bounds n.natAbs hd
  have hmul : roundDiv n d * d = if n < 0 then -(((2 * n.natAbs + d) / (2 * d) * d : Nat) : Int)
      else (((2 * n.natAbs + d) / (2 * d) * d : Nat) : Int) := by
    unfold roundDiv
    split <;> simp only [Nat.cast_mul, Int.neg_mul]
  rw [hmul]
  generalize (2 * n.natAbs + d) / (2 * d) * d = p at hlow hhigh
  split <;> omega

/-- A sum of `d` values within a range has its rounded mean in the range. -/
theorem roundDiv_mem_range {n lo hi : Int} {d : Nat} (hd : 0 < d) (hlo : lo * d ≤ n) (hhi : n ≤ hi * d) :
    lo ≤ roundDiv n d ∧ roundDiv n d ≤ hi := by
  obtain ⟨hnear, -⟩ := roundDiv_nearest n hd
  have hpos : (0 : Int) < d := by omega
  constructor
  · have hlt : lo * d < (roundDiv n d + 1) * d := by rw [Int.add_mul]; omega
    exact Int.lt_add_one_iff.mp (Int.lt_of_mul_lt_mul_right hlt hpos.le)
  · have hlt : roundDiv n d * d < (hi + 1) * d := by rw [Int.add_mul]; omega
    exact Int.lt_add_one_iff.mp (Int.lt_of_mul_lt_mul_right hlt hpos.le)

theorem roundDiv_nonneg {n : Int} (hn : 0 ≤ n) (d : Nat) : 0 ≤ roundDiv n d := by
  rw [roundDiv, if_neg hn.not_gt]
  exact Int.natCast_nonneg _

/-! ### The integer square root (R114) -/

/-- What `isqrtStep` keeps: the root lies from `r` up to, not including, `r + 2 ^ bits`. -/
theorem isqrtStep_spec (n : Nat) : ∀ (bits r : Nat), r ^ 2 ≤ n → n < (r + 2 ^ bits) ^ 2 →
    isqrtStep n bits r ^ 2 ≤ n ∧ n < (isqrtStep n bits r + 1) ^ 2 := by
  intro bits
  induction bits with
  | zero => exact fun r hlow hhigh => ⟨hlow, hhigh⟩
  | succ b ih =>
    intro r hlow hhigh
    rw [isqrtStep, ← Nat.pow_two]
    split
    case isTrue htake =>
      refine ih _ htake ?_
      rwa [Nat.add_assoc, ← Nat.two_mul, ← Nat.pow_succ']
    case isFalse hleave => exact ih r hlow (Nat.lt_of_not_le hleave)

/-- `isqrt` is the floor of the square root: the digits it starts with cover the whole number. -/
theorem isqrt_spec (n : Nat) : isqrt n ^ 2 ≤ n ∧ n < (isqrt n + 1) ^ 2 := by
  refine isqrtStep_spec n _ 0 (Nat.zero_le n) ?_
  calc n < 2 ^ (n.log2 + 1) := Nat.lt_log2_self
    _ ≤ 2 ^ ((n.log2 / 2 + 1) * 2) := Nat.pow_le_pow_right (by omega) (by omega)
    _ = (0 + 2 ^ (n.log2 / 2 + 1)) ^ 2 := by rw [Nat.zero_add, Nat.pow_mul]

/-! ### The averaged revolution (R112) -/

@[simp] theorem length_averages (bins : Vector Int 128) (n : Nat) : (averages bins n).length = 128 := by
  simp [averages]

/-- The average of a bin is its sum divided by the revolutions, rounded. -/
theorem averages_getElem? (bins : Vector Int 128) (n : Nat) (b : Fin 128) :
    (averages bins n)[b.val]? = some (roundDiv bins[b] n) := by
  simp [averages]

theorem mem_averages {bins : Vector Int 128} {n : Nat} {a : Int} :
    a ∈ averages bins n ↔ ∃ b : Fin 128, roundDiv bins[b] n = a := by
  simp [averages, Vector.mem_iff_getElem, Fin.exists_iff]

/-! ### The amplitude of an order (R114) -/

/-- The sum over the bins, as a sum over the indexes of the list. -/
theorem orderSum_eq_sum (f : Nat → Int) (m : Nat) {avg : List Int} {n : Nat} (hlen : avg.length = n) :
    orderSum f m avg = ∑ b : Fin n, avg.getD b 0 * f (m * b % 128) := by
  subst hlen
  have hlist : ((List.range avg.length).zip avg).map (fun x => x.2 * f (m * x.1 % 128))
      = List.ofFn (fun b : Fin avg.length => avg.getD b 0 * f (m * b % 128)) :=
    List.ext_getElem (by simp) (by simp)
  rw [orderSum, ← List.sum_ofFn, ← hlist, List.sum_eq_foldl, List.foldl_map]

/-- The amplitude is the floor of the root of Re² + Im². -/
theorem amplitude_spec (m : Nat) (avg : List Int) :
    (amplitude m avg : Int) ^ 2 ≤ orderSum cosine m avg ^ 2 + orderSum sine m avg ^ 2
      ∧ orderSum cosine m avg ^ 2 + orderSum sine m avg ^ 2 < ((amplitude m avg : Int) + 1) ^ 2 := by
  obtain ⟨hfloor, hnext⟩ := isqrt_spec (orderSum cosine m avg * orderSum cosine m avg
    + orderSum sine m avg * orderSum sine m avg).toNat
  have hcast := Int.toNat_of_nonneg (Int.add_nonneg (mul_self_nonneg (orderSum cosine m avg))
    (mul_self_nonneg (orderSum sine m avg)))
  rw [sq (orderSum cosine m avg), sq (orderSum sine m avg), ← hcast]
  exact_mod_cast And.intro hfloor hnext

/-! ### The level of an order (R115) -/

/-- The level is the rounded one limited to 999,999, marked when it was above. -/
theorem levelOf_eq (m : Nat) (avg : List Int) :
    levelOf m avg =
      ⟨m, min (roundDiv ((amplitude m avg : Int) * 100) 2097088).toNat 999999,
        decide (999999 < (roundDiv ((amplitude m avg : Int) * 100) 2097088).toNat)⟩ := by
  dsimp only [levelOf]
  split
  case isTrue hover => simp [hover, hover.le]
  case isFalse hwithin => simp [hwithin, Nat.le_of_not_lt hwithin]

/-- Before its limit is applied, the level of an amplitude is A × 100 ÷ 2,097,088 rounded to nearest. -/
theorem unlimitedLevel_nearest (A : Nat) :
    let level := (roundDiv ((A : Int) * 100) 2097088).toNat
    let gap := (2097088 * (level : Int) - 100 * A).natAbs
    2 * gap ≤ 2097088 ∧ (2 * gap = 2097088 → 100 * A ≤ 2097088 * level) := by
  have hnear := roundDiv_nearest ((A : Int) * 100) (d := 2097088) (by omega)
  have hnonneg := roundDiv_nonneg (n := (A : Int) * 100) (by omega) 2097088
  dsimp only
  omega

/-! ### The peak-to-peak (R115) -/

/-- The folds of a list that is not empty give its least and its greatest, and their difference is the peak-to-peak. -/
theorem peakToPeak_spec {avg : List Int} (hne : avg ≠ []) :
    ∃ least ∈ avg, ∃ greatest ∈ avg, (∀ a ∈ avg, least ≤ a ∧ a ≤ greatest)
      ∧ (peakToPeak avg : Int) = greatest - least := by
  obtain ⟨x, rest, rfl⟩ := List.exists_cons_of_ne_nil hne
  obtain ⟨hleast, hbelow⟩ := List.min?_eq_some_iff.mp (List.min?_cons' (x := x) (xs := rest))
  obtain ⟨hgreatest, habove⟩ := List.max?_eq_some_iff.mp (List.max?_cons' (x := x) (xs := rest))
  refine ⟨_, hleast, _, hgreatest, fun a ha => ⟨hbelow a ha, habove a ha⟩, ?_⟩
  exact Int.toNat_of_nonneg (Int.sub_nonneg.mpr (hbelow _ hgreatest))

/-- Values of 16 bits are at most 65,535 apart. -/
theorem peakToPeak_le {avg : List Int} (hne : avg ≠ []) (hrange : ∀ a ∈ avg, -32768 ≤ a ∧ a ≤ 32767) :
    peakToPeak avg ≤ 65535 := by
  obtain ⟨least, hleast, greatest, hgreatest, -, hpeak⟩ := peakToPeak_spec hne
  have hbelow := (hrange least hleast).1
  have habove := (hrange greatest hgreatest).2
  omega

theorem averages_ne_nil (bins : Vector Int 128) (n : Nat) : averages bins n ≠ [] :=
  List.ne_nil_of_length_pos (by simp)

/-! ### What passes (R116) -/

/-- A group passes when each level, paired with its order by place, and the peak-to-peak are within their limits. -/
theorem figuresPass_iff (g : GroupSpec) (f : GroupFigures) :
    figuresPass g f = true ↔
      (∀ (i : Nat) (o : OrderLimit) (v : Level), g.orders[i]? = some o → f.levels[i]? = some v → v.level ≤ o.limit)
        ∧ (∀ p, g.peakLimit = some p → f.peakToPeak ≤ p) := by
  rw [figuresPass, Bool.and_eq_true]
  refine and_congr ⟨fun hall i o v ho hv => ?_, fun hall => ?_⟩ ?_
  · have hmem : (o, v) ∈ g.orders.zip f.levels :=
      List.mem_of_getElem? (List.getElem?_zip_eq_some.mpr ⟨ho, hv⟩)
    exact of_decide_eq_true (List.all_eq_true.mp hall _ hmem)
  · refine List.all_eq_true.mpr fun x hx => decide_eq_true ?_
    obtain ⟨i, hi⟩ := List.mem_iff_getElem?.mp hx
    obtain ⟨ho, hv⟩ := List.getElem?_zip_eq_some.mp hi
    exact hall i x.1 x.2 ho hv
  · cases g.peakLimit <;> simp

/-! ### The obligation -/

/-- Settles O39: the averages and the levels by the rule of rounding, the amplitude by that of the integer root, the
peak-to-peak by the least and the greatest of the 128 averages. -/
theorem noiseFiguresAreExact : Obligations.NoiseFiguresAreExact := by
  refine ⟨fun bins n b hn => ?averages, fun p q m n orders havg => ?throughAverages, fun m avg hlen => ?amplitude,
    fun bins n orders => ⟨?count, fun i o ho => ?levels, ?peak, fun hn hsums => ?peakBound⟩,
    fun g f _ => figuresPass_iff g f, ?roots⟩
  case averages =>
    obtain ⟨hnear, hhalf⟩ := roundDiv_nearest bins[b] hn
    exact ⟨_, averages_getElem? bins n b, hnear, hhalf, roundDiv_mem_range hn⟩
  case throughAverages =>
    simp only [groupFigures, havg]
  case amplitude =>
    have hspec := amplitude_spec m avg
    rwa [orderSum_eq_sum cosine m hlen, orderSum_eq_sum sine m hlen] at hspec
  case count => exact List.length_map ..
  case levels =>
    refine ⟨_, unlimitedLevel_nearest (amplitude o.order (averages bins n)), ?_⟩
    rw [groupFigures, List.getElem?_map, ho, Option.map_some, levelOf_eq]
  case peak => exact peakToPeak_spec (averages_ne_nil bins n)
  case peakBound =>
    refine peakToPeak_le (averages_ne_nil bins n) fun a ha => ?_
    obtain ⟨b, rfl⟩ := mem_averages.mp ha
    exact roundDiv_mem_range hn (hsums b).1 (hsums b).2
  case roots => decide

end Sys2Proof.Machine
end

section
/-! PROOFS. The commands' effects, once for all: what `exec` does for each event of the part, and for every request. -/

namespace Sys2Proof.Machine

open Sys2Proof

set_option Elab.async false

/-! ### Events -/

section
variable (s : State)

theorem exec_restart : exec .restart s = eventWhen State.restartDue State.restart s := rfl
theorem exec_emergencyStop (order : List Station) :
    exec (.emergencyStop order) s = eventWhen (fun s => !s.pins.estop)
      (fun s => (order ++ allStations).foldl State.estopStation { s with pins := { s.pins with estop := true } }) s := rfl
theorem exec_emergencyStopRelease :
    exec .emergencyStopRelease s = .next { s with pins := { s.pins with estop := false } } := rfl
theorem exec_driveFault (st : Station) (active : Bool) :
    exec (.driveFault st active) s = event (fun s => s.driveFaultInput st active) s := rfl
theorem exec_monitorSample (x : SensorInput) : exec (.monitorSample x) s = event (fun s => s.sample x) s := rfl
theorem exec_quantityLost (x : SensorInput) :
    exec (.quantityLost x) s = eventWhen (fun s => s.quantityLostDue x) (fun s => s.sample x) s := rfl
theorem exec_checkAveraged (x : SensorInput) :
    exec (.checkAveraged x) s = eventWhen (fun s => s.checkAveragedDue x) (fun s => s.sample x) s := rfl
theorem exec_standstillConfirmed (st : Station) (fault : Bool) :
    exec (.standstillConfirmed st fault) s = eventWhen (fun s => s.standstillConfirmedDue st fault) (fun s => s.sample (.speed st fault)) s := rfl
theorem exec_measureEnd (x : SensorInput) :
    exec (.measureEnd x) s = eventWhen (fun s => s.measureEndDue x) (fun s => s.sample x) s := rfl
theorem exec_driveUpdate (st : Station) : exec (.driveUpdate st) s = .next (s.modDrive st Drive.update) := rfl
theorem exec_encoderIndex (st : Station) (us : Fin 1000) (r : AccelReading) :
    exec (.encoderIndex st us r) s = event (fun s => s.index st us r) s := rfl
theorem exec_kReached (st : Station) (us : Fin 1000) (r : AccelReading) :
    exec (.kReached st us r) s = eventWhen (fun s => s.kReachedDue st us) (fun s => s.index st us r) s := rfl
theorem exec_groupUnsteady (st : Station) (us : Fin 1000) (r : AccelReading) :
    exec (.groupUnsteady st us r) s = eventWhen (fun s => s.groupUnsteadyDue st us) (fun s => s.index st us r) s := rfl
theorem exec_engineCompletion (e : EngineId) :
    exec (.engineCompletion e) s = eventWhen (fun s => s.completionDue e) (fun s => s.completion e) s := rfl
theorem exec_engineGrant (e : EngineId) : exec (.engineGrant e) s = event (fun s => s.passEngine e) s := rfl
theorem exec_deferredClaim (st : Station) :
    exec (.deferredClaim st) s = eventWhen (fun s => s.deferredClaimDue st) (fun s => s.deferredClaim st) s := rfl
theorem exec_engineWaitExpiry (st : Station) :
    exec (.engineWaitExpiry st) s = eventWhen (fun s => s.engineWaitDue st) (fun s => s.engineWaitExpiry st) s := rfl
theorem exec_rampTimeout (st : Station) :
    exec (.rampTimeout st) s = eventWhen (fun s => s.rampTimeoutDue st) (fun s => s.failStep st .rampTimeout) s := rfl
theorem exec_dwellDurationExpiry (st : Station) :
    exec (.dwellDurationExpiry st) s = eventWhen (fun s => s.dwellExpiryDue st) (fun s => s.dwellExpiry st) s := rfl
theorem exec_extendTimeout (st : Station) :
    exec (.extendTimeout st) s = eventWhen (fun s => s.extendTimeoutDue st) (fun s => s.extendTimeout st) s := rfl
theorem exec_gateTimeout (st : Station) :
    exec (.gateTimeout st) s = eventWhen (fun s => s.gateTimeoutDue st) (fun s => s.gateTimeout st) s := rfl
theorem exec_stopTimeout (st : Station) :
    exec (.stopTimeout st) s = eventWhen (fun s => s.stopTimeoutDue st) (fun s => s.stopTimeout st) s := rfl
theorem exec_standstillTimerExpiry (st : Station) :
    exec (.standstillTimerExpiry st) s = eventWhen (fun s => s.standstillExpiryDue st) (fun s => s.standstillExpiry st) s := rfl
theorem exec_fillTimerExpiry (st : Station) :
    exec (.fillTimerExpiry st) s = eventWhen (fun s => s.fillExpiryDue st) (fun s => s.fillExpiry st) s := rfl
theorem exec_settleTimerExpiry (st : Station) :
    exec (.settleTimerExpiry st) s = eventWhen (fun s => s.settleExpiryDue st) (fun s => s.settleExpiry st) s := rfl
theorem exec_ventTimerExpiry (st : Station) :
    exec (.ventTimerExpiry st) s = eventWhen (fun s => s.ventExpiryDue st) (fun s => s.returnLeak st) s := rfl
theorem exec_supplyGrant : exec .supplyGrant s = event State.examineSupply s := rfl
theorem exec_deposit :
    exec .deposit s = eventWhen (fun s => decide (s.store.records.length < 48)) State.depositHead s := rfl
theorem exec_autoSnapshotExpiry :
    exec .autoSnapshotExpiry s = eventWhen State.autoSnapshotDue (fun s => s.snapshot .auto) s := rfl
theorem exec_gapTimerExpiry : exec .gapTimerExpiry s = eventWhen State.gapTimerDue (fun s => s.modLink Link.hunt) s := rfl
theorem exec_lengthOutOfRange (b : Byte) :
    exec (.lengthOutOfRange b) s = eventWhen (fun s => s.lengthOutOfRangeDue b) (fun s => s.receive b) s := rfl
theorem exec_crcMismatch (b : Byte) :
    exec (.crcMismatch b) s = eventWhen (fun s => s.crcMismatchDue b) (fun s => s.receive b) s := rfl
theorem exec_frameDiscardedBusy (b : Byte) :
    exec (.frameDiscardedBusy b) s = eventWhen (fun s => s.frameDiscardedBusyDue b) (fun s => s.receive b) s := rfl
theorem exec_unknownKind (b : Byte) :
    exec (.unknownKind b) s = eventWhen (fun s => s.unknownKindDue b) (fun s => s.receive b) s := rfl
theorem exec_transmitEnd : exec .transmitEnd s = .next s.transmitEnd := rfl
theorem exec_transmitStart : exec .transmitStart s = .next (s.modLink Link.choose) := rfl
theorem exec_byteArrival (b : Byte) : exec (.byteArrival b) s = .next (s.receive b) := rfl
theorem exec_encoderLine (st : Station) (forward : Bool) (r : AccelReading) :
    exec (.encoderLine st forward r) s = event (fun s => s.encoderLine st forward r) s := rfl

end

/-! ### Requests -/

/-- The rule of a request with the length check ahead of it that its own command makes (R204). -/
def serveChecked : Instr → State → State × List Byte
  | .stt _ f => fun s => if sttTailFits f.source f.body then serveStt f s else refuse s .badLength
  | .ldr _ body => fun s => if bodyFits body then serveLdr body s else refuse s .badLength
  | c => serveCommand c

/-- A request's command is the arrival of its frame (R190). -/
theorem exec_of_requestParts {c : Instr} {kind tag : Byte} {p : List Byte} (h : requestParts c = some (kind, tag, p))
    (s : State) : exec c s = request kind tag (serveChecked c) s := by
  cases c with
  | idn _ | cfg _ _ | stt _ _ | abt _ _ | rel _ _ | ena _ _ _ | rds _ _ | rst _ | skg _ _ | ldr _ _ | drp _ _ | pin _ _ _
  | tbl _ | rrs _ _ | lim _ _ | msk _ _ | rdm _ _ | clf _ _ _ | chn _ _ | rdr _ _ _ | rlr _ _ | snp _ | rdn _ | pol _ =>
    cases h
    rfl
  | _ => cases h

end Sys2Proof.Machine
end

section
/-! PROOFS. What every step keeps, one operation at a time (R37, R38, R97, R123, R160, R161, R165, R176, R187, R197). `Keeps s t`
says that `t` has of six properties those that `s` has; the operations are taken in the order of their definitions, and each
lemma follows its operation's own text. -/

namespace Sys2Proof.Machine

open Sys2Proof

set_option Elab.async false

namespace State

/-- `t` has each of the six properties if `s` has it: the bounds, the store's numbering, the remark lists, the valves, the
ranks and the engines. A change of what a property does not speak of keeps it by itself. -/
structure Keeps (s t : State) : Prop where
  bounded : s.Bounded → t.Bounded := by
    exact fun h => ⟨h.live, h.snapshot, h.recipes, h.notices, h.records, h.config, h.limits⟩
  numbered : s.Numbered → t.Numbered := by exact fun h => ⟨h.issued, h.rising, h.next⟩
  remarks : s.RemarksKept → t.RemarksKept := by exact fun h => ⟨h.inProgress, h.stored⟩
  valves : s.ValvesFollowPhase → t.ValvesFollowPhase := by exact fun h => h
  ranks : s.RanksDense → t.RanksDense := by exact fun h => h
  engines : s.EnginesHeld → t.EnginesHeld := by exact fun h => ⟨h.free, h.group, h.k, h.once⟩

theorem Keeps.refl (s : State) : s.Keeps s := {}

theorem Keeps.trans {s t u : State} (h : s.Keeps t) (h' : t.Keeps u) : s.Keeps u where
  bounded := h'.bounded ∘ h.bounded
  numbered := h'.numbered ∘ h.numbered
  remarks := h'.remarks ∘ h.remarks
  valves := h'.valves ∘ h.valves
  ranks := h'.ranks ∘ h.ranks
  engines := h'.engines ∘ h.engines

end State

/-- A saturating sum stays within a counter's range (R176). -/
theorem satAdd_le (a b : Nat) : satAdd a b ≤ 65535 := Nat.min_le_right ..

/-- A remark list stays as R160 and R161 keep it when a remark is added. -/
theorem Record.remarksKept.addRemark {r : Record} (h : r.remarksKept) (m : Remark) : (r.addRemark m).remarksKept := by
  obtain ⟨hnodup, hlen, hfull⟩ := h
  unfold Record.addRemark
  split
  · exact ⟨hnodup, hlen, hfull⟩
  · rename_i hnew
    split
    · rename_i hroom
      refine ⟨?_, ?_, fun hf => ?_⟩
      · exact List.nodup_append.mpr ⟨hnodup, List.nodup_singleton m, by
          simpa using fun a ha => ne_of_mem_of_not_mem ha hnew⟩
      · simpa using hroom
      · exact absurd (hfull hf) (by omega)
    · exact ⟨hnodup, hlen, fun _ => by simp only; omega⟩

namespace State

namespace Keeps

variable {s u : State}

/-! ### Changes of one block -/

theorem modDrive (h : s.Keeps u) (st : Station) (f : Drive → Drive) : s.Keeps (u.modDrive st f) := h.trans {}

theorem modGroups (h : s.Keeps u) (st : Station) (f : List GroupLine → List GroupLine) : s.Keeps (u.modGroups st f) :=
  h.trans {}

theorem setDeferred (h : s.Keeps u) (st : Station) (g : Option Nat) : s.Keeps (u.setDeferred st g) := h.trans {}

theorem markChanged (h : s.Keeps u) (st : Station) : s.Keeps (u.markChanged st) := h.trans {}

theorem modVib (h : s.Keeps u) (st : Station) (f : VibGather → VibGather) : s.Keeps (u.modVib st f) := h.trans {}

theorem modQuantity (h : s.Keeps u) (st : Station) (q : StQuantity) (f : QuantityMon → QuantityMon) :
    s.Keeps (u.modQuantity st q f) := h.trans {}

/-- A change of a station context whose record keeps its remark list. -/
theorem modCtx (h : s.Keeps u) {st : Station} {f : StationCtx → StationCtx}
    (hf : ∀ c : StationCtx, (∀ r, c.record = some r → r.remarksKept) → ∀ r, (f c).record = some r → r.remarksKept) :
    s.Keeps (u.modCtx st f) := by
  refine h.trans { remarks := fun hr => ⟨fun j r hj => ?_, hr.stored⟩ }
  by_cases hst : st = j
  · subst hst
    simp only [State.ctx, modCtx_seq, Fin.getElem_fin, PerStation.getElem_upd, if_pos] at hj
    exact hf _ (hr.inProgress st) r hj
  · simp only [State.ctx, Fin.getElem_fin, modCtx_seq, PerStation.getElem_upd, if_neg hst] at hj
    exact hr.inProgress j r hj

/-- A change of a station context that leaves its record. -/
theorem modCtx_same (h : s.Keeps u) {st : Station} {f : StationCtx → StationCtx} (hf : ∀ c, (f c).record = c.record) :
    s.Keeps (u.modCtx st f) :=
  h.modCtx fun c hc r hr => hc r (hf c ▸ hr)

/-- A change of the record in progress that keeps its remark list. -/
theorem modRecord (h : s.Keeps u) {st : Station} {f : Record → Record} (hf : ∀ r, r.remarksKept → (f r).remarksKept) :
    s.Keeps (u.modRecord st f) :=
  h.modCtx fun c hc r hr => by
    obtain ⟨r₀, hr₀, rfl⟩ := Option.map_eq_some_iff.mp hr
    exact hf r₀ (hc r₀ hr₀)

theorem modStep (h : s.Keeps u) (st : Station) (f : StepCtx → StepCtx) : s.Keeps (u.modStep st f) :=
  h.modCtx_same fun _ => rfl

theorem setState (h : s.Keeps u) (st : Station) (x : StationState) : s.Keeps (u.setState st x) :=
  (h.modCtx_same (f := fun c => { c with state := x }) fun _ => rfl).markChanged st

theorem remark (h : s.Keeps u) (st : Station) (m : Remark) : s.Keeps (u.remark st m) := h.modRecord fun _ hr => hr.addRemark m

theorem addStepEntry (h : s.Keeps u) (st : Station) (e : StepEntry) : s.Keeps (u.addStepEntry st e) :=
  h.modRecord fun _ hr => hr

theorem addGroupResult (h : s.Keeps u) (st : Station) (g : GroupResult) : s.Keeps (u.addGroupResult st g) :=
  h.modRecord fun _ hr => hr

theorem addLeakResult (h : s.Keeps u) (st : Station) (l : LeakResult) : s.Keeps (u.addLeakResult st l) :=
  h.modRecord fun _ hr => hr

theorem addCheckResult (h : s.Keeps u) (st : Station) (k : CheckResult) : s.Keeps (u.addCheckResult st k) :=
  h.modRecord fun _ hr => hr

/-- A change of a leak circuit that leaves its valves as its phase has them (R123). -/
theorem modCircuit (h : s.Keeps u) {st : Station} {f : LeakCircuit → LeakCircuit}
    (hf : ∀ c : LeakCircuit, c.fillOpen = c.phase.fillOpen ∧ c.ventOpen = c.phase.ventOpen →
      (f c).fillOpen = (f c).phase.fillOpen ∧ (f c).ventOpen = (f c).phase.ventOpen) : s.Keeps (u.modCircuit st f) := by
  refine h.trans { valves := fun hv j => ?_ }
  by_cases hst : st = j
  · subst hst
    simpa [circuit] using hf _ (hv st)
  · simpa [circuit, hst] using hv j

/-- A change of an engine that leaves the engines held as R97 has them. -/
theorem modEngine (h : s.Keeps u) {e : EngineId} {f : Engine → Engine}
    (hf : u.EnginesHeld → (u.modEngine e f).EnginesHeld) : s.Keeps (u.modEngine e f) := by
  cases e <;> exact h.trans { engines := hf }

end Keeps

/-- An engine changed to one that is FREE exactly without holder, group and K, and whose holder holds no other engine. -/
theorem EnginesHeld.modEngine {u : State} (h : u.EnginesHeld) {e : EngineId} {f : Engine → Engine}
    (hfree : (f (u.engine e)).state = .free ↔ (f (u.engine e)).holder = none)
    (hgroup : (f (u.engine e)).group.isSome = (f (u.engine e)).holder.isSome)
    (hk : (f (u.engine e)).k.isSome = (f (u.engine e)).holder.isSome)
    (honce : ∀ d st, d ≠ e → (f (u.engine e)).holder = some st → (u.engine d).holder ≠ some st) :
    (u.modEngine e f).EnginesHeld := by
  have hengine : ∀ d, (u.modEngine e f).engine d = if d = e then f (u.engine e) else u.engine d :=
    fun d => engine_modEngine u e d f
  refine ⟨fun d => ?_, fun d => ?_, fun d => ?_, fun st => ?_⟩
  · rw [hengine]; split
    · exact hfree
    · exact h.free d
  · rw [hengine]; split
    · exact hgroup
    · exact h.group d
  · rw [hengine]; split
    · exact hk
    · exact h.k d
  · rintro ⟨ha, hb⟩
    rw [hengine] at ha hb
    cases e with
    | a => exact honce .b st (by decide) (by simpa using ha) (by simpa using hb)
    | b => exact honce .a st (by decide) (by simpa using hb) (by simpa using ha)

namespace Keeps

variable {s u : State}

/-- An engine that is not FREE and stays so, with its holder, group and K. -/
theorem modEngine_held (h : s.Keeps u) {e : EngineId} {f : Engine → Engine} (hstate : (u.engine e).state ≠ .free)
    (hstate' : (f (u.engine e)).state ≠ .free) (hholder : (f (u.engine e)).holder = (u.engine e).holder)
    (hgroup : (f (u.engine e)).group = (u.engine e).group) (hk : (f (u.engine e)).k = (u.engine e).k) :
    s.Keeps (u.modEngine e f) := by
  refine h.modEngine fun he => he.modEngine ?_ ?_ ?_ fun d st hd hst hother => ?_
  · rw [hholder, ← he.free e]
    exact iff_of_false hstate' hstate
  · rw [hgroup, hholder, he.group]
  · rw [hk, hholder, he.k]
  · rw [hholder] at hst
    cases d <;> cases e
    case a.b => exact he.once st ⟨hother, hst⟩
    case b.a => exact he.once st ⟨hst, hother⟩
    all_goals exact hd rfl

/-- An engine that becomes FREE. -/
theorem releaseEngine (h : s.Keeps u) (e : EngineId) : s.Keeps (u.modEngine e Engine.release) :=
  h.modEngine fun he => he.modEngine (iff_of_true rfl rfl) rfl rfl nofun

/-- A change of the Link Interface with no more notices than the queue's 16 or those it held. -/
theorem modLink (h : s.Keeps u) {f : Link → Link} (hf : (f u.link).queue.length ≤ max u.link.queue.length 16) :
    s.Keeps (u.modLink f) :=
  h.trans { bounded := fun hb => ⟨hb.live, hb.snapshot, hb.recipes,
    hf.trans (max_le hb.notices le_rfl), hb.records, hb.config, hb.limits⟩ }

/-- A change of a station's counters within their range. -/
theorem countStation (h : s.Keeps u) {st : Station} {f : StationCounters → StationCounters}
    (hf : ∀ c : StationCounters, c.fits → (f c).fits) : s.Keeps (u.countStation st f) := by
  refine h.trans { bounded := fun hb => ⟨⟨fun j => ?_, hb.live.2⟩, hb.snapshot, hb.recipes, hb.notices, hb.records,
    hb.config, hb.limits⟩ }
  by_cases hst : st = j
  · subst hst
    simpa using hf _ (hb.live.1 st)
  · simpa [hst] using hb.live.1 j

/-- A change of the global counters within their range. -/
theorem countGlobal (h : s.Keeps u) {f : GlobalCounters → GlobalCounters}
    (hf : ∀ c : GlobalCounters, c.fits → (f c).fits) : s.Keeps (u.countGlobal f) :=
  h.trans { bounded := fun hb => ⟨⟨hb.live.1, hf _ hb.live.2⟩, hb.snapshot, hb.recipes, hb.notices, hb.records,
    hb.config, hb.limits⟩ }

/-! ### Notices and the transmitter -/

theorem giveNotice (h : s.Keeps u) (b : NoticeBody) : s.Keeps (u.giveNotice b) := by
  unfold State.giveNotice
  split
  · rename_i hroom
    exact h.modLink (le_max_of_le_right (by simpa using hroom))
  · refine (h.countGlobal fun c hc => ?_).modLink (le_max_left ..)
    obtain ⟨h₁, -, h₃⟩ := hc
    exact ⟨h₁, satAdd_le .., h₃⟩

end Keeps

end State

/-- The transmitter's choice leaves no more notices than there were. -/
theorem Link.choose_queue_length (l : Link) : l.choose.queue.length ≤ l.queue.length := by
  unfold Link.choose
  split
  · split
    · exact le_rfl
    · split
      · exact le_rfl
      · rename_i hq
        simp [hq]
  · exact le_rfl
  · exact le_rfl

/-- So does the placing of a reply. -/
theorem Link.place_queue_length (l : Link) (r : Reply) : (l.place r).queue.length ≤ l.queue.length :=
  Link.choose_queue_length _

namespace State.Keeps

variable {s u : State}

theorem choose (h : s.Keeps u) : s.Keeps (u.modLink Link.choose) :=
  h.modLink ((Link.choose_queue_length _).trans (le_max_left ..))

theorem afterNotices (h : s.Keeps u) (b : State) : s.Keeps (b.afterNotices u) := by
  unfold State.afterNotices
  split
  · exact h.choose
  · exact h

theorem hunt (h : s.Keeps u) : s.Keeps (u.modLink Link.hunt) := h.modLink (le_max_left ..)

/-- A good frame keeps what its rule keeps. -/
theorem goodFrame (h : s.Keeps u) (kind tag : Byte) {serve : State → State × List Byte}
    (hserve : ∀ v, s.Keeps v → s.Keeps (serve v).1) : s.Keeps (Machine.goodFrame kind tag serve u) := by
  unfold Machine.goodFrame
  simp only
  split
  · exact h.hunt
  · exact (hserve _ h.hunt).modLink ((Link.place_queue_length _ _).trans (le_max_left ..))

end State.Keeps
end Sys2Proof.Machine
end

section
/-! PROOFS. What every step keeps, continued: the operations of the Leak Tester, of the Noise Analyser and of the Station
Sequencer, in the order of their definitions. -/

namespace Sys2Proof.Machine

open Sys2Proof

set_option Elab.async false

/-- A station that holds no engine is the holder of neither. -/
theorem State.holder_ne_of_heldEngine_eq_none {s : State} {st : Station} (h : s.heldEngine st = none) (e : EngineId) :
    (s.engine e).holder ≠ some st := by
  unfold heldEngine at h
  split at h
  · exact absurd h nofun
  split at h
  · exact absurd h nofun
  cases e <;> assumption

namespace State.Keeps

variable {s u : State} {st : Station}

/-! ### The Leak Tester (R122 to R143) -/

theorem enterPhase (h : s.Keeps u) (st : Station) (p : LeakPhase) : s.Keeps (u.enterPhase st p) :=
  h.modCircuit fun _ _ => ⟨rfl, rfl⟩

theorem leakRest (h : s.Keeps u) (st : Station) : s.Keeps (u.leakRest st) := h.modCircuit fun _ _ => ⟨rfl, rfl⟩

/-- A change of the supply's grant and queue. -/
theorem supply (h : s.Keeps u) (g : Option Station) (q : List Station) :
    s.Keeps { u with leak := { u.leak with grant := g, queue := q } } := h.trans {}

theorem examineSupply (h : s.Keeps u) : s.Keeps u.examineSupply := by
  unfold State.examineSupply
  split
  · exact ((h.supply _ _).countGlobal (f := fun c => { c with supplyGrants := satAdd c.supplyGrants 1 })
      fun _ ⟨h₁, h₂, _, h₄⟩ => ⟨h₁, h₂, satAdd_le .., h₄⟩).enterPhase _ _
  · exact h

theorem releaseGrant (h : s.Keeps u) (st : Station) : s.Keeps (u.releaseGrant st) := by
  unfold State.releaseGrant
  split
  · exact (h.supply none u.leak.queue).examineSupply
  · exact h

theorem leaveSupplyQueue (h : s.Keeps u) (st : Station) : s.Keeps (u.leaveSupplyQueue st) := by
  unfold State.leaveSupplyQueue
  split
  · exact (h.supply u.leak.grant _).examineSupply
  · exact h

theorem decideLeak (h : s.Keeps u) (st : Station) (r : LeakResult) : s.Keeps (u.decideLeak st r) := by
  have hdecided := (h.modCircuit (st := st) (f := fun c => { c with result := some r }) fun _ hv => hv).addLeakResult st r
  unfold State.decideLeak
  simp only
  split
  case h_1 | h_2 =>
    exact hdecided.countStation fun _ ⟨h₁, h₂, h₃, h₄, h₅, h₆, h₇, h₈, _, h₁₀⟩ =>
      ⟨h₁, h₂, h₃, h₄, h₅, h₆, h₇, h₈, satAdd_le .., h₁₀⟩
  all_goals exact hdecided

theorem ventAfter (h : s.Keeps u) (st : Station) : s.Keeps (u.ventAfter st) := (h.enterPhase st .vent).releaseGrant st

theorem beginLeak (h : s.Keeps u) (st : Station) (index : Nat) : s.Keeps (u.beginLeak st index) :=
  h.modCircuit fun _ _ => ⟨rfl, rfl⟩

theorem leakExit (h : s.Keeps u) (st : Station) : s.Keeps (u.leakExit st) := by
  unfold State.leakExit
  simp only
  split
  case h_1 | h_2 => exact h
  case h_3 => exact (h.decideLeak _ _).leakRest _
  case h_4 => exact ((h.decideLeak _ _).leakRest _).leaveSupplyQueue _
  all_goals exact (h.decideLeak _ _).ventAfter _

theorem leakClose (h : s.Keeps u) (st : Station) : s.Keeps (u.leakClose st) := by
  unfold State.leakClose
  split
  case h_1 => exact h
  case h_2 => exact h.leakRest _
  all_goals exact (((h.decideLeak _ _).leakRest _).releaseGrant _).leaveSupplyQueue _

/-! ### The Noise Analyser (R97 to R120) -/

theorem grantEngine (h : s.Keeps u) (e : EngineId) (st : Station) (g : Nat) : s.Keeps (u.grantEngine e st g) := by
  unfold State.grantEngine
  split
  · exact h
  · exact h
  · rename_i hheld
    refine (h.modEngine fun he => he.modEngine ?_ rfl rfl fun d j _ hj hother => ?_).modGroups _ _
    · simp [Engine.grantTo]
    · obtain rfl : st = j := Option.some.inj hj
      exact holder_ne_of_heldEngine_eq_none hheld d hother

/-- A change of the engine wait queue and of the deferred claims. -/
theorem engineQueue (h : s.Keeps u) (q : List EngineWait) :
    s.Keeps { u with noise := { u.noise with queue := q } } := h.trans {}

theorem passEngine (h : s.Keeps u) (e : EngineId) : s.Keeps (u.passEngine e) := by
  unfold State.passEngine
  split
  · exact (h.engineQueue _).grantEngine _ _ _
  · exact h

theorem freeEngine (h : s.Keeps u) (e : EngineId) : s.Keeps (u.freeEngine e) := (h.releaseEngine e).passEngine e

theorem enterGroup (h : s.Keeps u) (st : Station) (r : GroupResult) : s.Keeps (u.enterGroup st r) :=
  (h.addGroupResult st r).modGroups st _

theorem unmeasured (h : s.Keeps u) (st : Station) (g : Nat) : s.Keeps (u.unmeasured st g) := by
  have htold := (h.remark st .engineWait).modStep st fun x => { x with unmeasured := true }
  unfold State.unmeasured
  simp only
  split
  · split
    · exact (htold.modGroups st _).enterGroup st _
    · exact htold
  · exact htold

/-- A wait that expires is counted (R102). -/
theorem countWaitExpired (h : s.Keeps u) (st : Station) :
    s.Keeps (u.countStation st fun c => { c with engineWaitsExpired := satAdd c.engineWaitsExpired 1 }) :=
  h.countStation fun _ ⟨h₁, h₂, h₃, h₄, h₅, h₆, h₇, h₈, h₉, _⟩ => ⟨h₁, h₂, h₃, h₄, h₅, h₆, h₇, h₈, h₉, satAdd_le ..⟩

theorem claimEngine (h : s.Keeps u) (st : Station) (g : Nat) : s.Keeps (u.claimEngine st g) := by
  unfold State.claimEngine
  split
  · exact h.grantEngine _ _ _
  split
  · exact h.grantEngine _ _ _
  split
  · exact (h.countWaitExpired st).unmeasured st g
  · exact h.engineQueue _

theorem windowStart (h : s.Keeps u) (st : Station) (g : Nat) : s.Keeps (u.windowStart st g) := by
  unfold State.windowStart
  split
  · exact h
  split
  · exact h
  have hopened := h.modGroups st (modLine g fun l => { l with status := .opened })
  simp only
  split
  · split
    · rename_i hparked
      exact hopened.modEngine_held (by rw [hparked]; nofun) nofun rfl rfl rfl
    split
    · exact hopened
    · exact hopened.claimEngine st g
  · split
    · split
      · exact hopened.setDeferred st _
      · exact hopened.claimEngine st g
    · exact hopened.claimEngine st g

theorem dropWait (h : s.Keeps u) (st : Station) : s.Keeps (u.dropWait st) := (h.engineQueue _).setDeferred st none

theorem windowEnd (h : s.Keeps u) (st : Station) (g index : Nat) : s.Keeps (u.windowEnd st g index) := by
  unfold State.windowEnd
  split
  · exact (h.dropWait st).unmeasured st g
  split
  · exact h
  split
  · exact h
  simp only
  split
  · exact h
  rename_i e _ hacc
  have hheld : (u.engine e).state ≠ .free := by
    rw [not_not.mp fun hne => hacc (.inr hne)]
    nofun
  split
  · exact h.modEngine_held hheld nofun rfl rfl rfl
  split
  · refine (h.modEngine_held hheld ?_ rfl rfl rfl).modGroups st _
    nofun
  · exact ((h.modGroups st _).enterGroup st _).freeEngine _

theorem settleGroups (h : s.Keeps u) (st : Station) : s.Keeps (u.settleGroups st) := by
  exact (h.modRecord (st := st) (f := fun r =>
    { r with groups := r.groups ++ (byFirstWindow u.noise.groups[st]).filterMap u.settlement }) fun _ hr => hr).modGroups st _

theorem noiseExit (h : s.Keeps u) (st : Station) : s.Keeps (u.noiseExit st) := by
  have hwait : s.Keeps (if u.waiting st then (u.dropWait st).remark st .engineWait else u) := by
    split
    · exact (h.dropWait st).remark st _
    · exact h
  unfold State.noiseExit
  simp only
  generalize (if u.waiting st then (u.dropWait st).remark st .engineWait else u) = v at hwait ⊢
  have hsettled := hwait.settleGroups st
  split
  · exact hsettled
  · split
    · rename_i hcomputing
      have hne : ∀ e : Engine, e.isComputing = true → e.state ≠ .free := fun e he hf => by simp [Engine.isComputing, hf] at he
      exact hsettled.modEngine_held (hne _ hcomputing) (hne _ hcomputing) rfl rfl rfl
    · exact hsettled.freeEngine _

/-! ### Deposit (R13, R167) -/

theorem countVerdict (h : s.Keeps u) (st : Station) (v : Verdict) : s.Keeps (u.countVerdict st v) := by
  refine h.countStation fun c ⟨h₁, h₂, h₃, h₄, h₅, hrest⟩ => ?_
  cases v
  · exact ⟨h₁, satAdd_le .., h₃, h₄, h₅, hrest⟩
  · exact ⟨h₁, h₂, satAdd_le .., h₄, h₅, hrest⟩
  · exact ⟨h₁, h₂, h₃, satAdd_le .., h₅, hrest⟩
  · exact ⟨h₁, h₂, h₃, h₄, satAdd_le .., hrest⟩

end State.Keeps

/-- A change of one way that leaves recipe and rank leaves every entry's variant and rank. -/
theorem RecipeSet.entries_set_map {α : Type} (set : RecipeSet) (w : Fin 4) (f : Entry → Entry) (g : Entry → α)
    (hf : ∀ e, g (f e) = g e) :
    (RecipeSet.entries (set.set w (set[w].map f))).map g = (RecipeSet.entries set).map g := by
  have hway : ∀ v : Fin 4, ((set.set w (set[w].map f))[v]).map g = (set[v]).map g := fun v => by
    simp only [Fin.getElem_fin, Vector.getElem_set]
    split
    · rename_i hwv
      simp only [← hwv, Option.map_map]
      congr 1
      exact funext hf
    · rfl
  simp only [RecipeSet.entries, List.map_filterMap, hway]

/-- The entries of a set keep their place in it, one per variant, the ranks dense: read from variants and ranks alone. -/
theorem State.RanksDense.congr {s t : State} (h : s.RanksDense)
    (hentries : ∀ i : Fin 8, (RecipeSet.entries t.table[i]).map (fun e => (e.recipe.variant, e.rank))
      = (RecipeSet.entries s.table[i]).map (fun e => (e.recipe.variant, e.rank))) : t.RanksDense := by
  intro i
  obtain ⟨hset, hvariants, hranks⟩ := h i
  have hvar := congrArg (List.map Prod.fst) (hentries i)
  have hrank := congrArg (List.map Prod.snd) (hentries i)
  have hlen := congrArg List.length (hentries i)
  simp only [List.map_map, List.length_map] at hvar hrank hlen
  refine ⟨fun e he => ?_, ?_, ?_⟩
  · have hmem : e.recipe.variant ∈ (RecipeSet.entries s.table[i]).map (Prod.fst ∘ fun e => (e.recipe.variant, e.rank)) :=
      hvar ▸ List.mem_map.mpr ⟨e, he, rfl⟩
    obtain ⟨e₀, he₀, hv⟩ := List.mem_map.mp hmem
    exact hv ▸ hset e₀ he₀
  · exact (hvar ▸ hvariants : _)
  · rw [hlen]
    exact (hrank ▸ hranks : _)

namespace State.Keeps

variable {s u : State} {st : Station}

/-- A change of an entry that leaves its recipe and rank, with its statistics within their range. -/
theorem modEntry (h : s.Keeps u) {i : Fin 8} {w : Fin 4} {f : Entry → Entry}
    (hrank : ∀ e, (f e).recipe.variant = e.recipe.variant ∧ (f e).rank = e.rank)
    (hfits : ∀ e : Entry, e.tests ≤ 65535 ∧ e.fails ≤ 65535 → (f e).tests ≤ 65535 ∧ (f e).fails ≤ 65535) :
    s.Keeps (u.modEntry i w f) := by
  have htable : ∀ j : Fin 8, (u.modEntry i w f).table[j] =
      if i = j then u.table[i].set w (u.table[i][w].map f) else u.table[j] := fun j => by
    simp only [modEntry_table, Fin.getElem_fin, Vector.getElem_set, Fin.val_inj]
  have hentry : u.Bounded → ∀ (j : Fin 8) (v : Fin 4) (e : Entry), (u.modEntry i w f).table[j][v] = some e →
      e.tests ≤ 65535 ∧ e.fails ≤ 65535 := by
    intro hb j v e he
    rw [htable] at he
    split at he
    · simp only [Fin.getElem_fin, Vector.getElem_set] at he
      split at he
      · obtain ⟨e₀, he₀, rfl⟩ := Option.map_eq_some_iff.mp he
        exact hfits _ (hb.recipes i w e₀ he₀)
      · exact hb.recipes i v e he
    · exact hb.recipes j v e he
  refine h.trans { bounded := fun hb => ⟨hb.live, hb.snapshot, hentry hb, hb.notices, hb.records, hb.config, hb.limits⟩
                   ranks := fun hr => hr.congr fun j => ?_ }
  rw [htable]
  split
  · rename_i hij
    rw [RecipeSet.entries_set_map _ _ _ _ fun e => Prod.ext (hrank e).1 (hrank e).2, hij]
  · rfl

theorem settleRecipe (h : s.Keeps u) (st : Station) (ref : RecipeRef) (v : Verdict) : s.Keeps (u.settleRecipe st ref v) := by
  cases ref with
  | table i w =>
    refine h.modEntry (fun _ => ⟨rfl, rfl⟩) fun e ⟨_, hfails⟩ => ⟨satAdd_le .., ?_⟩
    simp only
    split
    · exact satAdd_le ..
    · exact hfails
  | transient => exact h.modCtx_same fun _ => rfl

end State.Keeps

/-- A number issued is issued still when the next one has been issued too. -/
theorem numberIssued.after {n k : Nat} (h : numberIssued (some n) k) : numberIssued (State.numberAfter n) k := by
  obtain ⟨hlo, hhi, hlt⟩ := h
  refine ⟨hlo, hhi, ?_⟩
  unfold State.numberAfter
  split
  · trivial
  · rename_i heq
    split at heq <;> simp_all
    omega

/-- The store with the last of its records gone, or the latest of them alone, stays numbered. -/
theorem State.Numbered.suffix {s t : State} (h : s.Numbered) (hrecords : t.store.records <:+ s.store.records)
    (hnext : t.store.next = s.store.next) : t.Numbered where
  issued r hr := hnext ▸ h.issued r (hrecords.subset hr)
  rising := h.rising.sublist hrecords.sublist
  next n hn := h.next n (hnext ▸ hn)

/-- The store with a record of the next number behind it stays numbered (R165, R167). -/
theorem State.Numbered.append {s t : State} (h : s.Numbered) {n : Nat} {r : Record} (hn : s.store.next = some n)
    (hr : r.number = some n) (hrecords : t.store.records = s.store.records ++ [r])
    (hnext : t.store.next = State.numberAfter n) : t.Numbered where
  issued x hx := by
    rw [hnext]
    rcases List.mem_append.mp (hrecords ▸ hx) with hx | hx
    · obtain ⟨k, hk, hissued⟩ := h.issued x hx
      exact ⟨k, hk, (hn ▸ hissued : numberIssued (some n) k).after⟩
    · obtain rfl := List.mem_singleton.mp hx
      obtain ⟨hlo, hhi⟩ := h.next n hn
      refine ⟨n, hr, hlo, hhi, ?_⟩
      unfold State.numberAfter
      split
      · trivial
      · rename_i heq
        split at heq <;> simp_all
        omega
  rising := by
    rw [hrecords]
    refine List.pairwise_append.mpr ⟨h.rising, List.pairwise_singleton _ _, fun a ha b hb j k hj hk => ?_⟩
    obtain rfl := List.mem_singleton.mp hb
    obtain ⟨i, hi, -, -, hlt⟩ := hn ▸ h.issued a ha
    obtain rfl : i = j := by simpa [hi] using hj
    obtain rfl : n = k := by simpa [hr] using hk
    exact hlt
  next m hm := by
    obtain ⟨hlo, hhi⟩ := h.next n hn
    rw [hnext] at hm
    unfold State.numberAfter at hm
    split at hm
    · exact absurd hm nofun
    · simp only [Option.some.injEq] at hm
      omega

namespace State.Keeps

variable {s u : State} {st : Station}

/-- The store reduced to the latest of its records, with any deposit queue. -/
theorem release {kept : List Record} {d : List Station} (hkept : kept <:+ s.store.records) :
    s.Keeps { s with store := { s.store with records := kept, deposit := d } } where
  bounded hb := ⟨hb.live, hb.snapshot, hb.recipes, hb.notices, hkept.length_le.trans hb.records, hb.config, hb.limits⟩
  numbered hn := hn.suffix hkept rfl
  remarks hr := ⟨hr.inProgress, fun r hmem => hr.stored r (hkept.subset hmem)⟩

/-- A record in progress numbered and appended behind the latest of the store's records: all of a store with room, or fewer
of any (R166, R167, R170). -/
theorem file {kept : List Record} {d : List Station} {n : Nat} {r : Record} (hkept : kept <:+ s.store.records)
    (hroom : kept.length < 48 ∨ kept.length < s.store.records.length) (hn : s.store.next = some n)
    (hr : (s.ctx st).record = some r) :
    s.Keeps { s with store := ⟨kept ++ [{ r with number := some n }], numberAfter n, d⟩ } where
  bounded hb := by
    refine ⟨hb.live, hb.snapshot, hb.recipes, hb.notices, ?_, hb.config, hb.limits⟩
    simp only [List.length_append, List.length_singleton]
    have := hb.records
    omega
  numbered hs :=
    (hs.suffix (t := { s with store := { s.store with records := kept, deposit := d } }) hkept rfl).append
      (r := { r with number := some n }) hn rfl rfl rfl
  remarks hk := by
    refine ⟨hk.inProgress, fun x hx => ?_⟩
    rcases List.mem_append.mp hx with hx | hx
    · exact hk.stored x (hkept.subset hx)
    · obtain rfl := List.mem_singleton.mp hx
      exact hk.inProgress st r hr

/-- A deposit behind the latest of the store's records. -/
theorem depositStation {kept : List Record} {d : List Station} (hkept : kept <:+ s.store.records)
    (hroom : kept.length < 48 ∨ kept.length < s.store.records.length) :
    s.Keeps (State.depositStation { s with store := { s.store with records := kept, deposit := d } } st) := by
  unfold State.depositStation
  split
  · rename_i n r t hn hr ht
    have hfiled := file (d := d) hkept hroom hn hr
    exact ((((hfiled.modCtx (st := st) (f := fun c =>
      { c with record := none, test := c.test.map fun t => { t with number := some n } })
      fun _ _ _ hnone => absurd hnone nofun).setState st .done).settleRecipe st t.ref _).countVerdict st _).giveNotice _
  · exact release hkept

theorem offerRecord (h : s.Keeps u) (st : Station) : s.Keeps (u.offerRecord st) := by
  unfold State.offerRecord
  split
  · rename_i hroom
    exact h.trans (depositStation (s := u) (d := u.store.deposit) (List.suffix_refl u.store.records) (.inl hroom.1))
  · exact h.trans {}

/-- The head of the queue deposits behind the latest of the store's records. -/
theorem depositHead {kept : List Record} (hkept : kept <:+ s.store.records)
    (hroom : kept.length < 48 ∨ kept.length < s.store.records.length) :
    s.Keeps (State.depositHead { s with store := { s.store with records := kept } }) := by
  unfold State.depositHead
  split
  · exact depositStation hkept hroom
  · exact release (d := s.store.deposit) hkept

/-! ### The Station Sequencer (R5 to R15, R52 to R67) -/

theorem closeRecord (h : s.Keeps u) (st : Station) : s.Keeps (u.closeRecord st) := h.modRecord fun _ hr => hr

theorem enterCompleting (h : s.Keeps u) (st : Station) : s.Keeps (u.enterCompleting st) :=
  ((((h.leakClose st).closeRecord st).modDrive st _).modCtx_same
    (f := fun c => { c with step := none, stopStart := none }) fun _ => rfl).setState st _

theorem closeStep (h : s.Keeps u) (st : Station) : s.Keeps (u.closeStep st) := by
  unfold State.closeStep
  split
  · exact h
  · exact (h.addStepEntry st _).modCtx_same fun _ => rfl

theorem leaveRunning (h : s.Keeps u) (st : Station) : s.Keeps (u.leaveRunning st) := (h.closeStep st).noiseExit st

theorem stopDrive (h : s.Keeps u) (st : Station) : s.Keeps (u.stopDrive st) := h.modDrive st _

theorem enterStopping (h : s.Keeps u) (st : Station) (cause : Option AbortCause) (drop : Bool) :
    s.Keeps (u.enterStopping st cause drop) := by
  have hstopping := (((h.leaveRunning st).leakExit st).modCtx (st := st) (f := fun c => { c with
    stopStart := some ((u.leaveRunning st).leakExit st).now
    test := c.test.map (fun t => { t with cause := cause })
    record := c.record.map (fun r => { r with cause := cause }) }) fun c hc r hr => by
      obtain ⟨r₀, hr₀, rfl⟩ := Option.map_eq_some_iff.mp hr
      exact hc r₀ hr₀).setState st .stopping
  have hdriven : ∀ v, s.Keeps v → s.Keeps (if drop then v.modDrive st (fun _ => Drive.off) else v.stopDrive st) := by
    intro v hv
    split
    · exact hv.modDrive st _
    · exact hv.stopDrive st
  unfold State.enterStopping
  simp only
  split
  · exact (hdriven _ hstopping).giveNotice _
  · exact hdriven _ hstopping

theorem chainEnd (h : s.Keeps u) (st : Station) : s.Keeps (u.chainEnd st) := by
  unfold State.chainEnd
  split
  · exact ((h.leaveRunning st).enterCompleting st).offerRecord st
  · exact h.enterStopping st none false

theorem beginStep (h : s.Keeps u) (st : Station) (index : Nat) (spec : StepSpec) : s.Keeps (u.beginStep st index spec) := by
  have hbegun := h.modCtx_same (st := st) (f := fun c =>
    { c with step := some ⟨index, spec, firstPhase spec, u.now, false⟩ }) fun _ => rfl
  unfold State.beginStep
  simp only
  split
  · exact hbegun.modDrive st _
  · exact hbegun.windowStart st _
  case h_6 => exact hbegun.beginLeak st _
  all_goals exact hbegun

theorem finishStep (h : s.Keeps u) (st : Station) (o : StepOutcome) (c : Option StepCause) :
    s.Keeps (u.finishStep st o c) := by
  unfold State.finishStep
  split
  · exact h
  · exact (h.addStepEntry st _).modCtx_same fun _ => rfl

theorem nextStep (h : s.Keeps u) (st : Station) (index : Nat) : s.Keeps (u.nextStep st index) := by
  unfold State.nextStep
  split
  · exact h.beginStep st _ _
  · exact h.chainEnd st

theorem endStep (h : s.Keeps u) (st : Station) (o : StepOutcome) : s.Keeps (u.endStep st o) := by
  unfold State.endStep
  split
  · exact h
  · exact (h.finishStep st o none).nextStep st _

theorem failStep (h : s.Keeps u) (st : Station) (c : StepCause) : s.Keeps (u.failStep st c) :=
  (h.finishStep st .failed (some c)).enterStopping st none false

theorem failedOutcome (h : s.Keeps u) (st : Station) : s.Keeps (u.failedOutcome st) := by
  unfold State.failedOutcome
  split
  · exact h.enterStopping st none false
  · exact h

theorem endExtended (h : s.Keeps u) (st : Station) : s.Keeps (u.endExtended st) := by
  unfold State.endExtended
  split
  · exact h.endStep st .done
  · exact h

theorem alarm (h : s.Keeps u) (st : Station) (q : StQuantity) (k : FlagKind) : s.Keeps (u.alarm st q k) := by
  unfold State.alarm
  split
  case h_1 => exact h.enterStopping st _ _
  case h_2 => exact h.remark st _
  all_goals exact h

theorem warn (h : s.Keeps u) (st : Station) (q : StQuantity) (k : FlagKind) : s.Keeps (u.warn st q k) := by
  unfold State.warn
  split
  case h_1 | h_2 => exact h.remark st _
  all_goals exact h

theorem driveFaultReport (h : s.Keeps u) (st : Station) : s.Keeps (u.driveFaultReport st) := by
  unfold State.driveFaultReport
  split
  · split
    case h_1 => exact h.enterStopping st _ _
    case h_2 => exact (h.modDrive st _).remark st _
    all_goals exact h
  · exact h

theorem estopStation (h : s.Keeps u) (st : Station) : s.Keeps (u.estopStation st) := by
  have hmeets : s.Keeps
      (let v := if u.stateOf st = .running then u.leaveRunning st else u
       let v := (v.leakClose st).modCtx st (fun c => { c with
         test := c.test.map (fun t => { t with cause := some (t.cause.getD .estop) })
         record := c.record.map (fun r => { r with cause := some (r.cause.getD .estop) }) })
       let v := v.enterCompleting st
       (v.giveNotice (.nst st .completing ((v.ctx st).test.bind TestCtx.cause) none)).offerRecord st) := by
    have hleft : s.Keeps (if u.stateOf st = .running then u.leaveRunning st else u) := by
      split
      · exact h.leaveRunning st
      · exact h
    refine ((((hleft.leakClose st).modCtx fun c hc r hr => ?_).enterCompleting st).giveNotice _).offerRecord st
    obtain ⟨r₀, hr₀, rfl⟩ := Option.map_eq_some_iff.mp hr
    exact hc r₀ hr₀
  unfold State.estopStation
  split
  case h_1 | h_2 => exact hmeets
  all_goals exact h

end State.Keeps
end Sys2Proof.Machine
end

section
/-! PROOFS. What every step keeps, concluded: the commands' own rules, and the six obligations. -/

namespace Sys2Proof.Machine

open Sys2Proof

set_option Elab.async false

namespace State.Keeps

variable {s u : State} {st : Station}

/-! ### Leak Testing (R122 to R145) -/

theorem decideAndVent (h : s.Keeps u) (st : Station) (r : LeakResult) : s.Keeps (u.decideAndVent st r) := by
  unfold State.decideAndVent
  simp only
  split
  · exact ((h.decideLeak st r).ventAfter st).failedOutcome st
  · exact (h.decideLeak st r).ventAfter st

theorem returnLeak (h : s.Keeps u) (st : Station) : s.Keeps (u.returnLeak st) := by
  unfold State.returnLeak
  simp only
  split
  · exact (h.leakRest st).endStep st .done
  · exact h.leakRest st

theorem standstillExpiry (h : s.Keeps u) (st : Station) : s.Keeps (u.standstillExpiry st) :=
  (h.decideLeak st _).returnLeak st

theorem fillExpiry (h : s.Keeps u) (st : Station) : s.Keeps (u.fillExpiry st) := by
  unfold State.fillExpiry
  split
  · exact h
  simp only
  split
  · exact h.decideAndVent st _
  split
  · exact h.decideAndVent st _
  · exact (h.enterPhase st _).releaseGrant st

theorem settleExpiry (h : s.Keeps u) (st : Station) : s.Keeps (u.settleExpiry st) := h.modCircuit fun _ _ => ⟨rfl, rfl⟩

theorem standstillWaitSample (h : s.Keeps u) (st : Station) : s.Keeps (u.standstillWaitSample st) := by
  unfold State.standstillWaitSample
  split
  · exact ((h.enterPhase st .waitSupply).supply u.leak.grant (u.leak.queue ++ [st])).examineSupply
  · exact h

theorem settleSample (h : s.Keeps u) (st : Station) (l : LeakSpec) : s.Keeps (u.settleSample st l) := by
  unfold State.settleSample
  split
  · exact h.decideAndVent st _
  · exact h

end State.Keeps

/-- A sample of MEASURE leaves a circuit's phase and valves. -/
theorem State.takeLeakSample_phase (c : LeakCircuit) (n : Nat) (q : StQuantity) (x : Int) :
    (takeLeakSample c n q x).phase = c.phase ∧ (takeLeakSample c n q x).fillOpen = c.fillOpen
      ∧ (takeLeakSample c n q x).ventOpen = c.ventOpen := by
  unfold takeLeakSample
  cases q with
  | leakPress | airTemp => simp only; split <;> simp
  | oilTemp | speed | torque | vib => simp

namespace State.Keeps

variable {s u : State} {st : Station}

theorem measureSample (h : s.Keeps u) (st : Station) (l : LeakSpec) (q : StQuantity) : s.Keeps (u.measureSample st l q) := by
  have htaken := h.modCircuit (st := st) (f := fun c => takeLeakSample c l.samples q (u.quantity st q).held)
    fun c hc => by
      obtain ⟨hphase, hfill, hvent⟩ := takeLeakSample_phase c l.samples q (u.quantity st q).held
      rw [hphase, hfill, hvent]
      exact hc
  unfold State.measureSample
  simp only
  split
  · exact htaken.decideAndVent st _
  · exact htaken

theorem leakSample (h : s.Keeps u) (st : Station) (q : StQuantity) : s.Keeps (u.leakSample st q) := by
  unfold State.leakSample
  split
  · exact h.standstillWaitSample st
  · exact h.settleSample st _
  · exact h.measureSample st _ _
  · exact h.measureSample st _ _
  · exact h

theorem leakAlarm (h : s.Keeps u) (st : Station) (q : StQuantity) (k : FlagKind) : s.Keeps (u.leakAlarm st q k) := by
  unfold State.leakAlarm
  split
  · exact h.decideAndVent st _
  · exact h

theorem supplyFault (h : s.Keeps u) : s.Keeps u.supplyFault := by
  unfold State.supplyFault
  split
  · split
    · exact h.decideAndVent _ _
    · exact h
  · exact h

/-! ### Step Chains and the Drive (R52 to R75) -/

theorem driveFaultInput (h : s.Keeps u) (st : Station) (active : Bool) : s.Keeps (u.driveFaultInput st active) := by
  have hlevel : s.Keeps { u with pins := { u.pins with driveFault := u.pins.driveFault.upd st fun _ => active } } :=
    h.trans {}
  unfold State.driveFaultInput
  simp only
  split
  · exact hlevel.driveFaultReport st
  · exact hlevel

theorem dwellExpiry (h : s.Keeps u) (st : Station) : s.Keeps (u.dwellExpiry st) := by
  unfold State.dwellExpiry
  split
  · split
    · exact h.endStep st _
    · exact (h.windowEnd st _ _).endStep st _
    · split
      · exact h.endStep st _
      · exact h.modStep st _
  · exact h

theorem extendTimeout (h : s.Keeps u) (st : Station) : s.Keeps (u.extendTimeout st) := by
  unfold State.extendTimeout
  split
  · exact ((h.finishStep st _ _).windowEnd st _ _).enterStopping st _ _
  · exact h

theorem gateTimeout (h : s.Keeps u) (st : Station) : s.Keeps (u.gateTimeout st) := by
  unfold State.gateTimeout
  split
  · exact h.failStep st _
  · exact (h.remark st _).endStep st _
  · exact h

theorem stopTimeout (h : s.Keeps u) (st : Station) : s.Keeps (u.stopTimeout st) :=
  (((h.modDrive st _).remark st _).enterCompleting st).offerRecord st

theorem rampSample (h : s.Keeps u) (st : Station) (x : StepCtx) (target : Int) (tolerance inBand : Nat) :
    s.Keeps (u.rampSample st x target tolerance inBand) := by
  have hheld : ∀ since : LineTime, s.Keeps (if inBand ≤ elapsed since u.now then u.endStep st .done
      else u.modStep st fun x => { x with phase := .inBand since }) := by
    intro since
    split
    · exact h.endStep st _
    · exact h.modStep st _
  unfold State.rampSample
  split
  · exact h.modStep st _
  · exact hheld _

theorem gateSample (h : s.Keeps u) (st : Station) (x : StepCtx) (q : StQuantity) (rel : GateRelation) (value : Int)
    (hold : Nat) : s.Keeps (u.gateSample st x q rel value hold) := by
  have hheld : ∀ since : LineTime, s.Keeps (if hold ≤ elapsed since u.now then u.endStep st .done
      else u.modStep st fun x => { x with phase := .holding since }) := by
    intro since
    split
    · exact h.endStep st _
    · exact h.modStep st _
  unfold State.gateSample
  split
  · exact h.modStep st _
  · exact hheld _

theorem checkAveraged (h : s.Keeps u) (st : Station) (x : StepCtx) (q : StQuantity) (mode : CheckMode) (reference : Int)
    (tolerance n : Nat) (sum : Int) : s.Keeps (u.checkAveraged st x q mode reference tolerance n sum) := by
  unfold State.checkAveraged
  simp only
  split
  · exact ((h.addCheckResult st _).finishStep st _ _).enterStopping st _ _
  · exact (h.addCheckResult st _).endStep st _

theorem checkSample (h : s.Keeps u) (st : Station) (x : StepCtx) (q : StQuantity) (averaging : Nat) (mode : CheckMode)
    (reference : Int) (tolerance : Nat) (sum : Int) (count : Nat) :
    s.Keeps (u.checkSample st x q averaging mode reference tolerance sum count) := by
  unfold State.checkSample
  simp only
  split
  · exact h.checkAveraged ..
  · exact h.modStep st _

theorem stoppingSample (h : s.Keeps u) (st : Station) : s.Keeps (u.stoppingSample st) := by
  unfold State.stoppingSample
  split
  · simp only
    split
    · exact ((h.modDrive st _).enterCompleting st).offerRecord st
    · exact h.modDrive st _
  · exact h.modDrive st _

/-! ### Monitoring (R76 to R94) -/

theorem gather (h : s.Keeps u) (x : SensorInput) : s.Keeps (u.gather x) := by
  cases x with
  | vib st now since =>
    have hfold : ∀ (rs : List AccelReading) (v : State), s.Keeps v → s.Keeps (rs.foldl (fun s r => s.seeAccel st r) v) := by
      intro rs
      induction rs with
      | nil => exact fun _ hv => hv
      | cons r rs ih => exact fun v hv => ih _ (hv.modVib st _)
    exact hfold _ u h
  | _ => exact h

theorem afterGather (h : s.Keeps u) (x : SensorInput) : s.Keeps (u.afterGather x) := by
  cases x with
  | vib st now since => exact h.modVib st _
  | _ => exact h

theorem flagNotice (h : s.Keeps u) (scope : Option Station) (q : Quantity) (held : Int) (k : FlagKind) :
    s.Keeps (u.flagNotice scope q held k) := by
  unfold State.flagNotice
  split
  · exact h
  · exact h.giveNotice _

theorem handOn (h : s.Keeps u) (st : Station) (q : StQuantity) (held : Int) (k : FlagKind) :
    s.Keeps (State.handOn st q held u k) := by
  have hgiven := h.flagNotice (some st) (.station q) held k
  unfold State.handOn
  simp only
  split
  · exact (hgiven.leakAlarm st q k).alarm st q k
  · exact hgiven.warn st q k

/-- Operations that keep the properties one by one keep them in a row. -/
theorem foldl {α : Type} {f : State → α → State} (hf : ∀ v a, s.Keeps v → s.Keeps (f v a)) (h : s.Keeps u)
    (as : List α) : s.Keeps (as.foldl f u) := by
  induction as generalizing u with
  | nil => exact h
  | cons a as ih => exact ih (hf u a h)

theorem holdStation (h : s.Keeps u) (st : Station) (q : StQuantity) (v : Option Int) : s.Keeps (u.holdStation st q v) :=
  foldl (fun _ k hv => hv.handOn st q _ k) (h.modQuantity st q _) _

theorem holdSupply (h : s.Keeps u) (v : Option Int) : s.Keeps (u.holdSupply v) := by
  have hheld : ∀ m : QuantityMon, s.Keeps { u with mon := { u.mon with supply := m } } := fun m => h.trans {}
  unfold State.holdSupply
  simp only
  split
  · exact (foldl (fun _ k hv => hv.flagNotice _ _ _ k) (hheld _) _).supplyFault.examineSupply
  · exact (foldl (fun _ k hv => hv.flagNotice _ _ _ k) (hheld _) _).examineSupply

theorem takeSample (h : s.Keeps u) (x : SensorInput) : s.Keeps (u.takeSample x) := by
  unfold State.takeSample
  simp only
  split
  · exact ((h.gather x).afterGather x).holdStation _ _ _
  · exact ((h.gather x).afterGather x).holdSupply _

theorem judgeStep (h : s.Keeps u) (st : Station) (q : StQuantity) : s.Keeps (u.judgeStep st q) := by
  unfold State.judgeStep
  split
  · exact h
  split
  · split
    · exact h.rampSample ..
    · exact h
  · exact h
  · split
    · exact h.gateSample ..
    · exact h
  · split
    · split
      case h_1 => exact h.checkSample ..
      all_goals exact h
    · exact h
  · exact h.leakSample st q

theorem readSample (h : s.Keeps u) (b : State) (x : SensorInput) : s.Keeps (State.readSample b u x) := by
  unfold State.readSample
  split
  · exact h
  split
  · exact h.judgeStep _ _
  · split
    · exact h.stoppingSample _
    · exact h
  · exact h

theorem sample (h : s.Keeps u) (x : SensorInput) : s.Keeps (u.sample x) := (h.takeSample x).readSample u x

theorem clearStationFlags (h : s.Keeps u) (st : Station) (xs : List (Quantity × FlagKind)) :
    s.Keeps (u.clearStationFlags st xs) :=
  foldl (fun _ q hv => hv.modQuantity st q _) h _

/-! ### Noise Analysis (R97 to R120) -/

theorem takeIndex (h : s.Keeps u) (st : Station) (us : Fin 1000) (r : AccelReading) : s.Keeps (u.takeIndex st us r) :=
  h.trans {}

theorem closeUnsteady (h : s.Keeps u) (st : Station) (e : EngineId) (g : Nat) : s.Keeps (u.closeUnsteady st e g) := by
  have hclosed := ((h.modGroups st (modLine g fun l => l.close .incomplete (some .unsteady) none false)).enterGroup st
    ⟨g, .incomplete, some .unsteady, (u.engine e).accepted, (u.engine e).discarded, none⟩).freeEngine e
  unfold State.closeUnsteady
  simp only
  split
  · exact hclosed.endExtended st
  · exact hclosed

theorem acceptRevolution (h : s.Keeps u) (st : Station) {e : EngineId} (he : (u.engine e).state = .accumulating)
    (r : AccelReading) : s.Keeps (u.acceptRevolution st e r) := by
  have hcounted := h.countStation (st := st) (f := fun c => { c with revsAccepted := satAdd c.revsAccepted 1 })
    fun _ ⟨h₁, h₂, h₃, h₄, h₅, _, hrest⟩ => ⟨h₁, h₂, h₃, h₄, h₅, satAdd_le .., hrest⟩
  have hstate : ((u.countStation st fun c => { c with revsAccepted := satAdd c.revsAccepted 1 }).engine e).state
      = .accumulating := by cases e <;> exact he
  unfold State.acceptRevolution
  simp only
  refine hcounted.modEngine_held (by rw [hstate]; nofun) ?_ ?_ ?_ ?_
  · split
    · nofun
    · simp [Engine.openRevolution, hstate]
  all_goals split <;> rfl

/-- An engine that opens a revolution is held as before. -/
theorem openRevolution (h : s.Keeps u) {e : EngineId} (he : (u.engine e).state = .accumulating) (v : Int) :
    s.Keeps (u.modEngine e fun x => x.openRevolution v) :=
  h.modEngine_held (by rw [he]; nofun) (by simp [Engine.openRevolution, he]) rfl rfl rfl

theorem discardRevolution (h : s.Keeps u) (st : Station) {e : EngineId} (he : (u.engine e).state = .accumulating)
    (l : GroupLine) (countRight : Bool) (r : AccelReading) : s.Keeps (u.discardRevolution st e l countRight r) := by
  have hcounted := h.countStation (st := st) (f := fun c => { c with
    revsDiscarded := satAdd c.revsDiscarded 1
    encoderFaults := if countRight then c.encoderFaults else satAdd c.encoderFaults 1 }) (by
      rintro c ⟨h₁, h₂, h₃, h₄, h₅, h₆, -, h₈, hrest⟩
      refine ⟨h₁, h₂, h₃, h₄, h₅, h₆, satAdd_le .., ?_, hrest⟩
      simp only
      split
      · exact h₈
      · exact satAdd_le ..)
  generalize hv : (u.countStation st _) = v at hcounted
  have hstate : (v.engine e).state = .accumulating := by subst hv; cases e <;> exact he
  have hdiscarded := hcounted.modEngine_held (e := e) (f := fun x => { x with discarded := x.discarded + 1 })
    (by rw [hstate]; nofun) (by rw [hstate]; nofun) rfl rfl rfl
  unfold State.discardRevolution
  simp only
  rw [hv]
  split
  · exact hdiscarded.closeUnsteady st e _
  · exact hdiscarded.openRevolution (by simp [hstate]) _

end State.Keeps

namespace State

/-- An engine that a station holds ACCUMULATING is ACCUMULATING. -/
theorem state_of_accumulating {s : State} {st : Station} {e : EngineId} (h : s.accumulating st = some e) :
    s.heldEngine st = some e ∧ (s.engine e).state = .accumulating := by
  unfold accumulating at h
  split at h
  · rename_i hheld
    split at h
    · obtain rfl := Option.some.inj h
      exact ⟨hheld, by assumption⟩
    · exact absurd h nofun
  · exact absurd h nofun

/-- A judged revolution is one of the engine that the station holds ACCUMULATING, for the group's line. -/
theorem judged_accumulating {s : State} {st : Station} {us : Fin 1000} {j : Judged} (h : s.judged st us = some j) :
    s.accumulating st = some j.engine ∧ (s.engine j.engine).group.bind (s.line st) = some j.line := by
  unfold judged at h
  split at h
  · exact absurd h nofun
  · rename_i e hacc
    simp only at h
    split at h
    · rename_i hline _
      obtain rfl := Option.some.inj h
      exact ⟨hacc, hline⟩
    · exact absurd h nofun

/-- An index changes no engine before it is judged. -/
theorem takeIndex_engine (s : State) (st : Station) (us : Fin 1000) (r : AccelReading) (e : EngineId) :
    (s.takeIndex st us r).engine e = s.engine e := by cases e <;> rfl

end State

namespace State.Keeps

variable {s u : State} {st : Station}

theorem index (h : s.Keeps u) (st : Station) (us : Fin 1000) (r : AccelReading) : s.Keeps (u.index st us r) := by
  have htaken := h.takeIndex st us r
  have hstate : ∀ e, u.accumulating st = some e → ((u.takeIndex st us r).engine e).state = .accumulating := fun e he => by
    rw [takeIndex_engine]
    exact (state_of_accumulating he).2
  unfold State.index
  simp only
  split
  · rename_i j hj
    have hacc := hstate _ (judged_accumulating hj).1
    split
    · exact htaken.acceptRevolution st hacc r
    · exact htaken.discardRevolution st hacc _ _ r
  · split
    · rename_i e he
      exact htaken.openRevolution (hstate e he) _
    · exact htaken

end State.Keeps

/-- A crossed position leaves an engine's state, holder, group and K. -/
theorem Engine.cross_held (x : Engine) (pos : Fin 512) (v : Int) :
    (x.cross pos v).state = x.state ∧ (x.cross pos v).holder = x.holder ∧ (x.cross pos v).group = x.group
      ∧ (x.cross pos v).k = x.k := by
  unfold Engine.cross
  split
  · simp only
    split <;> exact ⟨rfl, rfl, rfl, rfl⟩
  · exact ⟨rfl, rfl, rfl, rfl⟩

namespace State.Keeps

variable {s u : State} {st : Station}

theorem encoderLine (h : s.Keeps u) (st : Station) (forward : Bool) (r : AccelReading) :
    s.Keeps (u.encoderLine st forward r) := by
  have hmoved : s.Keeps (({ u with enc := u.enc.upd st fun e => e.line forward } : State).seeAccel st r) := h.trans {}
  unfold State.encoderLine
  simp only
  split
  · rename_i e he
    have hstate := (state_of_accumulating he).2
    split
    · obtain ⟨hst, hholder, hgroup, hk⟩ := Engine.cross_held
        ((({ u with enc := u.enc.upd st fun e => e.line forward } : State).seeAccel st r).engine e)
        (({ u with enc := u.enc.upd st fun e => e.line forward } : State).seeAccel st r).enc[st].pos
        ((({ u with enc := u.enc.upd st fun e => e.line forward } : State).seeAccel st r).accelValue st r)
      exact hmoved.modEngine_held (by rw [hstate]; nofun) (by rw [hst, hstate]; nofun) hholder hgroup hk
    · exact hmoved
  · exact hmoved

theorem deferredClaim (h : s.Keeps u) (st : Station) : s.Keeps (u.deferredClaim st) := by
  unfold State.deferredClaim
  split
  · exact h
  have hclaimed := (h.setDeferred st none).claimEngine st
  simp only
  split
  · exact (hclaimed _).endExtended st
  · exact hclaimed _

theorem deliver (h : s.Keeps u) (st : Station) (r : GroupResult) : s.Keeps (u.deliver st r) :=
  (h.modGroups st _).addGroupResult st r

theorem completion (h : s.Keeps u) (e : EngineId) : s.Keeps (u.completion e) := by
  unfold State.completion
  simp only
  split
  · split
    · split
      · split
        · exact ((((h.deliver _ _).releaseEngine e).finishStep _ _ _).enterStopping _ _ _).passEngine e
        · exact (((h.deliver _ _).releaseEngine e).enterStopping _ _ _).passEngine e
      · split
        · exact ((((h.deliver _ _).releaseEngine e).passEngine e).deferredClaim _).endExtended _
        · exact (((h.deliver _ _).releaseEngine e).passEngine e).deferredClaim _
    · exact (h.freeEngine e).deferredClaim _
  · exact (h.freeEngine e).deferredClaim _
  · exact h.freeEngine e

theorem engineWaitExpiry (h : s.Keeps u) (st : Station) : s.Keeps (u.engineWaitExpiry st) := by
  unfold State.engineWaitExpiry
  split
  · exact h
  · exact (((h.dropWait st).countWaitExpired st).unmeasured st _).endExtended st

end State.Keeps
end Sys2Proof.Machine
end

section
/-! PROOFS. The Recipe Table: what a lookup, the free way and the victim are (R39, R44), what a change of a set makes of each
way, and the ranks kept dense by it (R37, R38). -/

namespace Sys2Proof.Machine

open Sys2Proof

set_option Elab.async false

/-! ### Lookup, free way and victim (R39, R44) -/

/-- Every way is one of the four. -/
theorem mem_allWays (w : Fin 4) : w ∈ allWays := by revert w; decide

/-- A hit names the variant's own set and a way that holds its recipe (R39). -/
theorem State.lookup_eq_some {s : State} {v : Nat} {i : Fin 8} {w : Fin 4} {e : Entry} (h : s.lookup v = some (i, w, e)) :
    i = setIndex v ∧ s.table[i][w] = some e ∧ e.recipe.variant = v := by
  unfold lookup at h
  simp only at h
  split at h
  · exact absurd h nofun
  · rename_i x hfind
    obtain ⟨e₀, he₀, hsome⟩ := Option.map_eq_some_iff.mp h
    obtain ⟨rfl, rfl, rfl⟩ : setIndex v = i ∧ x = w ∧ e₀ = e := by simpa using hsome
    refine ⟨rfl, he₀, ?_⟩
    have hvariant := List.find?_some hfind
    rw [he₀] at hvariant
    exact beq_iff_eq.mp hvariant

/-- A miss: no way of the variant's set holds its recipe (R39). -/
theorem State.lookup_eq_none {s : State} {v : Nat} (h : s.lookup v = none) (w : Fin 4) (e : Entry)
    (he : s.table[setIndex v][w] = some e) : e.recipe.variant ≠ v := by
  unfold lookup at h
  simp only at h
  split at h
  · rename_i hfind
    have hway := List.find?_eq_none.mp hfind w (mem_allWays w)
    rw [he] at hway
    simpa using hway
  · rename_i x hfind
    have hsome := List.find?_some hfind
    rw [Option.map_eq_none_iff.mp h] at hsome
    exact absurd hsome nofun

/-- The free way holds no entry. -/
theorem RecipeSet.freeWay_eq_some {set : RecipeSet} {w : Fin 4} (h : RecipeSet.freeWay set = some w) : set[w] = none :=
  Option.isNone_iff_eq_none.mp (List.find?_some (p := fun w : Fin 4 => (set[w]).isNone) h)

/-- A victim among some ways: an evictable entry of the highest rank, or none where no entry is evictable. -/
def RecipeSet.VictimAmong (set : RecipeSet) (ways : List (Fin 4)) : Option (Fin 4 × Entry) → Prop
  | none => ∀ v ∈ ways, ∀ d : Entry, set[v] = some d → d.evictable = false
  | some (w, e) => w ∈ ways ∧ set[w] = some e ∧ e.evictable = true
      ∧ ∀ v ∈ ways, ∀ d, set[v] = some d → d.evictable = true → d.rank ≤ e.rank

/-- The victim is one among the four ways (R44). -/
theorem RecipeSet.victim_spec (set : RecipeSet) : RecipeSet.VictimAmong set allWays (RecipeSet.victim set) := by
  have hfold : ∀ (ways seen : List (Fin 4)) (best : Option (Fin 4 × Entry)), RecipeSet.VictimAmong set seen best →
      RecipeSet.VictimAmong set (seen ++ ways) (ways.foldl (fun best w =>
        match set[w] with
        | none => best
        | some e =>
          if e.evictable then
            match best with
            | none => some (w, e)
            | some b => if b.2.rank < e.rank then some (w, e) else best
          else best) best) := by
    intro ways
    induction ways with
    | nil => simp
    | cons w ways ih =>
      intro seen best hbest
      rw [List.foldl_cons, ← List.singleton_append, ← List.append_assoc]
      refine ih _ _ ?_
      split
      · rename_i hnone
        cases best with
        | none =>
          intro v hv d hd
          rcases List.mem_append.mp hv with hv | hv
          · exact hbest v hv d hd
          · obtain rfl := List.mem_singleton.mp hv
            exact absurd (hnone.symm.trans hd) nofun
        | some b =>
          obtain ⟨hmem, hget, hevict, hmax⟩ := hbest
          refine ⟨List.mem_append_left _ hmem, hget, hevict, fun v hv d hd hde => ?_⟩
          rcases List.mem_append.mp hv with hv | hv
          · exact hmax v hv d hd hde
          · obtain rfl := List.mem_singleton.mp hv
            exact absurd (hnone.symm.trans hd) nofun
      · rename_i e he
        cases best with
        | none =>
          split
          · rename_i hevict
            refine ⟨by simp, he, hevict, fun v hv d hd hde => ?_⟩
            rcases List.mem_append.mp hv with hv | hv
            · exact absurd (hbest v hv d hd) (by simp [hde])
            · obtain rfl := List.mem_singleton.mp hv
              obtain rfl : e = d := Option.some.inj (he.symm.trans hd)
              exact le_rfl
          · rename_i hevict
            intro v hv d hd
            rcases List.mem_append.mp hv with hv | hv
            · exact hbest v hv d hd
            · obtain rfl := List.mem_singleton.mp hv
              obtain rfl : e = d := Option.some.inj (he.symm.trans hd)
              exact Bool.eq_false_iff.mpr hevict
        | some b =>
          obtain ⟨hmem, hget, hbe, hmax⟩ := hbest
          have hkept : (e.evictable = true → e.rank ≤ b.2.rank) → RecipeSet.VictimAmong set (seen ++ [w]) (some b) := by
            intro hle
            refine ⟨List.mem_append_left _ hmem, hget, hbe, fun v hv d hd hde => ?_⟩
            rcases List.mem_append.mp hv with hv | hv
            · exact hmax v hv d hd hde
            · obtain rfl := List.mem_singleton.mp hv
              obtain rfl : e = d := Option.some.inj (he.symm.trans hd)
              exact hle hde
          split
          · rename_i hevict
            simp only
            split
            · rename_i hlt
              refine ⟨by simp, he, hevict, fun v hv d hd hde => ?_⟩
              rcases List.mem_append.mp hv with hv | hv
              · exact (hmax v hv d hd hde).trans hlt.le
              · obtain rfl := List.mem_singleton.mp hv
                obtain rfl : e = d := Option.some.inj (he.symm.trans hd)
                exact le_rfl
            · rename_i hle
              exact hkept fun _ => not_lt.mp hle
          · rename_i hevict
            exact hkept fun hde => absurd hde hevict
  exact hfold allWays [] none nofun

/-- The victim is evictable: unpinned, with lock count 0. -/
theorem RecipeSet.victim_eq_some {set : RecipeSet} {w : Fin 4} {e : Entry} (h : RecipeSet.victim set = some (w, e)) :
    set[w] = some e ∧ e.lock = 0 ∧ e.pinned = false := by
  have hspec := RecipeSet.victim_spec set
  rw [h] at hspec
  obtain ⟨-, hget, hevict, -⟩ := hspec
  simp only [Entry.evictable, Bool.and_eq_true, Bool.not_eq_true', beq_iff_eq] at hevict
  exact ⟨hget, hevict.2, hevict.1⟩

/-! ### The ways of a changed set (R38) -/

@[simp] theorem RecipeSet.getElem_mapRank (set : RecipeSet) (f : Nat → Nat) (w : Fin 4) :
    (RecipeSet.mapRank set f)[w.val] = (set[w.val]).map fun e => { e with rank := f e.rank } := Vector.getElem_map ..

theorem RecipeSet.getElem_installFree (set : RecipeSet) (w v : Fin 4) (e : Entry) :
    (RecipeSet.installFree set w e)[v] =
      if w = v then some { e with rank := 0 } else (set[v]).map fun d => { d with rank := d.rank + 1 } := by
  simp only [RecipeSet.installFree, Fin.getElem_fin, Vector.getElem_set, Fin.val_inj, RecipeSet.getElem_mapRank]

theorem RecipeSet.getElem_installOver (set : RecipeSet) (w v : Fin 4) (r : Nat) (e : Entry) :
    (RecipeSet.installOver set w r e)[v] =
      if w = v then some { e with rank := 0 }
      else (set[v]).map fun d => { d with rank := if d.rank < r then d.rank + 1 else d.rank } := by
  simp only [RecipeSet.installOver, Fin.getElem_fin, Vector.getElem_set, Fin.val_inj, RecipeSet.getElem_mapRank]

theorem RecipeSet.getElem_drop (set : RecipeSet) (w v : Fin 4) (r : Nat) :
    (RecipeSet.drop set w r)[v] =
      if w = v then none else (set[v]).map fun d => { d with rank := if r < d.rank then d.rank - 1 else d.rank } := by
  simp only [RecipeSet.drop, Fin.getElem_fin, Vector.getElem_set, Fin.val_inj, RecipeSet.getElem_mapRank]

/-- A promotion puts the entry in the place of itself (R38). -/
theorem RecipeSet.promote_eq (set : RecipeSet) {w : Fin 4} {e : Entry} (he : set[w] = some e) :
    RecipeSet.promote set w e.rank = RecipeSet.installOver set w e.rank e := by
  simp only [RecipeSet.promote, RecipeSet.installOver, Fin.getElem_fin, RecipeSet.getElem_mapRank]
  rw [Fin.getElem_fin] at he
  rw [he]
  rfl

/-! ### Ranks kept dense (R37, R38) -/

/-- What RanksDense says of one set. -/
def RecipeSet.Dense (i : Fin 8) (set : RecipeSet) : Prop :=
  (∀ e ∈ RecipeSet.entries set, setIndex e.recipe.variant = i)
    ∧ ((RecipeSet.entries set).map (fun e => e.recipe.variant)).Nodup
    ∧ ((RecipeSet.entries set).map Entry.rank).Perm (List.range (RecipeSet.entries set).length)

/-- The same, way by way: no two ways of one variant or one rank, every rank below the number of valid entries. -/
structure RecipeSet.DenseWays (i : Fin 8) (set : RecipeSet) : Prop where
  home : ∀ (w : Fin 4) (e : Entry), set[w] = some e → setIndex e.recipe.variant = i
  variants : ∀ (v w : Fin 4) (d e : Entry), set[v] = some d → set[w] = some e → v ≠ w → d.recipe.variant ≠ e.recipe.variant
  ranks : ∀ (v w : Fin 4) (d e : Entry), set[v] = some d → set[w] = some e → v ≠ w → d.rank ≠ e.rank
  bound : ∀ (w : Fin 4) (e : Entry), set[w] = some e → e.rank < (RecipeSet.entries set).length

theorem RecipeSet.mem_entries {set : RecipeSet} {e : Entry} : e ∈ RecipeSet.entries set ↔ ∃ w : Fin 4, set[w] = some e := by
  simp only [RecipeSet.entries, List.mem_filterMap]
  exact ⟨fun ⟨w, _, h⟩ => ⟨w, h⟩, fun ⟨w, h⟩ => ⟨w, mem_allWays w, h⟩⟩

/-- No two entries have one value of a key exactly when no two ways have. -/
theorem RecipeSet.entries_map_nodup {set : RecipeSet} {key : Entry → Nat} :
    ((RecipeSet.entries set).map key).Nodup ↔
      ∀ (v w : Fin 4) (d e : Entry), set[v] = some d → set[w] = some e → v ≠ w → key d ≠ key e := by
  simp only [RecipeSet.entries, List.Nodup, List.pairwise_map, List.pairwise_filterMap]
  constructor
  · intro h v w d e hd he hvw
    have hsymm : Std.Symm fun v w : Fin 4 => ∀ d, set[v] = some d → ∀ e, set[w] = some e → key d ≠ key e :=
      ⟨fun v w h d hd e he => (h e he d hd).symm⟩
    exact h.forall (mem_allWays v) (mem_allWays w) hvw d hd e he
  · intro h
    have hways : allWays.Nodup := by decide
    exact hways.imp fun hvw d hd e he => h _ _ d e hd he hvw

theorem RecipeSet.dense_iff {i : Fin 8} {set : RecipeSet} : RecipeSet.Dense i set ↔ RecipeSet.DenseWays i set := by
  constructor
  · rintro ⟨hhome, hvariants, hranks⟩
    refine ⟨fun w e he => hhome e (RecipeSet.mem_entries.mpr ⟨w, he⟩), RecipeSet.entries_map_nodup.mp hvariants,
      RecipeSet.entries_map_nodup.mp (hranks.nodup_iff.mpr List.nodup_range), fun w e he => ?_⟩
    exact List.mem_range.mp (hranks.subset (List.mem_map.mpr ⟨e, RecipeSet.mem_entries.mpr ⟨w, he⟩, rfl⟩))
  · rintro ⟨hhome, hvariants, hranks, hbound⟩
    refine ⟨fun e he => ?_, RecipeSet.entries_map_nodup.mpr hvariants, ?_⟩
    · obtain ⟨w, hw⟩ := RecipeSet.mem_entries.mp he
      exact hhome w e hw
    · have hnodup := RecipeSet.entries_map_nodup.mpr hranks
      refine (List.subperm_of_subset hnodup fun x hx => ?_).perm_of_length_le (by simp)
      obtain ⟨e, he, rfl⟩ := List.mem_map.mp hx
      obtain ⟨w, hw⟩ := RecipeSet.mem_entries.mp he
      exact List.mem_range.mpr (hbound w e hw)

/-- The valid entries of a set, counted. -/
theorem RecipeSet.entries_length (set : RecipeSet) :
    (RecipeSet.entries set).length =
      (set[0]).isSome.toNat + (set[1]).isSome.toNat + (set[2]).isSome.toNat + (set[3]).isSome.toNat := by
  have hcount : ∀ (x : Option Entry) (l : List Entry), (x.toList ++ l).length = x.isSome.toNat + l.length := by
    intro x l
    cases x <;> simp [Nat.add_comm]
  have hcons : ∀ (w : Fin 4) (l : List (Fin 4)), (w :: l).filterMap (fun w => set[w]) =
      (set[w]).toList ++ l.filterMap fun w => set[w] := by
    intro w l
    rw [List.filterMap_cons]
    split <;> simp_all
  simp only [RecipeSet.entries, allWays, hcons, hcount, List.filterMap_nil, List.length_nil]
  simp [Nat.add_assoc]

/-- The number of valid entries of a set changed at one way alone. -/
theorem RecipeSet.entries_length_of_other {set set' : RecipeSet} {w : Fin 4}
    (h : ∀ v : Fin 4, w ≠ v → (set'[v]).isSome = (set[v]).isSome) :
    (RecipeSet.entries set').length + (set[w]).isSome.toNat = (RecipeSet.entries set).length + (set'[w]).isSome.toNat := by
  have h0 := h 0
  have h1 := h 1
  have h2 := h 2
  have h3 := h 3
  simp only [RecipeSet.entries_length]
  simp only [Fin.getElem_fin, Fin.isValue, Fin.val_zero, Fin.val_one, Fin.val_two] at *
  fin_cases w <;> simp at h0 h1 h2 h3 ⊢ <;> simp [h0, h1, h2, h3] <;> omega

/-- A set changed at way `w`, its other ranks moved by `f`: dense still when what comes to `w` has rank 0 and a variant of the
set that no other way has, and `f` moves the ranks of the other ways apart, off 0 and below the new number of entries. -/
theorem RecipeSet.DenseWays.change {i : Fin 8} {set set' : RecipeSet} (h : RecipeSet.DenseWays i set) {w : Fin 4}
    {new : Option Entry} {f : Nat → Nat}
    (hset : ∀ v : Fin 4, set'[v] = if w = v then new else (set[v]).map fun d => { d with rank := f d.rank })
    (hnew : ∀ e, new = some e → e.rank = 0 ∧ setIndex e.recipe.variant = i
      ∧ ∀ (v : Fin 4) (d : Entry), w ≠ v → set[v] = some d → d.recipe.variant ≠ e.recipe.variant ∧ f d.rank ≠ 0)
    (hinj : ∀ (u v : Fin 4) (d e : Entry), w ≠ u → w ≠ v → set[u] = some d → set[v] = some e → f d.rank = f e.rank → d.rank = e.rank)
    (hbound : ∀ (v : Fin 4) (d : Entry), w ≠ v → set[v] = some d →
      f d.rank + (set[w]).isSome.toNat < (RecipeSet.entries set).length + new.isSome.toNat) :
    RecipeSet.DenseWays i set' := by
  have hself : set'[w] = new := by rw [hset, if_pos rfl]
  have hother : ∀ v : Fin 4, w ≠ v → set'[v] = (set[v]).map fun d => { d with rank := f d.rank } := fun v hv => by
    rw [hset, if_neg hv]
  have hback : ∀ (v : Fin 4) (e : Entry), w ≠ v → set'[v] = some e →
      ∃ d, set[v] = some d ∧ e.recipe = d.recipe ∧ e.rank = f d.rank := fun v e hv he => by
    obtain ⟨d, hd, rfl⟩ := Option.map_eq_some_iff.mp (hother v hv ▸ he)
    exact ⟨d, hd, rfl, rfl⟩
  have hlen := RecipeSet.entries_length_of_other (set := set) (set' := set') (w := w) fun v hv => by
    rw [hother v hv, Option.isSome_map]
  rw [hself] at hlen
  constructor
  · intro v e he
    by_cases hv : w = v
    · subst hv
      exact (hnew e (hself ▸ he)).2.1
    · obtain ⟨d, hd, hrecipe, -⟩ := hback v e hv he
      exact hrecipe ▸ h.home v d hd
  · intro u v d e hd he huv
    by_cases hu : w = u <;> by_cases hv : w = v
    · exact absurd (hu.symm.trans hv) huv
    · subst hu
      obtain ⟨e', he', hrecipe, -⟩ := hback v e hv he
      rw [hrecipe]
      exact ((hnew d (hself ▸ hd)).2.2 v e' hv he').1.symm
    · subst hv
      obtain ⟨d', hd', hrecipe, -⟩ := hback u d hu hd
      rw [hrecipe]
      exact ((hnew e (hself ▸ he)).2.2 u d' hu hd').1
    · obtain ⟨d', hd', hd, -⟩ := hback u d hu hd
      obtain ⟨e', he', he, -⟩ := hback v e hv he
      rw [hd, he]
      exact h.variants u v d' e' hd' he' huv
  · intro u v d e hd he huv
    by_cases hu : w = u <;> by_cases hv : w = v
    · exact absurd (hu.symm.trans hv) huv
    · subst hu
      obtain ⟨e', he', -, hrank⟩ := hback v e hv he
      rw [hrank, (hnew d (hself ▸ hd)).1]
      exact ((hnew d (hself ▸ hd)).2.2 v e' hv he').2.symm
    · subst hv
      obtain ⟨d', hd', -, hrank⟩ := hback u d hu hd
      rw [hrank, (hnew e (hself ▸ he)).1]
      exact ((hnew e (hself ▸ he)).2.2 u d' hu hd').2
    · obtain ⟨d', hd', -, hd⟩ := hback u d hu hd
      obtain ⟨e', he', -, he⟩ := hback v e hv he
      rw [hd, he]
      exact fun heq => h.ranks u v d' e' hd' he' huv (hinj u v d' e' hu hv hd' he' heq)
  · intro v e he
    by_cases hv : w = v
    · subst hv
      have hmem : e ∈ RecipeSet.entries set' := RecipeSet.mem_entries.mpr ⟨w, he⟩
      rw [(hnew e (hself ▸ he)).1]
      exact List.length_pos_of_mem hmem
    · obtain ⟨d, hd, -, hrank⟩ := hback v e hv he
      have := hbound v d hv hd
      omega

/-- Over an entry of the set, or in its place (R38). -/
theorem RecipeSet.DenseWays.installOver {i : Fin 8} {set : RecipeSet} (h : RecipeSet.DenseWays i set) {w : Fin 4} {d e : Entry}
    (hd : set[w] = some d) (hhome : setIndex e.recipe.variant = i)
    (hvariant : ∀ (v : Fin 4) (x : Entry), w ≠ v → set[v] = some x → x.recipe.variant ≠ e.recipe.variant) :
    RecipeSet.DenseWays i (RecipeSet.installOver set w d.rank e) := by
  have hne : ∀ (v : Fin 4) (x : Entry), w ≠ v → set[v] = some x → x.rank ≠ d.rank := fun v x hv hx => h.ranks v w x d hx hd (Ne.symm hv)
  refine h.change (w := w) (new := some { e with rank := 0 }) (f := fun x => if x < d.rank then x + 1 else x)
    (fun v => RecipeSet.getElem_installOver set w v d.rank e) (fun x hx => ?_) (fun u v x y hu hv hx hy hxy => ?_)
    fun v x hv hx => ?_
  · obtain rfl := Option.some.inj hx
    refine ⟨rfl, hhome, fun v x hv hx => ⟨hvariant v x hv hx, ?_⟩⟩
    have := hne v x hv hx
    split <;> omega
  · have := hne u x hu hx
    have := hne v y hv hy
    split at hxy <;> split at hxy <;> omega
  · have := h.bound v x hx
    have := h.bound w d hd
    rw [hd]
    simp only [Option.isSome_some, Bool.toNat_true]
    split <;> omega

/-- Into an invalid way (R38). -/
theorem RecipeSet.DenseWays.installFree {i : Fin 8} {set : RecipeSet} (h : RecipeSet.DenseWays i set) {w : Fin 4} {e : Entry}
    (hw : set[w] = none) (hhome : setIndex e.recipe.variant = i)
    (hvariant : ∀ (v : Fin 4) (x : Entry), set[v] = some x → x.recipe.variant ≠ e.recipe.variant) :
    RecipeSet.DenseWays i (RecipeSet.installFree set w e) := by
  refine h.change (w := w) (new := some { e with rank := 0 }) (f := fun x => x + 1)
    (fun v => RecipeSet.getElem_installFree set w v e) (fun x hx => ?_) (fun u v x y hu hv hx hy hxy => ?_)
    fun v x hv hx => ?_
  · obtain rfl := Option.some.inj hx
    exact ⟨rfl, hhome, fun v x hv hx => ⟨hvariant v x hx, by omega⟩⟩
  · omega
  · have := h.bound v x hx
    rw [hw]
    simp only [Option.isSome_some, Option.isSome_none, Bool.toNat_true, Bool.toNat_false]
    omega

/-- An entry dropped (R38). -/
theorem RecipeSet.DenseWays.drop {i : Fin 8} {set : RecipeSet} (h : RecipeSet.DenseWays i set) {w : Fin 4} {d : Entry}
    (hd : set[w] = some d) : RecipeSet.DenseWays i (RecipeSet.drop set w d.rank) := by
  have hne : ∀ (v : Fin 4) (x : Entry), w ≠ v → set[v] = some x → x.rank ≠ d.rank := fun v x hv hx => h.ranks v w x d hx hd (Ne.symm hv)
  refine h.change (w := w) (new := none) (f := fun x => if d.rank < x then x - 1 else x)
    (fun v => RecipeSet.getElem_drop set w v d.rank) nofun (fun u v x y hu hv hx hy hxy => ?_) fun v x hv hx => ?_
  · have := hne u x hu hx
    have := hne v y hv hy
    split at hxy <;> split at hxy <;> omega
  · have := h.bound v x hx
    have := h.bound w d hd
    have := hne v x hv hx
    rw [hd]
    simp only [Option.isSome_some, Option.isSome_none, Bool.toNat_true, Bool.toNat_false]
    split <;> omega

end Sys2Proof.Machine
end

section
/-! PROOFS. The bounds, the store's numbering, the remark lists, the valves, the ranks and the engines: what the requests and
the remaining events keep of them, and what every step keeps. -/

namespace Sys2Proof.Machine

open Sys2Proof

set_option Elab.async false

namespace State.Keeps

variable {s u : State} {st : Station}

/-! ### Requests in general -/

theorem withStation (h : s.Keeps u) (b : Byte) {f : Station → State × List Byte} (hf : ∀ st, s.Keeps (f st).1) :
    s.Keeps (Machine.withStation b u f).1 := by
  unfold Machine.withStation
  split
  · exact h
  · exact hf _

theorem withEntry (h : s.Keeps u) (v : Word16) {f : Fin 8 → Fin 4 → Entry → State × List Byte}
    (hf : ∀ i w e, u.lookup v.toNat = some (i, w, e) → s.Keeps (f i w e).1) : s.Keeps (Machine.withEntry v u f).1 := by
  unfold Machine.withEntry
  split
  · exact h
  split
  · exact h
  · exact hf _ _ _ (by assumption)

/-! ### Recipes and the recipe table (R37 to R48) -/

/-- A change of one set that keeps its ranks dense and its statistics within their range. -/
theorem setSet (h : s.Keeps u) {i : Fin 8} {set : RecipeSet}
    (hdense : RecipeSet.DenseWays i u.table[i] → RecipeSet.DenseWays i set)
    (hfits : ∀ (w : Fin 4) (e : Entry), set[w] = some e →
      (e.tests = 0 ∧ e.fails = 0) ∨ ∃ (v : Fin 4) (d : Entry), u.table[i][v] = some d ∧ e.tests = d.tests ∧ e.fails = d.fails) :
    s.Keeps (u.setSet i set) := by
  have htable : ∀ j : Fin 8, (u.setSet i set).table[j] = if i = j then set else u.table[j] := fun j => by
    simp only [setSet_table, Fin.getElem_fin, Vector.getElem_set, Fin.val_inj]
  have hentry : u.Bounded → ∀ (j : Fin 8) (v : Fin 4) (e : Entry), (u.setSet i set).table[j][v] = some e →
      e.tests ≤ 65535 ∧ e.fails ≤ 65535 := by
    intro hb j v e he
    rw [htable] at he
    split at he
    · rcases hfits v e he with ⟨ht, hf⟩ | ⟨w, d, hd, ht, hf⟩
      · omega
      · rw [ht, hf]
        exact hb.recipes i w d hd
    · exact hb.recipes j v e he
  refine h.trans { bounded := fun hb => ⟨hb.live, hb.snapshot, hentry hb, hb.notices, hb.records, hb.config, hb.limits⟩
                   ranks := fun hr j => ?_ }
  rw [htable]
  split
  · rename_i hij
    subst hij
    exact RecipeSet.dense_iff.mpr (hdense (RecipeSet.dense_iff.mp (hr i)))
  · exact hr j

theorem retire (h : s.Keeps u) (e : Entry) : s.Keeps (u.retire e) := by
  unfold State.retire
  split
  · exact (h.countGlobal (f := fun c =>
      { c with retiredTests := satAdd c.retiredTests e.tests, retiredFails := satAdd c.retiredFails e.fails })
      fun _ ⟨h₁, h₂, h₃, _⟩ => ⟨h₁, h₂, h₃, satAdd_le .., satAdd_le ..⟩).giveNotice _
  · exact h

/-- An entry installed in place of another, or promoted. -/
theorem installOver (h : s.Keeps u) {i : Fin 8} {w : Fin 4} {d e : Entry} (hd : u.table[i][w] = some d)
    (hhome : RecipeSet.DenseWays i u.table[i] → setIndex e.recipe.variant = i)
    (hvariant : RecipeSet.DenseWays i u.table[i] → ∀ (v : Fin 4) (x : Entry), w ≠ v → u.table[i][v] = some x →
      x.recipe.variant ≠ e.recipe.variant)
    (hstats : (e.tests = 0 ∧ e.fails = 0) ∨ e.tests = d.tests ∧ e.fails = d.fails) :
    s.Keeps (u.setSet i (RecipeSet.installOver u.table[i] w d.rank e)) := by
  refine h.setSet (fun hr => hr.installOver hd (hhome hr) (hvariant hr)) fun v x hx => ?_
  rw [RecipeSet.getElem_installOver] at hx
  split at hx
  · obtain rfl := Option.some.inj hx
    exact hstats.imp_right fun hs => ⟨w, d, hd, hs⟩
  · obtain ⟨x₀, hx₀, rfl⟩ := Option.map_eq_some_iff.mp hx
    exact .inr ⟨v, x₀, hx₀, rfl, rfl⟩

theorem placeRecipe (h : s.Keeps u) (r : Recipe) : s.Keeps (Machine.placeRecipe r u).1 := by
  unfold Machine.placeRecipe
  simp only
  split
  · rename_i i w e hhit
    obtain ⟨rfl, he, hvariant⟩ := lookup_eq_some hhit
    split
    · exact h
    · have he' : (u.retire e).table[setIndex r.variant][w] = some e := by rwa [retire_table]
      exact (h.retire e).installOver he' (fun _ => rfl)
        (fun hr v x hv hx => (hvariant ▸ hr.variants v w x e hx he' (Ne.symm hv) : x.recipe.variant ≠ r.variant))
        (.inl ⟨rfl, rfl⟩)
  · rename_i hmiss
    have hnew : ∀ (v : Fin 4) (x : Entry), u.table[setIndex r.variant][v] = some x →
        x.recipe.variant ≠ (Entry.fresh r false).recipe.variant := fun v x hx => lookup_eq_none hmiss v x hx
    split
    · rename_i w hfree
      refine h.setSet (fun hr => hr.installFree (RecipeSet.freeWay_eq_some hfree) rfl hnew) fun v x hx => ?_
      rw [RecipeSet.getElem_installFree] at hx
      split at hx
      · obtain rfl := Option.some.inj hx
        exact .inl ⟨rfl, rfl⟩
      · obtain ⟨x₀, hx₀, rfl⟩ := Option.map_eq_some_iff.mp hx
        exact .inr ⟨v, x₀, hx₀, rfl, rfl⟩
    · split
      · rename_i w e hvictim
        have he' : (u.retire e).table[setIndex r.variant][w] = some e := by
          rw [retire_table]
          exact (RecipeSet.victim_eq_some hvictim).1
        exact (h.retire e).installOver he' (fun _ => rfl) (fun _ v x _ hx => hnew v x (by rwa [retire_table] at hx))
          (.inl ⟨rfl, rfl⟩)
      · exact h

theorem serveLdr (h : s.Keeps u) (body : List Byte) : s.Keeps (Machine.serveLdr body u).1 := by
  unfold Machine.serveLdr
  split
  · exact h
  · exact h.placeRecipe _

theorem serveDrp (h : s.Keeps u) (v : Word16) : s.Keeps (Machine.serveDrp v u).1 := by
  refine h.withEntry v fun i w e hhit => ?_
  obtain ⟨rfl, he, -⟩ := lookup_eq_some hhit
  split
  · exact h
  · refine (h.retire e).setSet (fun hr => hr.drop (by simpa using he)) fun x d hd => ?_
    rw [RecipeSet.getElem_drop] at hd
    split at hd
    · exact absurd hd nofun
    · obtain ⟨d₀, hd₀, rfl⟩ := Option.map_eq_some_iff.mp hd
      exact .inr ⟨x, d₀, hd₀, rfl, rfl⟩

theorem servePin (h : s.Keeps u) (v : Word16) (p : Byte) : s.Keeps (Machine.servePin v p u).1 := by
  unfold Machine.servePin
  split
  · exact h
  · exact h.withEntry v fun i w e _ => h.modEntry (fun _ => ⟨rfl, rfl⟩) fun _ hfits => hfits

theorem serveRrs (h : s.Keeps u) (v : Word16) : s.Keeps (Machine.serveRrs v u).1 :=
  h.withEntry v fun _ _ _ _ => h.modEntry (fun _ => ⟨rfl, rfl⟩) fun _ _ => ⟨Nat.zero_le _, Nat.zero_le _⟩

theorem takeRecipe (h : s.Keeps u) (st : Station) (r : Recipe) (ref : RecipeRef) : s.Keeps (u.takeRecipe st r ref) := by
  unfold State.takeRecipe
  split
  · split
    · exact h
    · rename_i i w _ e he
      rw [RecipeSet.promote_eq _ he]
      exact (h.installOver he (fun hr => hr.home w e he) (fun hr v x hv hx => hr.variants v w x e hx he (Ne.symm hv))
        (.inr ⟨rfl, rfl⟩)).modEntry (fun _ => ⟨rfl, rfl⟩) fun _ hfits => hfits
  · exact h.modCtx_same fun _ => rfl

/-! ### Monitoring: LIM, MSK and CLF (R83, R92, R94) -/

/-- A change of the masks. -/
theorem serveMsk (h : s.Keeps u) (xs : List MskSetting) : s.Keeps (Machine.serveMsk xs u).1 := by
  unfold Machine.serveMsk
  split
  · exact h
  · exact h.trans {}

theorem serveClf (h : s.Keeps u) (scope : Byte) (ps : List FlagPair) : s.Keeps (Machine.serveClf scope ps u).1 := by
  unfold Machine.serveClf
  split
  · exact h
  split
  · exact h
  split
  · exact h.clearStationFlags _ _
  · exact h.trans {}

end State.Keeps

/-- What `readAll` reads is read from its items. -/
theorem mem_of_readAll {α β : Type} {f : α → Option β} {as : List α} {bs : List β} (h : readAll f as = some bs) :
    ∀ b ∈ bs, ∃ a ∈ as, f a = some b := by
  induction as generalizing bs with
  | nil =>
    obtain rfl := Option.some.inj h
    exact nofun
  | cons a as ih =>
    unfold readAll at h
    split at h
    · rename_i b bs' hb hbs
      obtain rfl := Option.some.inj h
      intro x hx
      rcases List.mem_cons.mp hx with rfl | hx
      · exact ⟨a, List.mem_cons_self, hb⟩
      · obtain ⟨a', ha', hfa⟩ := ih hbs x hx
        exact ⟨a', List.mem_cons_of_mem _ ha', hfa⟩
    · exact absurd h nofun

/-- A LIM entry that is taken has its thresholds in range and in order (R83). -/
theorem limEntryOf_fits {e : LimEntry} {q : Quantity} {t : Thresholds} (h : limEntryOf e = some (q, t)) :
    t.ordered = true ∧ t.inRange q = true := by
  unfold limEntryOf at h
  split at h
  · exact absurd h nofun
  · simp only at h
    split at h
    · rename_i hfits
      obtain ⟨rfl, rfl⟩ := Prod.ext_iff.mp (Option.some.inj h)
      exact (Bool.and_eq_true _ _ ▸ hfits).symm
    · exact absurd h nofun

/-- The list of a LIM that is taken reads entries of its own, 1 to 7, none of one quantity (R83). -/
theorem limListOf_eq_some {es : List LimEntry} {xs : List (Quantity × Thresholds)} (h : limListOf es = some xs) :
    readAll limEntryOf es = some xs ∧ 1 ≤ xs.length ∧ xs.length ≤ 7 ∧ (xs.map Prod.fst).Nodup := by
  unfold limListOf at h
  split at h
  · split at h
    · obtain rfl := Option.some.inj h
      exact ⟨by assumption, by assumption⟩
    · exact absurd h nofun
  · exact absurd h nofun

/-- A quantity stands at its place among the seven. -/
theorem allQuantities_idx (q : Quantity) : allQuantities[q.idx.val]? = some q := by
  cases q with
  | supply => rfl
  | station q => cases q <;> rfl

/-- The places of the quantities tell them apart. -/
theorem Quantity.idx_inj {p q : Quantity} (h : p.idx = q.idx) : p = q :=
  Option.some.inj ((allQuantities_idx p).symm.trans (h ▸ allQuantities_idx q))

/-- A threshold table set by a list keeps what its entries and the former table have. -/
theorem setLimits_keeps {P : Quantity → Thresholds → Prop} {xs : List (Quantity × Thresholds)} {t : ThresholdTable}
    (ht : ∀ q : Quantity, P q t[q.idx]) (hxs : ∀ x ∈ xs, P x.1 x.2) (q : Quantity) : P q (setLimits t xs)[q.idx] := by
  induction xs generalizing t with
  | nil => exact ht q
  | cons x xs ih =>
    refine ih (fun p => ?_) fun y hy => hxs y (List.mem_cons_of_mem _ hy)
    simp only [Fin.getElem_fin, Vector.getElem_set, Fin.val_inj]
    split
    · rename_i hidx
      obtain rfl := Quantity.idx_inj hidx
      exact hxs x List.mem_cons_self
    · exact ht p

namespace State.Keeps

variable {s u : State} {st : Station}

theorem serveLim (h : s.Keeps u) (es : List LimEntry) : s.Keeps (Machine.serveLim es u).1 := by
  unfold Machine.serveLim
  split
  · exact h
  · rename_i xs hlist
    refine h.trans { bounded := fun hb => ⟨hb.live, hb.snapshot, hb.recipes, hb.notices, hb.records, hb.config, ?_⟩ }
    refine setLimits_keeps (P := fun q t => t.ordered = true ∧ t.inRange q = true) hb.limits fun x hx => ?_
    obtain ⟨e, -, he⟩ := mem_of_readAll (limListOf_eq_some hlist).1 x hx
    exact limEntryOf_fits he

/-! ### Channel conditioning, counting and configuration -/

theorem serveChn (h : s.Keeps u) (f : ChnFields) : s.Keeps (Machine.serveChn f u).1 := by
  refine h.withStation _ fun st => ?_
  split
  · exact h
  · have hset : ∀ c, s.Keeps (u.setConditioning st c) := fun c => by
      unfold State.setConditioning
      simp only
      split
      · exact modVib (h.trans {}) st _
      · exact h.trans {}
    split
    case h_4 | h_5 | h_6 => exact hset _
    all_goals exact h

theorem snapshot (h : s.Keeps u) (cause : SnapshotCause) : s.Keeps (u.snapshot cause) := by
  have hzero : CounterSet.zero.fits := by
    refine ⟨fun st => ?_, by simp [CounterSet.zero, GlobalCounters.fits]⟩
    have hst : CounterSet.zero.stations[st] = ⟨0, 0, 0, 0, 0, 0, 0, 0, 0, 0⟩ := Vector.getElem_replicate _
    rw [hst]
    simp [StationCounters.fits]
  exact h.trans { bounded := fun hb => ⟨hzero, hb.live, hb.recipes, hb.notices, hb.records, hb.config, hb.limits⟩ }

theorem serveCfg (h : s.Keeps u) (f : CfgFields) : s.Keeps (Machine.serveCfg f u).1 := by
  unfold Machine.serveCfg
  split
  · exact h
  · rename_i mode _
    split
    · exact h
    have hrange : (CfgFields.applied f mode).inRange := by
      simp only [LineConfig.inRange, CfgFields.applied, clampNat]
      omega
    have hcounters : (u.configure (CfgFields.applied f mode)).counters.live = u.counters.live
        ∧ (u.configure (CfgFields.applied f mode)).counters.snapshot = u.counters.snapshot := by
      unfold State.configure
      simp only
      split <;> exact ⟨rfl, rfl⟩
    refine h.trans { bounded := fun hb => ⟨?_, ?_, hb.recipes, hb.notices, hb.records, hrange, hb.limits⟩ }
    · exact hcounters.1 ▸ hb.live
    · exact hcounters.2 ▸ hb.snapshot

/-! ### Stations (R15 to R27) -/

theorem releaseStation (h : s.Keeps u) (st : Station) : s.Keeps (u.releaseStation st) :=
  ((h.modCtx (f := fun c => { c with test := none, record := none }) fun _ _ _ hnone => absurd hnone nofun).modGroups st
    _).setState st _

theorem serveEna (h : s.Keeps u) (b e : Byte) : s.Keeps (Machine.serveEna b e u).1 := by
  refine h.withStation b fun st => ?_
  split
  · exact (h.modCtx_same (f := fun c => { c with enabled := true }) fun _ => rfl).setState st _
  · exact (h.modCtx_same (f := fun c => { c with enabled := false }) fun _ => rfl).setState st _
  all_goals exact h

/-- An empty remark list is kept as R160 and R161 say. -/
theorem remarksKept_of_nil {r : Record} (h : r.remarks = []) (hfull : r.remarksFull = false) : r.remarksKept := by
  refine ⟨?_, ?_, ?_⟩
  · rw [h]; exact List.nodup_nil
  · rw [h]; exact Nat.zero_le _
  · rw [hfull]; exact nofun

theorem startTest (h : s.Keeps u) (st : Station) (f : SttFields) (r : Recipe) (ref : RecipeRef) (thr : Vector Thresholds 6) :
    s.Keeps (u.startTest st f r ref thr) := by
  have hcleared : s.Keeps (u.clearLatches st) := h.trans {}
  have hopened := (hcleared.takeRecipe st r ref).modCtx (st := st) (f := fun c => { c with
    test := some ⟨f.testTag, f.text, f.variant.toNat, ref, r, u.config.mode == .verify || u.substituted st, thr,
      ((u.clearLatches st).takeRecipe st r ref).now, none, none⟩
    record := some {
      number := none, station := st, testTag := f.testTag, text := f.text, variant := f.variant.toNat
      recipeVariant := r.variant, revision := r.revision, fingerprint := r.fingerprint
      transient := ref == .transient, verification := u.config.mode == .verify || u.substituted st
      start := ((u.clearLatches st).takeRecipe st r ref).now
      endTime := none, verdict := none, cause := none
      steps := [], groups := [], leaks := [], checks := [], remarks := [], remarksFull := false } }) fun c _ x hx => by
    obtain rfl := Option.some.inj hx
    exact remarksKept_of_nil rfl rfl
  have hrunning := ((((hopened.countStation (st := st) (f := fun c => { c with testsStarted := satAdd c.testsStarted 1 })
    fun _ ⟨_, hrest⟩ => ⟨satAdd_le .., hrest⟩).setState st .running).modDrive st
    fun _ => { Drive.off with enable := true }).modGroups st fun _ => r.groupTable)
  have hreport : ∀ v, s.Keeps v → s.Keeps (if v.pins.driveFault[st] then v.driveFaultReport st else v) := fun v hv => by
    split
    · exact hv.driveFaultReport st
    · exact hv
  unfold State.startTest
  refine hreport _ ?_
  split
  · exact hrunning.beginStep st _ _
  · exact hrunning

theorem serveStt (h : s.Keeps u) (f : SttFields) : s.Keeps (Machine.serveStt f u).1 := by
  refine h.withStation _ fun st => ?_
  split
  · exact h
  split
  · exact h
  split
  · exact h
  split
  · exact h
  split
  · exact h
  split
  · exact h
  split
  · exact h
  split
  · exact h
  simp only
  split
  · exact h
  · exact h.startTest ..

theorem serveAbt (h : s.Keeps u) (b : Byte) : s.Keeps (Machine.serveAbt b u).1 := by
  refine h.withStation b fun st => ?_
  split
  · exact h.enterStopping st (some .hostAbort) false
  all_goals exact h

theorem serveRel (h : s.Keeps u) (b : Byte) : s.Keeps (Machine.serveRel b u).1 := by
  refine h.withStation b fun st => ?_
  split
  · exact h.releaseStation st
  · exact h

theorem serveSkg (h : s.Keeps u) (b : Byte) : s.Keeps (Machine.serveSkg b u).1 := by
  refine h.withStation b fun st => ?_
  split
  · exact (h.remark st _).endStep st _
  · exact h

theorem serveRds (h : s.Keeps u) (b : Byte) : s.Keeps (Machine.serveRds b u).1 := h.withStation b fun _ => h

theorem serveRdm (h : s.Keeps u) (b : Byte) : s.Keeps (Machine.serveRdm b u).1 := by
  unfold Machine.serveRdm
  split <;> exact h

theorem serveRdr (h : s.Keeps u) (b : Byte) (n : Word32) : s.Keeps (Machine.serveRdr b n u).1 := by
  unfold Machine.serveRdr
  split
  · exact h
  split
  · exact h
  split
  · exact h
  split <;> exact h

theorem serveRlr (h : s.Keeps u) (n : Word32) : s.Keeps (Machine.serveRlr n u).1 := by
  unfold Machine.serveRlr
  split
  · exact h
  · rename_i oldest rest hrecords
    split
    · exact h
    · exact h.trans (depositHead (kept := rest) (hrecords ▸ List.suffix_cons oldest rest)
        (.inr (by simp [hrecords])))

/-- Every message's rule keeps the properties. -/
theorem serveCommand (h : s.Keeps u) (c : Instr) : s.Keeps (Machine.serveCommand c u).1 := by
  cases c with
  | cfg _ f => exact h.serveCfg f
  | stt _ f => exact h.serveStt f
  | abt _ b => exact h.serveAbt b
  | rel _ b => exact h.serveRel b
  | ena _ b e => exact h.serveEna b e
  | rds _ b => exact h.serveRds b
  | rst _ => exact h.modLink (f := fun l => { l with restartPending := true }) (le_max_left ..)
  | skg _ b => exact h.serveSkg b
  | ldr _ body => exact h.serveLdr body
  | drp _ v => exact h.serveDrp v
  | pin _ v p => exact h.servePin v p
  | rrs _ v => exact h.serveRrs v
  | lim _ es => exact h.serveLim es
  | msk _ xs => exact h.serveMsk xs
  | rdm _ b => exact h.serveRdm b
  | clf _ b ps => exact h.serveClf b ps
  | chn _ f => exact h.serveChn f
  | rdr _ b n => exact h.serveRdr b n
  | rlr _ n => exact h.serveRlr n
  | snp _ => exact h.snapshot .snp
  | pol _ => exact h.trans {}
  | _ => exact h

theorem serveFrame (h : s.Keeps u) (kind tag : Byte) (p : List Byte) : s.Keeps (Machine.serveFrame kind tag p u).1 := by
  unfold Machine.serveFrame
  split
  · exact h
  split
  · exact h.serveCommand _
  · exact h

/-! ### The link (R187 to R201) -/

theorem discardBadFrame (h : s.Keeps u) : s.Keeps u.discardBadFrame :=
  h.hunt.countGlobal fun _ ⟨_, hrest⟩ => ⟨satAdd_le .., hrest⟩

theorem receive (h : s.Keeps u) (b : Byte) : s.Keeps (u.receive b) := by
  unfold State.receive
  split
  · split
    · exact h.modLink (le_max_left ..)
    · exact h
  split
  · unfold State.takeFrame
    split
    · exact h.goodFrame _ _ fun _ hv => hv.serveFrame _ _ _
    · exact h.discardBadFrame
  · split
    · exact h.modLink (le_max_left ..)
    · exact h.discardBadFrame
  · exact h.modLink (le_max_left ..)

end State.Keeps
end Sys2Proof.Machine
end

section
/-! PROOFS. What every step keeps of the bounds, the store's numbering, the remark lists, the valves, the ranks and the
engines: the restart and power-on, every command, and the step. -/

namespace Sys2Proof.Machine

open Sys2Proof

set_option Elab.async false

namespace State

/-! ### Power-on and the restart (R26, R27) -/

/-- Every counter of a set at 0 is in its range. -/
theorem counterSet_zero_fits : CounterSet.zero.fits := by
  refine ⟨fun st => ?_, by simp [CounterSet.zero, GlobalCounters.fits]⟩
  have hst : CounterSet.zero.stations[st] = ⟨0, 0, 0, 0, 0, 0, 0, 0, 0, 0⟩ := Vector.getElem_replicate _
  rw [hst]
  simp [StationCounters.fits]

/-- The power-on threshold table is ordered and in range (R82). -/
theorem defaultThresholds_fit (q : Quantity) :
    defaultThresholds[q.idx].ordered = true ∧ defaultThresholds[q.idx].inRange q = true := by
  cases q with
  | supply => exact ⟨rfl, rfl⟩
  | station q => cases q <;> exact ⟨rfl, rfl⟩

theorem powerOn_bounded (pins : PowerOnPins) : (powerOn pins).Bounded where
  live := counterSet_zero_fits
  snapshot := counterSet_zero_fits
  recipes i w e he := absurd ((powerOn_table pins i w).symm.trans he) nofun
  notices := Nat.zero_le _
  records := Nat.zero_le _
  config := by simp [powerOn, LineConfig.initial, LineConfig.inRange]
  limits := defaultThresholds_fit

theorem powerOn_numbered (pins : PowerOnPins) : (powerOn pins).Numbered where
  issued r hr := absurd hr List.not_mem_nil
  rising := .nil
  next n hn := by
    obtain rfl := Option.some.inj hn
    omega

theorem powerOn_remarksKept (pins : PowerOnPins) : (powerOn pins).RemarksKept where
  inProgress st r hr := by
    rw [ctx, Fin.getElem_fin, powerOn_seq] at hr
    exact absurd hr nofun
  stored r hr := absurd hr List.not_mem_nil

theorem powerOn_valvesFollowPhase (pins : PowerOnPins) : (powerOn pins).ValvesFollowPhase := by
  intro st
  simp only [circuit, Fin.getElem_fin, powerOn_circuits]
  exact ⟨rfl, rfl⟩

theorem powerOn_ranksDense (pins : PowerOnPins) : (powerOn pins).RanksDense := by
  intro i
  have hnone : ∀ (w : Fin 4) (e : Entry), (powerOn pins).table[i][w] = some e → False := fun w e he =>
    absurd ((powerOn_table pins i w).symm.trans he) nofun
  exact RecipeSet.dense_iff.mpr ⟨fun w e he => (hnone w e he).elim, fun v _ d _ hd => (hnone v d hd).elim,
    fun v _ d _ hd => (hnone v d hd).elim, fun w e he => (hnone w e he).elim⟩

theorem powerOn_enginesHeld (pins : PowerOnPins) : (powerOn pins).EnginesHeld where
  free e := by rw [powerOn_engine]; exact iff_of_true rfl rfl
  group e := by rw [powerOn_engine]; rfl
  k e := by rw [powerOn_engine]; rfl
  once st h := absurd h.1 nofun

/-- Power-on has all the properties. -/
theorem Keeps.powerOn (s : State) (pins : PowerOnPins) (q : List Instr) : s.Keeps { State.powerOn pins with pending := q } :=
  Keeps.trans (t := State.powerOn pins)
    ⟨fun _ => powerOn_bounded pins, fun _ => powerOn_numbered pins, fun _ => powerOn_remarksKept pins,
      fun _ => powerOn_valvesFollowPhase pins, fun _ => powerOn_ranksDense pins, fun _ => powerOn_enginesHeld pins⟩ {}

/-- An entry after the restart: its lock count 0 (R26, R51). -/
theorem restart_table (s : State) (i : Fin 8) (w : Fin 4) :
    s.restart.table[i][w] = (s.table[i][w]).map fun e => { e with lock := 0 } := by
  simp only [restart, Fin.getElem_fin, Vector.getElem_map]

/-- A discarded test's count stays in its range. -/
theorem countDiscarded_fits (c : StationCtx) {k : StationCounters} (hk : k.fits) : (countDiscarded c k).fits := by
  unfold countDiscarded
  split
  · obtain ⟨h₁, h₂, h₃, h₄, -, hrest⟩ := hk
    exact ⟨h₁, h₂, h₃, h₄, satAdd_le .., hrest⟩
  · exact hk

theorem restart_bounded {s : State} (h : s.Bounded) : s.restart.Bounded where
  live := by
    refine ⟨fun st => ?_, h.live.2⟩
    simp only [restart, Fin.getElem_fin, Vector.getElem_zipWith]
    exact countDiscarded_fits _ (h.live.1 st)
  snapshot := h.snapshot
  recipes i w e he := by
    rw [restart_table] at he
    obtain ⟨e₀, he₀, rfl⟩ := Option.map_eq_some_iff.mp he
    exact h.recipes i w e₀ he₀
  notices := Nat.zero_le _
  records := h.records
  config := h.config
  limits := h.limits

theorem restart_remarksKept {s : State} (h : s.RemarksKept) : s.restart.RemarksKept where
  inProgress st r hr := by
    rw [restart_ctx] at hr
    exact absurd hr nofun
  stored := h.stored

theorem restart_valvesFollowPhase (s : State) : s.restart.ValvesFollowPhase := by
  intro st
  have hrest : s.restart.circuit st = .rest := Vector.getElem_replicate _
  rw [hrest]
  exact ⟨rfl, rfl⟩

theorem restart_ranksDense {s : State} (h : s.RanksDense) : s.restart.RanksDense := by
  refine h.congr fun i => ?_
  have hentries : RecipeSet.entries s.restart.table[i] =
      (RecipeSet.entries s.table[i]).map fun e => { e with lock := 0 } := by
    simp only [RecipeSet.entries, restart_table, List.map_filterMap]
  rw [hentries, List.map_map]
  rfl

theorem restart_enginesHeld (s : State) : s.restart.EnginesHeld where
  free e := by cases e <;> exact iff_of_true rfl rfl
  group e := by cases e <;> rfl
  k e := by cases e <;> rfl
  once st h := absurd h.1 nofun

theorem Keeps.restart {s u : State} (h : s.Keeps u) : s.Keeps u.restart :=
  h.trans ⟨restart_bounded, fun hn => ⟨hn.issued, hn.rising, hn.next⟩, restart_remarksKept,
    fun _ => restart_valvesFollowPhase u, restart_ranksDense, fun _ => restart_enginesHeld u⟩

theorem Keeps.transmitEnd {s u : State} (h : s.Keeps u) : s.Keeps u.transmitEnd := by
  have hchoose : ∀ l : Link, l.queue = u.link.queue → l.choose.queue.length ≤ max u.link.queue.length 16 := fun l hl =>
    le_max_of_le_left (hl ▸ l.choose_queue_length)
  unfold State.transmitEnd
  split
  · exact h
  · split
    · exact h.restart
    · exact h.modLink (hchoose _ rfl)
  · exact h.modLink (hchoose _ rfl)

end State

/-! ### Events and requests -/

/-- An event keeps what its effect keeps. -/
theorem keeps_of_event {f : State → State} {s t : State} (h : event f s = .next t) (hf : s.Keeps (f s)) : s.Keeps t := by
  obtain rfl := Host.Outcome.next.inj h
  exact hf.afterNotices s

/-- An event taken when it is due keeps what its effect keeps. -/
theorem keeps_of_eventWhen {due : State → Bool} {f : State → State} {s t : State} (h : eventWhen due f s = .next t)
    (hf : due s = true → s.Keeps (f s)) : s.Keeps t := by
  cases hdue : due s with
  | true => exact keeps_of_event ((if_pos hdue).symm.trans h) (hf hdue)
  | false =>
    obtain rfl := Host.Outcome.next.inj ((eventWhen_absent due f s hdue).symm.trans h)
    exact .refl s

/-- A request keeps what its rule keeps. -/
theorem keeps_of_request {kind tag : Byte} {serve : State → State × List Byte} {s t : State}
    (h : request kind tag serve s = .next t) (hserve : ∀ v, s.Keeps v → s.Keeps (serve v).1) : s.Keeps t := by
  obtain rfl := Host.Outcome.next.inj h
  exact (State.Keeps.refl s).goodFrame kind tag hserve

/-- A length check ahead of a rule keeps what the rule keeps. -/
theorem keeps_of_checked {s : State} {c : Prop} [Decidable c] {x y : State × List Byte} (hx : s.Keeps x.1) (hy : s.Keeps y.1) :
    s.Keeps (if c then x else y).1 := by
  split
  · exact hx
  · exact hy

/-- A request's rule behind its length check keeps the properties. -/
theorem State.Keeps.serveChecked {s v : State} (h : s.Keeps v) (c : Instr) : s.Keeps (Machine.serveChecked c v).1 := by
  unfold Machine.serveChecked
  split
  · exact keeps_of_checked (h.serveStt _) h
  · exact keeps_of_checked (h.serveLdr _) h
  · exact h.serveCommand c

/-- Every command keeps the properties. -/
theorem exec_keeps {c : Instr} {s t : State} (h : exec c s = .next t) : s.Keeps t := by
  have hs := State.Keeps.refl s
  by_cases hrequest : ∃ x, requestParts c = some x
  · obtain ⟨⟨kind, tag, p⟩, hparts⟩ := hrequest
    exact keeps_of_request ((exec_of_requestParts hparts s).symm.trans h) fun _ hv => hv.serveChecked c
  cases c with
  | powerOnReset pins => exact Host.Outcome.next.inj h ▸ .powerOn s pins s.pending
  | restart => exact keeps_of_eventWhen ((exec_restart s).symm.trans h) fun _ => hs.restart
  | emergencyStop order =>
    exact keeps_of_eventWhen ((exec_emergencyStop s order).symm.trans h) fun _ =>
      State.Keeps.foldl (fun _ st hv => hv.estopStation st) (hs.trans {}) _
  | emergencyStopRelease => exact Host.Outcome.next.inj h ▸ {}
  | driveFault st active =>
    exact keeps_of_event ((exec_driveFault s st active).symm.trans h) (hs.driveFaultInput st active)
  | monitorSample x => exact keeps_of_event ((exec_monitorSample s x).symm.trans h) (hs.sample x)
  | quantityLost x => exact keeps_of_eventWhen ((exec_quantityLost s x).symm.trans h) fun _ => hs.sample x
  | checkAveraged x => exact keeps_of_eventWhen ((exec_checkAveraged s x).symm.trans h) fun _ => hs.sample x
  | measureEnd x => exact keeps_of_eventWhen ((exec_measureEnd s x).symm.trans h) fun _ => hs.sample x
  | standstillConfirmed st b =>
    exact keeps_of_eventWhen ((exec_standstillConfirmed s st b).symm.trans h) fun _ => hs.sample _
  | driveUpdate st => exact Host.Outcome.next.inj h ▸ hs.modDrive st _
  | encoderIndex st us r => exact keeps_of_event ((exec_encoderIndex s st us r).symm.trans h) (hs.index st us r)
  | kReached st us r =>
    exact keeps_of_eventWhen ((exec_kReached s st us r).symm.trans h) fun _ => hs.index st us r
  | groupUnsteady st us r =>
    exact keeps_of_eventWhen ((exec_groupUnsteady s st us r).symm.trans h) fun _ => hs.index st us r
  | engineCompletion e => exact keeps_of_eventWhen ((exec_engineCompletion s e).symm.trans h) fun _ => hs.completion e
  | engineGrant e => exact keeps_of_event ((exec_engineGrant s e).symm.trans h) (hs.passEngine e)
  | deferredClaim st => exact keeps_of_eventWhen ((exec_deferredClaim s st).symm.trans h) fun _ => hs.deferredClaim st
  | engineWaitExpiry st =>
    exact keeps_of_eventWhen ((exec_engineWaitExpiry s st).symm.trans h) fun _ => hs.engineWaitExpiry st
  | rampTimeout st => exact keeps_of_eventWhen ((exec_rampTimeout s st).symm.trans h) fun _ => hs.failStep st _
  | dwellDurationExpiry st =>
    exact keeps_of_eventWhen ((exec_dwellDurationExpiry s st).symm.trans h) fun _ => hs.dwellExpiry st
  | extendTimeout st => exact keeps_of_eventWhen ((exec_extendTimeout s st).symm.trans h) fun _ => hs.extendTimeout st
  | gateTimeout st => exact keeps_of_eventWhen ((exec_gateTimeout s st).symm.trans h) fun _ => hs.gateTimeout st
  | stopTimeout st => exact keeps_of_eventWhen ((exec_stopTimeout s st).symm.trans h) fun _ => hs.stopTimeout st
  | standstillTimerExpiry st =>
    exact keeps_of_eventWhen ((exec_standstillTimerExpiry s st).symm.trans h) fun _ => hs.standstillExpiry st
  | fillTimerExpiry st =>
    exact keeps_of_eventWhen ((exec_fillTimerExpiry s st).symm.trans h) fun _ => hs.fillExpiry st
  | settleTimerExpiry st =>
    exact keeps_of_eventWhen ((exec_settleTimerExpiry s st).symm.trans h) fun _ => hs.settleExpiry st
  | ventTimerExpiry st =>
    exact keeps_of_eventWhen ((exec_ventTimerExpiry s st).symm.trans h) fun _ => hs.returnLeak st
  | supplyGrant => exact keeps_of_event ((exec_supplyGrant s).symm.trans h) hs.examineSupply
  | deposit =>
    exact keeps_of_eventWhen ((exec_deposit s).symm.trans h) fun hroom =>
      State.Keeps.depositHead (kept := s.store.records) (List.suffix_refl _) (.inl (of_decide_eq_true hroom))
  | autoSnapshotExpiry => exact keeps_of_eventWhen ((exec_autoSnapshotExpiry s).symm.trans h) fun _ => hs.snapshot _
  | gapTimerExpiry => exact keeps_of_eventWhen ((exec_gapTimerExpiry s).symm.trans h) fun _ => hs.hunt
  | lengthOutOfRange b => exact keeps_of_eventWhen ((exec_lengthOutOfRange s b).symm.trans h) fun _ => hs.receive b
  | crcMismatch b => exact keeps_of_eventWhen ((exec_crcMismatch s b).symm.trans h) fun _ => hs.receive b
  | frameDiscardedBusy b => exact keeps_of_eventWhen ((exec_frameDiscardedBusy s b).symm.trans h) fun _ => hs.receive b
  | unknownKind b => exact keeps_of_eventWhen ((exec_unknownKind s b).symm.trans h) fun _ => hs.receive b
  | transmitEnd => exact Host.Outcome.next.inj h ▸ hs.transmitEnd
  | transmitStart => exact Host.Outcome.next.inj h ▸ hs.choose
  | byteArrival b => exact Host.Outcome.next.inj h ▸ hs.receive b
  | encoderLine st forward r =>
    exact keeps_of_event ((exec_encoderLine s st forward r).symm.trans h) (hs.encoderLine st forward r)
  | _ => exact absurd ⟨_, rfl⟩ hrequest

/-- Every step is a command's effect, or the tick (R2). -/
theorem step_cases {s t : State} (h : step s = .next t) :
    (∃ c q, exec c (s.withPending q) = .next t) ∨ t = s.tick := by
  unfold step at h
  split at h
  · exact .inl ⟨_, _, h⟩
  · split at h
    · exact .inl ⟨_, s.pending, h⟩
    · exact .inr (Host.Outcome.next.inj h).symm

/-- Every step keeps the properties. -/
theorem step_keeps {s t : State} (h : step s = .next t) : s.Keeps t := by
  rcases step_cases h with ⟨c, q, hexec⟩ | rfl
  · exact State.Keeps.trans (t := s.withPending q) {} (exec_keeps hexec)
  · exact {}

/-- Settles O53. -/
theorem everyStepKeepsBounds : Obligations.EveryStepKeepsBounds := fun _ _ hs h => (step_keeps h).bounded hs

/-- Settles O54. -/
theorem everyStepKeepsStoreNumbered : Obligations.EveryStepKeepsStoreNumbered := fun _ _ hs h => (step_keeps h).numbered hs

/-- Settles O55. -/
theorem everyStepKeepsRemarksDistinct : Obligations.EveryStepKeepsRemarksDistinct := fun _ _ hs h =>
  (step_keeps h).remarks hs

/-- Settles O56. -/
theorem everyStepKeepsValvesInPhase : Obligations.EveryStepKeepsValvesInPhase := fun _ _ hs h => (step_keeps h).valves hs

/-- Settles O57. -/
theorem everyStepKeepsAgeRanksDense : Obligations.EveryStepKeepsAgeRanksDense := fun _ _ hs h => (step_keeps h).ranks hs

/-- Settles O60. -/
theorem everyStepKeepsEnginesHeld : Obligations.EveryStepKeepsEnginesHeld := fun _ _ hs h => (step_keeps h).engines hs

end Sys2Proof.Machine
end

section
/-! PROOFS. Where the stations' states have them, and what they lock (R40, R52, R122, R123, R127, R165): while an operation is
under way one station stands aside, with the reference it keeps locked; it comes back in place at the operation's end. -/

namespace Sys2Proof.Machine

open Sys2Proof

set_option Elab.async false

namespace State

/-- The lock count at a set and way; 0 without an entry. -/
def lockAt (s : State) (i : Fin 8) (w : Fin 4) : Nat := ((s.table[i][w]).map Entry.lock).getD 0

/-- The recipe reference of a station whose test is not yet deposited. -/
def owned (s : State) (st : Station) : Option RecipeRef :=
  if (s.stateOf st).testing then (s.ctx st).test.map TestCtx.ref else none

/-- The number of stations but `out` that own a reference to an entry. -/
def owners (s : State) (out : Option Station) (i : Fin 8) (w : Fin 4) : Nat :=
  (allStations.filter (fun j => some j ≠ out ∧ s.owned j = some (.table i w))).length

/-- Every lock count is the number of owners (R40). -/
theorem locksCounted_iff (s : State) : s.LocksCounted ↔ ∀ i w, s.lockAt i w = s.owners none i w := by
  have howned : ∀ i w, (allStations.filter (fun st => (s.stateOf st).testing
      && (s.ctx st).test.any (fun c => c.ref == .table i w))).length = s.owners none i w := by
    intro i w
    refine congrArg List.length (List.filter_congr fun st _ => ?_)
    simp only [owned, ne_eq, reduceCtorEq, not_false_eq_true, true_and]
    cases (s.stateOf st).testing <;> cases (s.ctx st).test <;> simp; rfl
  exact forall_congr' fun i => forall_congr' fun w => by rw [howned]; rfl

/-- Every station is in place; and where `L` is asked, every lock count is the number of owners. -/
structure InPlace (L : Prop) (s : State) : Prop where
  placed : s.StationsInPlace
  locks : L → s.LocksCounted

/-- Station `x` stands aside, its reference `own` still locked: what the others' states, the supply and the deposit queue
have of every other station agrees, and no deposit of `x` waits. -/
structure Aside (L : Prop) (x : Station) (own : Option RecipeRef) (s : State) : Prop where
  step : ∀ j, j ≠ x → (s.ctx j).step ≠ none → s.stateOf j = .running
  leak : ∀ j, j ≠ x → (s.circuit j).phase ≠ .none →
    (s.stateOf j = .running ∧ ∃ y, (s.ctx j).step = some y ∧ y.spec = .leak ∧ y.phase = .leak)
    ∨ (s.stateOf j = .stopping ∧ (s.circuit j).phase = .vent)
  grant : ∀ j, j ≠ x → (s.leak.grant = some j ↔ (s.circuit j).phase = .fill)
  supply : ∀ j, j ≠ x → (j ∈ s.leak.queue ↔ (s.circuit j).phase = .waitSupply)
  supplyOnce : s.leak.queue.Nodup
  deposit : ∀ j ∈ s.store.deposit, j ≠ x ∧ s.stateOf j = .completing
  depositOnce : s.store.deposit.Nodup
  locks : L → ∀ i w, s.lockAt i w = s.owners (some x) i w + if own = some (.table i w) then 1 else 0

/-- The supply has of station `x` what its phase says (R123, R127). -/
structure SupplyFits (s : State) (x : Station) : Prop where
  grant : s.leak.grant = some x ↔ (s.circuit x).phase = .fill
  queue : x ∈ s.leak.queue ↔ (s.circuit x).phase = .waitSupply

/-- The supply has nothing of station `x`, which is in no leak phase. -/
structure SupplyFree (s : State) (x : Station) : Prop where
  phase : (s.circuit x).phase = .none
  grant : s.leak.grant ≠ some x
  queue : x ∉ s.leak.queue

theorem SupplyFree.fits {s : State} {x : Station} (h : s.SupplyFree x) : s.SupplyFits x :=
  ⟨iff_of_false h.grant (by rw [h.phase]; nofun), iff_of_false h.queue (by rw [h.phase]; nofun)⟩

theorem SupplyFits.free {s : State} {x : Station} (h : s.SupplyFits x) (hphase : (s.circuit x).phase = .none) :
    s.SupplyFree x :=
  ⟨hphase, fun hg => absurd (hphase.symm.trans (h.grant.mp hg)) nofun,
    fun hq => absurd (hphase.symm.trans (h.queue.mp hq)) nofun⟩

theorem StationsInPlace.supplyFits {s : State} (h : s.StationsInPlace) (x : Station) : s.SupplyFits x := ⟨h.grant x, h.supply x⟩

variable {L : Prop} {s t : State} {x : Station} {own : Option RecipeRef}

/-! ### Standing aside and back -/

theorem allStations_perm (x : Station) : allStations.Perm (x :: allStations.filter (· ≠ x)) := by
  have hnodup : allStations.Nodup := by decide
  have hmem : x ∈ allStations := by revert x; decide
  have herase := List.perm_cons_erase hmem
  rw [hnodup.erase_eq_filter] at herase
  exact herase.trans (.of_eq (congrArg (x :: ·) (List.filter_congr fun _ _ => by simp only [ne_eq, decide_not]; rfl)))

/-- The owners of an entry are the other ones and a station that owns it. -/
theorem owners_none (s : State) (x : Station) (i : Fin 8) (w : Fin 4) :
    s.owners none i w = s.owners (some x) i w + if s.owned x = some (.table i w) then 1 else 0 := by
  have hperm := ((allStations_perm x).filter (fun j => s.owned j = some (.table i w))).length_eq
  simp only [List.filter_cons, List.filter_filter] at hperm
  unfold owners
  simp only [ne_eq, reduceCtorEq, not_false_eq_true, true_and, Option.some.injEq, hperm]
  split
  · rename_i h
    have h' : s.owned x = some (.table i w) := by simpa using h
    simp [h', Bool.and_comm]
  · rename_i h
    have h' : s.owned x ≠ some (.table i w) := by simpa using h
    simp [h', Bool.and_comm]

/-- A station in place that is not COMPLETING stands aside. -/
theorem InPlace.aside (h : s.InPlace L) (x : Station) (hx : s.stateOf x ≠ .completing) : s.Aside L x (s.owned x) where
  step j _ := h.placed.step j
  leak j _ := h.placed.leak j
  grant j _ := h.placed.grant j
  supply j _ := h.placed.supply j
  supplyOnce := h.placed.supplyOnce
  deposit j hj := ⟨fun hjx => hx (hjx ▸ h.placed.deposit j hj), h.placed.deposit j hj⟩
  depositOnce := h.placed.depositOnce
  locks hL i w := (s.locksCounted_iff.mp (h.locks hL) i w).trans (s.owners_none x i w)

/-- A station aside comes back in place. -/
theorem Aside.back (h : s.Aside L x own) (hsupply : s.SupplyFits x) (hstep : (s.ctx x).step ≠ none → s.stateOf x = .running)
    (hleak : (s.circuit x).phase ≠ .none →
      (s.stateOf x = .running ∧ ∃ y, (s.ctx x).step = some y ∧ y.spec = .leak ∧ y.phase = .leak)
      ∨ (s.stateOf x = .stopping ∧ (s.circuit x).phase = .vent))
    (hown : s.owned x = own) : s.InPlace L where
  placed := by
    refine ⟨fun j => ?_, fun j => ?_, fun j => ?_, fun j => ?_, h.supplyOnce, fun j hj => (h.deposit j hj).2, h.depositOnce⟩
    all_goals by_cases hj : j = x
    · subst hj; exact hstep
    · exact h.step j hj
    · subst hj; exact hleak
    · exact h.leak j hj
    · subst hj; exact hsupply.grant
    · exact h.grant j hj
    · subst hj; exact hsupply.queue
    · exact h.supply j hj
  locks hL := s.locksCounted_iff.mpr fun i w => by rw [h.locks hL i w, s.owners_none x i w, hown]

/-- A station aside that has no leak phase comes back in place. -/
theorem Aside.back_free (h : s.Aside L x own) (hsupply : s.SupplyFree x)
    (hstep : (s.ctx x).step ≠ none → s.stateOf x = .running) (hown : s.owned x = own) : s.InPlace L :=
  h.back hsupply.fits hstep (fun hp => absurd hsupply.phase hp) hown

/-- What a station owns is its context's. -/
theorem owned_congr (h : t.seq[x.val] = s.seq[x.val]) : t.owned x = s.owned x := by
  unfold owned
  simp only [stateOf, ctx, Fin.getElem_fin, h]

/-- A change of the station aside alone leaves the others' states; its lock may change with its reference. -/
theorem Aside.of_locks {own' : Option RecipeRef} (h : s.Aside L x own)
    (hseq : ∀ j : Station, x ≠ j → t.seq[j.val] = s.seq[j.val])
    (hphase : ∀ j : Station, x ≠ j → (t.leak.circuits[j.val]).phase = (s.leak.circuits[j.val]).phase)
    (hgrant : ∀ j : Station, x ≠ j → (t.leak.grant = some j ↔ s.leak.grant = some j))
    (hqueue : ∀ j : Station, x ≠ j → (j ∈ t.leak.queue ↔ j ∈ s.leak.queue)) (honce : t.leak.queue.Nodup)
    (hdeposit : t.store.deposit = s.store.deposit)
    (hlocks : L → ∀ i w, t.lockAt i w + (if own = some (.table i w) then 1 else 0)
      = s.lockAt i w + if own' = some (.table i w) then 1 else 0) : t.Aside L x own' where
  step j hj := by
    have := h.step j hj
    simp only [ctx, stateOf, Fin.getElem_fin] at this ⊢
    rwa [hseq j (Ne.symm hj)]
  leak j hj := by
    have := h.leak j hj
    simp only [ctx, stateOf, circuit, Fin.getElem_fin] at this ⊢
    rwa [hseq j (Ne.symm hj), hphase j (Ne.symm hj)]
  grant j hj := by
    have := h.grant j hj
    simp only [circuit, Fin.getElem_fin] at this ⊢
    rw [hgrant j (Ne.symm hj), hphase j (Ne.symm hj), this]
  supply j hj := by
    have := h.supply j hj
    simp only [circuit, Fin.getElem_fin] at this ⊢
    rw [hqueue j (Ne.symm hj), hphase j (Ne.symm hj), this]
  supplyOnce := honce
  deposit j hj := by
    obtain ⟨hjx, hstate⟩ := h.deposit j (hdeposit ▸ hj)
    refine ⟨hjx, ?_⟩
    simp only [stateOf, Fin.getElem_fin] at hstate ⊢
    rwa [hseq j (Ne.symm hjx)]
  depositOnce := hdeposit ▸ h.depositOnce
  locks hL i w := by
    have howners : t.owners (some x) i w = s.owners (some x) i w := by
      refine congrArg List.length (List.filter_congr fun j _ => ?_)
      by_cases hj : j = x
      · simp [hj]
      · rw [owned_congr (hseq j (Ne.symm hj))]
    have hold := h.locks hL i w
    have hnew := hlocks hL i w
    rw [howners]
    omega

/-- A change of the station aside alone that leaves every lock. -/
theorem Aside.of_others (h : s.Aside L x own) (hseq : ∀ j : Station, x ≠ j → t.seq[j.val] = s.seq[j.val])
    (hphase : ∀ j : Station, x ≠ j → (t.leak.circuits[j.val]).phase = (s.leak.circuits[j.val]).phase)
    (hgrant : ∀ j : Station, x ≠ j → (t.leak.grant = some j ↔ s.leak.grant = some j))
    (hqueue : ∀ j : Station, x ≠ j → (j ∈ t.leak.queue ↔ j ∈ s.leak.queue)) (honce : t.leak.queue.Nodup)
    (hdeposit : t.store.deposit = s.store.deposit) (hlocks : ∀ i w, t.lockAt i w = s.lockAt i w) : t.Aside L x own :=
  h.of_locks hseq hphase hgrant hqueue honce hdeposit fun _ i w => by rw [hlocks]

/-- A change of the station aside that leaves leak circuits, supply, store and table. -/
theorem Aside.frame (h : s.Aside L x own)
    (hseq : ∀ j : Station, x ≠ j → t.seq[j.val] = s.seq[j.val] := by exact fun j hj => by simp [hj])
    (hleak : t.leak = s.leak := by simp) (hstore : t.store = s.store := by simp) (htable : t.table = s.table := by simp) :
    t.Aside L x own :=
  h.of_others hseq (fun _ _ => by rw [hleak]) (fun _ _ => by rw [hleak]) (fun _ _ => by rw [hleak])
    (hleak ▸ h.supplyOnce) (by rw [hstore]) fun i w => by simp only [lockAt, htable]

/-- A change that leaves of each station its state, its step's kind and phase and its recipe reference, and of the leak
circuits their phases. -/
theorem InPlace.of_views (h : s.InPlace L) (hstate : ∀ j, t.stateOf j = s.stateOf j)
    (hstep : ∀ j, (t.ctx j).step.map (fun y => (y.spec, y.phase)) = (s.ctx j).step.map (fun y => (y.spec, y.phase)))
    (href : ∀ j, (t.ctx j).test.map TestCtx.ref = (s.ctx j).test.map TestCtx.ref)
    (hphase : ∀ j, (t.circuit j).phase = (s.circuit j).phase) (hgrant : t.leak.grant = s.leak.grant)
    (hqueue : t.leak.queue = s.leak.queue) (hdeposit : t.store.deposit = s.store.deposit)
    (hlocks : ∀ i w, t.lockAt i w = s.lockAt i w) : t.InPlace L where
  placed := by
    refine ⟨fun j hj => ?_, fun j hj => ?_, fun j => ?_, fun j => ?_, hqueue ▸ h.placed.supplyOnce, fun j hj => ?_,
      hdeposit ▸ h.placed.depositOnce⟩
    · rw [hstate]
      refine h.placed.step j fun hnone => hj ?_
      have := hstep j
      rwa [hnone, Option.map_none, Option.map_eq_none_iff] at this
    · rw [hstate, hphase]
      rw [hphase] at hj
      refine (h.placed.leak j hj).imp (fun ⟨hrun, y, hy, hspec, hyphase⟩ => ⟨hrun, ?_⟩) id
      have := hstep j
      rw [hy, Option.map_some, Option.map_eq_some_iff] at this
      obtain ⟨z, hz, hview⟩ := this
      obtain ⟨h₁, h₂⟩ := Prod.mk.injEq .. ▸ hview
      exact ⟨z, hz, h₁.trans hspec, h₂.trans hyphase⟩
    · rw [hgrant, hphase]; exact h.placed.grant j
    · rw [hqueue, hphase]; exact h.placed.supply j
    · rw [hstate]; exact h.placed.deposit j (hdeposit ▸ hj)
  locks hL := t.locksCounted_iff.mpr fun i w => by
    rw [hlocks, s.locksCounted_iff.mp (h.locks hL) i w]
    unfold owners owned
    simp only [hstate, href]

/-- A change that leaves contexts, leak circuits, supply, store and table. -/
theorem InPlace.frame (h : s.InPlace L) (hseq : t.seq = s.seq := by simp) (hleak : t.leak = s.leak := by simp)
    (hstore : t.store.deposit = s.store.deposit := by simp) (htable : t.table = s.table := by simp) : t.InPlace L := by
  refine h.of_views (fun j => ?_) (fun j => ?_) (fun j => ?_) (fun j => ?_) (by rw [hleak]) (by rw [hleak]) hstore
    fun i w => by simp only [lockAt, htable]
  all_goals simp only [stateOf, ctx, circuit, hseq, hleak]

end State
end Sys2Proof.Machine
end

section
/-! PROOFS. Where the stations' states have them: the operations of the Leak Tester and of the Station Sequencer, each on the
station that stands aside for it. -/

namespace Sys2Proof.Machine

open Sys2Proof

set_option Elab.async false

namespace State

variable {L : Prop} {s t : State} {x : Station} {own : Option RecipeRef}

/-! ### The Leak Tester (R122 to R143) -/

namespace Aside

theorem modCircuit (h : s.Aside L x own) (f : LeakCircuit → LeakCircuit) : (s.modCircuit x f).Aside L x own :=
  h.of_others (by simp) (fun j hj => by simp [hj]) (by simp) (by simp) (by simpa using h.supplyOnce) (by simp)
    fun _ _ => rfl

/-- The supply's grant and queue changed for the station aside alone. -/
theorem supplyOf (h : s.Aside L x own) {g : Option Station} {q : List Station}
    (hgrant : ∀ j : Station, x ≠ j → (g = some j ↔ s.leak.grant = some j))
    (hqueue : ∀ j : Station, x ≠ j → (j ∈ q ↔ j ∈ s.leak.queue)) (honce : q.Nodup) :
    ({ s with leak := { s.leak with grant := g, queue := q } } : State).Aside L x own :=
  h.of_others (fun _ _ => rfl) (fun _ _ => rfl) hgrant hqueue honce rfl fun _ _ => rfl

theorem examineSupply (h : s.Aside L x own) : s.examineSupply.Aside L x own := by
  unfold State.examineSupply
  split
  · rename_i k rest hq hg _
    have hcircuit : ∀ j : Station, ((((({ s with leak := { s.leak with grant := some k, queue := rest } } : State).countGlobal
        (fun c => { c with supplyGrants := satAdd c.supplyGrants 1 })).enterPhase k .fill).circuit j).phase)
          = if k = j then .fill else (s.circuit j).phase := by
      intro j
      by_cases hj : k = j
      · simp [State.enterPhase, circuit, hj, LeakCircuit.enter]
      · simp [State.enterPhase, circuit, hj]
    have hnodup := hq ▸ h.supplyOnce
    obtain ⟨hk, hrest⟩ := List.nodup_cons.mp hnodup
    refine ⟨h.step, fun j hj hp => ?_, fun j hj => ?_, fun j hj => ?_, hrest, h.deposit, h.depositOnce, h.locks⟩
    · rw [hcircuit] at hp ⊢
      split
      · rename_i hkj
        subst hkj
        have hwait := (h.supply k hj).mp (by simp [hq])
        rcases h.leak k hj (by rw [hwait]; nofun) with hrun | ⟨-, hvent⟩
        · exact .inl hrun
        · exact absurd (hvent.symm.trans hwait) nofun
      · rename_i hkj
        exact h.leak j hj (by simpa [hkj] using hp)
    · rw [hcircuit]
      have hnone : (s.circuit j).phase ≠ .fill := fun hf => by simpa [hg] using (h.grant j hj).mpr hf
      show some k = some j ↔ _
      split
      · rename_i hkj; simp [hkj]
      · rename_i hkj; exact iff_of_false (fun he => hkj (Option.some.inj he)) hnone
    · rw [hcircuit]
      show j ∈ rest ↔ _
      have hold := h.supply j hj
      rw [hq, List.mem_cons] at hold
      split
      · rename_i hkj; subst hkj; exact iff_of_false hk nofun
      · rename_i hkj; rw [← hold]; simp [Ne.symm hkj]
  · exact h

theorem releaseGrant (h : s.Aside L x own) : (s.releaseGrant x).Aside L x own := by
  unfold State.releaseGrant
  split
  · rename_i hg
    exact (h.supplyOf (g := none) (q := s.leak.queue) (fun j hj => by simp [hg, hj]) (fun _ _ => Iff.rfl)
      h.supplyOnce).examineSupply
  · exact h

theorem leaveSupplyQueue (h : s.Aside L x own) : (s.leaveSupplyQueue x).Aside L x own := by
  unfold State.leaveSupplyQueue
  split
  · exact (h.supplyOf (g := s.leak.grant) (fun _ _ => Iff.rfl) (fun j hj => by simp [Ne.symm hj])
      (h.supplyOnce.filter _)).examineSupply
  · exact h

theorem decideLeak (h : s.Aside L x own) (r : LeakResult) : (s.decideLeak x r).Aside L x own := by
  have hdecided := (h.modCircuit (fun c => { c with result := some r })).frame (t :=
    (s.modCircuit x (fun c => { c with result := some r })).addLeakResult x r)
  unfold State.decideLeak
  simp only
  split
  case h_1 | h_2 => exact hdecided.frame
  all_goals exact hdecided

theorem enterPhase (h : s.Aside L x own) (p : LeakPhase) : (s.enterPhase x p).Aside L x own := h.modCircuit _

theorem leakRest (h : s.Aside L x own) : (s.leakRest x).Aside L x own := h.modCircuit _

theorem ventAfter (h : s.Aside L x own) : (s.ventAfter x).Aside L x own := (h.enterPhase .vent).releaseGrant

theorem leakExit (h : s.Aside L x own) : (s.leakExit x).Aside L x own := by
  unfold State.leakExit
  simp only
  split
  case h_1 | h_2 => exact h
  case h_3 => exact (h.decideLeak _).leakRest
  case h_4 => exact (h.decideLeak _).leakRest.leaveSupplyQueue
  all_goals exact (h.decideLeak _).ventAfter

theorem leakClose (h : s.Aside L x own) : (s.leakClose x).Aside L x own := by
  unfold State.leakClose
  split
  case h_1 => exact h
  case h_2 => exact h.leakRest
  all_goals exact (h.decideLeak _).leakRest.releaseGrant.leaveSupplyQueue

end Aside

/-- A circuit at rest whose station gives up grant and queue has nothing of the supply. -/
theorem SupplyFits.giveUp (h : s.SupplyFits x) (hgrant : t.leak.grant = s.leak.grant) (hqueue : t.leak.queue = s.leak.queue) :
    (((t.leakRest x).releaseGrant x).leaveSupplyQueue x).SupplyFree x := by
  have hreleased : ((t.leakRest x).releaseGrant x).leak.grant ≠ some x ∧
      ((t.leakRest x).releaseGrant x).leak.circuits[x.val] = .rest := by
    unfold State.releaseGrant
    split
    · rename_i hg
      have hout : x ∉ t.leak.queue := fun hq => by
        rw [hqueue, h.queue] at hq
        have hfill := h.grant.mp (hgrant ▸ hg)
        exact absurd (hfill.symm.trans hq) nofun
      obtain ⟨-, hnone, hcircuit⟩ := examineSupply_other
        { t.leakRest x with leak := { (t.leakRest x).leak with grant := none } } x (by simpa using hout)
      exact ⟨hnone nofun, by rw [hcircuit]; simp [State.leakRest]⟩
    · rename_i hg
      exact ⟨hg, by simp [State.leakRest]⟩
  obtain ⟨hnone, hout, hcircuit⟩ := leaveSupplyQueue_givenUp _ _ hreleased.1
  exact ⟨by simp only [circuit, Fin.getElem_fin, hcircuit, hreleased.2]; rfl, hnone, hout⟩

/-- The circuit closed, the supply has nothing of the station (R141, R143). -/
theorem SupplyFits.leakClose (h : s.SupplyFits x) : (s.leakClose x).SupplyFree x := by
  unfold State.leakClose
  split
  · rename_i hphase; exact h.free hphase
  · rename_i hphase
    refine ⟨by simp [State.leakRest, LeakCircuit.rest], fun hg => ?_, fun hq => ?_⟩
    · exact absurd (hphase.symm.trans (h.grant.mp (by simpa using hg))) nofun
    · exact absurd (hphase.symm.trans (h.queue.mp (by simpa using hq))) nofun
  all_goals exact h.giveUp (by simp) (by simp)

/-! ### The Noise Analyser and the record: nothing of the others' -/

namespace Aside

theorem leaveRunning (h : s.Aside L x own) : (s.leaveRunning x).Aside L x own := h.frame

theorem finishStep (h : s.Aside L x own) (o : StepOutcome) (c : Option StepCause) : (s.finishStep x o c).Aside L x own :=
  h.frame

/-! ### Deposit (R13, R167) -/

end Aside

/-- The entries after a change of one of them. -/
theorem modEntry_entry (s : State) (i j : Fin 8) (w v : Fin 4) (f : Entry → Entry) :
    (s.modEntry i w f).table[j][v] = if i = j ∧ w = v then (s.table[j][v]).map f else s.table[j][v] := by
  simp only [modEntry_table, Fin.getElem_fin, Vector.getElem_set, Fin.val_inj]
  by_cases hj : i = j
  · subst hj
    by_cases hw : w = v
    · subst hw; simp
    · simp [hw, Fin.val_inj]
  · simp [hj]

/-- A TABLE entry's lock goes down by one when the recipe reference is settled (R13). -/
theorem settleRecipe_lockAt (s : State) (st : Station) (ref : RecipeRef) (v : Verdict) (i : Fin 8) (w : Fin 4) :
    (s.settleRecipe st ref v).lockAt i w = s.lockAt i w - if ref = .table i w then 1 else 0 := by
  unfold settleRecipe lockAt
  split
  · rename_i j u
    rw [modEntry_entry]
    by_cases h : j = i ∧ u = w
    · obtain ⟨rfl, rfl⟩ := h
      simp only [and_self, if_true]
      cases (s.table[j][u]) <;> rfl
    · rw [if_neg h, if_neg (fun he => h (by simpa using he))]; rfl
  · rfl

namespace Aside

/-- A deposit puts the station aside in DONE, and gives up its lock; without a record it waits in COMPLETING. -/
theorem depositStation (h : s.Aside L x own) (hfree : s.SupplyFree x) (hstate : s.stateOf x = .completing)
    (hstep : (s.ctx x).step = none) (hown : own = (s.ctx x).test.map TestCtx.ref) : (s.depositStation x).InPlace L := by
  have hstay : s.InPlace L := h.back_free hfree (fun hs => absurd hstep hs) (by simp [owned, hstate, hown, StationState.testing])
  unfold State.depositStation
  split
  · rename_i n r t hn hr ht
    obtain rfl : own = some t.ref := by rw [hown, ht]; rfl
    simp only
    set stored : State := { s with store := { s.store with
      records := s.store.records ++ [{ r with number := some n }], next := numberAfter n } }
    set done : State := (stored.modCtx x (fun c =>
      { c with record := none, test := c.test.map (fun t => { t with number := some n }) })).setState x .done
    have hlock : L → ∀ i w, (done.settleRecipe x t.ref (r.verdict.getD .pass)).lockAt i w
        + (if some t.ref = some (.table i w) then 1 else 0) = s.lockAt i w + 0 := by
      intro hL i w
      have hcount := h.locks hL i w
      have hdone : done.lockAt i w = s.lockAt i w := rfl
      rw [settleRecipe_lockAt, hdone]
      simp only [Option.some.injEq] at hcount ⊢
      omega
    have hset : (done.settleRecipe x t.ref (r.verdict.getD .pass)).Aside L x none :=
      h.of_locks (fun j hj => by simp [done, stored, hj]) (by simp [done, stored]) (by simp [done, stored])
        (by simp [done, stored]) (by simpa [done, stored] using h.supplyOnce) (by simp [done, stored])
        (by simpa using hlock)
    refine Aside.back_free (x := x) (own := none) hset.frame ⟨?_, ?_, ?_⟩ (fun hs => absurd ?_ hs) ?_
    · simpa [done, stored] using hfree.phase
    · simpa [done, stored] using hfree.grant
    · simpa [done, stored] using hfree.queue
    · simpa [done, stored] using hstep
    · have hstate' : (done.settleRecipe x t.ref (r.verdict.getD .pass)).stateOf x = .done := by simp [stateOf, done]
      rw [owned_congr (s := done.settleRecipe x t.ref (r.verdict.getD .pass)) (by simp)]
      exact if_neg (by rw [hstate']; nofun)
  · exact hstay

end Aside

end State
end Sys2Proof.Machine
end

section
/-! PROOFS. Where the stations' states have them: the Station Sequencer's steps and states (R5 to R15, R52 to R67). -/

namespace Sys2Proof.Machine

open Sys2Proof

set_option Elab.async false

namespace State

variable {L : Prop} {s t : State} {x : Station} {own : Option RecipeRef}

/-- A station that owns its test's reference: it is in a test. -/
theorem owned_of_testing (h : (s.stateOf x).testing = true) : s.owned x = (s.ctx x).test.map TestCtx.ref := if_pos h

/-! ### Entry to COMPLETING and the offer (R12, R166) -/

namespace Aside

theorem offerRecord (h : s.Aside L x own) (hfree : s.SupplyFree x) (hstate : s.stateOf x = .completing)
    (hstep : (s.ctx x).step = none) (hown : own = (s.ctx x).test.map TestCtx.ref) : (s.offerRecord x).InPlace L := by
  unfold State.offerRecord
  split
  · exact h.depositStation hfree hstate hstep hown
  · obtain ⟨placed, locks⟩ := h.back_free hfree (fun hs => absurd hstep hs) (by rw [hown, owned_of_testing (by rw [hstate]; rfl)])
    refine ⟨⟨placed.step, placed.leak, placed.grant, placed.supply, placed.supplyOnce, fun j hj => ?_, ?_⟩, locks⟩
    · rcases List.mem_append.mp hj with hj | hj
      · exact placed.deposit j hj
      · exact (List.mem_singleton.mp hj) ▸ hstate
    · refine List.nodup_append.mpr ⟨placed.depositOnce, List.nodup_singleton x, fun a ha b hb => ?_⟩
      exact (List.mem_singleton.mp hb) ▸ (h.deposit a ha).1

theorem enterCompleting (h : s.Aside L x own) : (s.enterCompleting x).Aside L x own := by
  unfold State.enterCompleting
  exact h.leakClose.frame

theorem giveNotice (h : s.Aside L x own) (b : NoticeBody) : (s.giveNotice b).Aside L x own := h.frame

end Aside

/-- The entry to COMPLETING ends the leak phase and the step, and leaves the test. -/
theorem enterCompleting_ctx (s : State) (x : Station) : ((s.enterCompleting x).ctx x).state = .completing
    ∧ ((s.enterCompleting x).ctx x).step = none ∧ ((s.enterCompleting x).ctx x).test = (s.ctx x).test := by
  unfold enterCompleting
  exact ⟨by simp, by simp, by simp⟩

theorem SupplyFits.enterCompleting (h : s.SupplyFits x) : (s.enterCompleting x).SupplyFree x := by
  obtain ⟨hphase, hgrant, hqueue⟩ := h.leakClose
  unfold State.enterCompleting
  exact ⟨by simpa using hphase, by simpa using hgrant, by simpa using hqueue⟩

/-- A station aside enters COMPLETING, gives a notice or none, and offers its record. -/
theorem Aside.completes (h : s.Aside L x own) (hfits : s.SupplyFits x) (hown : own = (s.ctx x).test.map TestCtx.ref)
    (hseq : t.seq = (s.enterCompleting x).seq := by simp) (hleak : t.leak = (s.enterCompleting x).leak := by simp)
    (hstore : t.store = (s.enterCompleting x).store := by simp)
    (htable : t.table = (s.enterCompleting x).table := by simp) : (t.offerRecord x).InPlace L := by
  obtain ⟨hstate, hstep, htest⟩ := enterCompleting_ctx s x
  obtain ⟨hphase, hgrant, hqueue⟩ := hfits.enterCompleting
  have hctx : t.ctx x = (s.enterCompleting x).ctx x := by simp only [ctx, hseq]
  refine (h.enterCompleting.frame (fun _ _ => by rw [hseq]) hleak hstore htable).offerRecord ⟨?_, ?_, ?_⟩ ?_ ?_ ?_
  · simpa only [circuit, hleak] using hphase
  · rwa [hleak]
  · rwa [hleak]
  · exact (congrArg StationCtx.state hctx).trans hstate
  · rw [hctx, hstep]
  · rw [hctx, htest, hown]

/-! ### Leaving RUNNING (R10) -/

/-- A station aside goes to STOPPING. -/
theorem Aside.enterStopping (h : s.Aside L x own) (hfits : s.SupplyFits x) (hown : own = (s.ctx x).test.map TestCtx.ref)
    (cause : Option AbortCause) (drop : Bool) : (s.enterStopping x cause drop).InPlace L := by
  have hstops := enterStopping_entersStopping s x cause drop
  obtain ⟨hgrant, hqueue, hphase, -⟩ := hstops.supply hfits.grant.mp hfits.queue.mp
  have haside : (s.enterStopping x cause drop).Aside L x own :=
    h.leaveRunning.leakExit.frame (fun j hj => by simp [hj]) (enterStopping_leak s x cause drop)
  refine haside.back ⟨iff_of_false hgrant ?_, iff_of_false hqueue ?_⟩ (fun hs => absurd hstops.step hs) (fun hp => .inr ⟨hstops.state, ?_⟩) ?_
  · rw [hphase]; split <;> nofun
  · rw [hphase]; split <;> nofun
  · rw [hphase] at hp ⊢; split at hp <;> first | exact absurd rfl hp | rfl
  · rw [owned_of_testing (by rw [hstops.state]; rfl), hstops.test, hown]
    cases (s.ctx x).test <;> rfl

/-- What the supply has of a station is the same where leak circuits and supply are. -/
theorem SupplyFits.congr (h : s.SupplyFits x) (hleak : t.leak = s.leak) : t.SupplyFits x := by
  obtain ⟨hgrant, hqueue⟩ := h
  exact ⟨by simpa only [circuit, hleak] using hgrant, by simpa only [circuit, hleak] using hqueue⟩

theorem SupplyFree.congr (h : s.SupplyFree x) (hleak : t.leak = s.leak) : t.SupplyFree x := by
  obtain ⟨hphase, hgrant, hqueue⟩ := h
  exact ⟨by simpa only [circuit, hleak] using hphase, by rwa [hleak], by rwa [hleak]⟩

namespace Aside

theorem chainEnd (h : s.Aside L x own) (hfits : s.SupplyFits x) (hown : own = (s.ctx x).test.map TestCtx.ref) :
    (s.chainEnd x).InPlace L := by
  unfold State.chainEnd
  split
  · exact h.leaveRunning.completes (hfits.congr (by simp)) (by simpa using hown) rfl rfl rfl rfl
  · exact h.enterStopping hfits hown none false

end Aside

/-! ### Steps (R52, R53, R56, R59, R60, R67) -/

/-- A step of another kind than LEAK leaves the Leak Tester. -/
theorem beginStep_leak_of_ne (s : State) (x : Station) (i : Nat) {spec : StepSpec} (h : spec ≠ .leak) :
    (s.beginStep x i spec).leak = s.leak := by
  unfold beginStep
  simp only
  split
  case h_6 => exact absurd rfl h
  all_goals simp

namespace Aside

/-- A RUNNING station aside that is in no leak phase begins a step. -/
theorem beginStep (h : s.Aside L x own) (hfree : s.SupplyFree x) (hrun : s.stateOf x = .running)
    (hown : own = (s.ctx x).test.map TestCtx.ref) (i : Nat) (spec : StepSpec) : (s.beginStep x i spec).InPlace L := by
  have hstate : (s.beginStep x i spec).stateOf x = .running := (beginStep_ctx_state s x x i spec).trans hrun
  have howned : (s.beginStep x i spec).owned x = own := by
    rw [owned_of_testing (by rw [hstate]; rfl), hown]
    exact congrArg (Option.map TestCtx.ref) (beginStep_ctx_test s x x i spec)
  by_cases hspec : spec = .leak
  · subst hspec
    obtain ⟨y, hy, -, hkind, -, hphase⟩ := beginStep_step s x i .leak
    have hbegun := beginStep_leak s x i
    have hbegan : ((s.modCtx x (fun c =>
        { c with step := some ⟨i, .leak, firstPhase .leak, s.now, false⟩ })).beginLeak x i).Aside L x own :=
      (h.frame (t := s.modCtx x _)).modCircuit _
    refine Aside.back hbegan ⟨iff_of_false ?_ (by rw [hbegun]; nofun), iff_of_false ?_ (by rw [hbegun]; nofun)⟩
      (fun _ => hstate) (fun _ => .inl ⟨hstate, y, hy, hkind, hphase⟩) howned
    · exact hfree.grant
    · exact hfree.queue
  · have hleak := beginStep_leak_of_ne s x i hspec
    exact (h.frame (t := s.beginStep x i spec) (hleak := hleak)).back_free (hfree.congr hleak) (fun _ => hstate) howned

theorem nextStep (h : s.Aside L x own) (hfree : s.SupplyFree x) (hrun : s.stateOf x = .running)
    (hown : own = (s.ctx x).test.map TestCtx.ref) (i : Nat) : (s.nextStep x i).InPlace L := by
  unfold State.nextStep
  split
  · exact h.beginStep hfree hrun hown _ _
  · exact h.chainEnd hfree.fits hown

/-- A step that ends lets the chain go on. -/
theorem endStep (h : s.Aside L x own) (hfree : s.SupplyFree x) (hrun : s.stateOf x = .running)
    (hown : own = (s.ctx x).test.map TestCtx.ref) (o : StepOutcome) : (s.endStep x o).InPlace L := by
  unfold State.endStep
  split
  · exact h.back_free hfree (fun _ => hrun) (by rw [owned_of_testing (by rw [hrun]; rfl), hown])
  · refine (h.finishStep o none).nextStep (hfree.congr (by simp)) ?_ ?_ _
    · simpa [stateOf] using hrun
    · simpa using hown

theorem failStep (h : s.Aside L x own) (hfits : s.SupplyFits x) (hown : own = (s.ctx x).test.map TestCtx.ref)
    (c : StepCause) : (s.failStep x c).InPlace L :=
  (h.finishStep .failed (some c)).enterStopping (hfits.congr (by simp)) (by simpa using hown) none false

end Aside

namespace InPlace

/-- A station RUNNING or STOPPING stands aside with the reference of its test. -/
theorem aside_of_testing (h : s.InPlace L) (htest : (s.stateOf x).testing = true) (hx : s.stateOf x ≠ .completing) :
    s.Aside L x ((s.ctx x).test.map TestCtx.ref) :=
  owned_of_testing htest ▸ h.aside x hx

theorem aside_of_running (h : s.InPlace L) (hrun : s.stateOf x = .running) : s.Aside L x ((s.ctx x).test.map TestCtx.ref) :=
  h.aside_of_testing (by rw [hrun]; rfl) (by rw [hrun]; nofun)

theorem aside_of_stopping (h : s.InPlace L) (hstop : s.stateOf x = .stopping) :
    s.Aside L x ((s.ctx x).test.map TestCtx.ref) :=
  h.aside_of_testing (by rw [hstop]; rfl) (by rw [hstop]; nofun)

theorem supplyFits (h : s.InPlace L) (x : Station) : s.SupplyFits x := h.placed.supplyFits x

/-- A station with a step other than LEAK is in no leak phase. -/
theorem free_of_step (h : s.InPlace L) {y : StepCtx} (hy : (s.ctx x).step = some y) (hleak : ¬(y.spec = .leak ∧ y.phase = .leak)) :
    s.SupplyFree x := by
  refine (h.supplyFits x).free ?_
  by_contra hphase
  rcases h.placed.leak x hphase with ⟨-, z, hz, hspec, hphase⟩ | ⟨hstop, -⟩
  · obtain rfl : z = y := Option.some.inj (hz.symm.trans hy)
    exact hleak ⟨hspec, hphase⟩
  · exact absurd (hstop.symm.trans (h.placed.step x (by rw [hy]; nofun))) nofun

theorem enterStopping (h : s.InPlace L) (hrun : s.stateOf x = .running) (cause : Option AbortCause) (drop : Bool) :
    (s.enterStopping x cause drop).InPlace L :=
  (h.aside_of_running hrun).enterStopping (h.supplyFits x) rfl cause drop

theorem failStep (h : s.InPlace L) (hrun : s.stateOf x = .running) (c : StepCause) : (s.failStep x c).InPlace L :=
  (h.aside_of_running hrun).failStep (h.supplyFits x) rfl c

/-- A step other than LEAK ends. -/
theorem endStep (h : s.InPlace L) {y : StepCtx} (hy : (s.ctx x).step = some y) (hleak : ¬(y.spec = .leak ∧ y.phase = .leak))
    (o : StepOutcome) : (s.endStep x o).InPlace L := by
  have hrun := h.placed.step x (by rw [hy]; nofun)
  exact (h.aside_of_running hrun).endStep (h.free_of_step hy hleak) hrun rfl o

theorem endExtended (h : s.InPlace L) : (s.endExtended x).InPlace L := by
  unfold State.endExtended
  split
  · rename_i hy
    exact h.endStep hy (by simp) .done
  · exact h

theorem failedOutcome (h : s.InPlace L) : (s.failedOutcome x).InPlace L := by
  unfold State.failedOutcome
  split
  · rename_i hfail
    exact h.enterStopping hfail.1 none false
  · exact h

/-- A record's change leaves every station in place. -/
theorem modRecord (h : s.InPlace L) (f : Record → Record) : (s.modRecord x f).InPlace L := by
  refine h.of_views (fun j => ?_) (fun j => ?_) (fun j => ?_) (fun _ => rfl) rfl rfl rfl fun _ _ => rfl
  all_goals by_cases hj : x = j
  all_goals simp [stateOf, State.modRecord, hj]

theorem remark (h : s.InPlace L) (m : Remark) : (s.remark x m).InPlace L := h.modRecord _

theorem giveNotice (h : s.InPlace L) (b : NoticeBody) : (s.giveNotice b).InPlace L := h.frame

theorem alarm (h : s.InPlace L) (q : StQuantity) (k : FlagKind) : (s.alarm x q k).InPlace L := by
  unfold State.alarm
  split
  · rename_i hrun; exact h.enterStopping hrun _ _
  · exact h.remark _
  all_goals exact h

theorem warn (h : s.InPlace L) (q : StQuantity) (k : FlagKind) : (s.warn x q k).InPlace L := by
  unfold State.warn
  split
  case h_1 | h_2 => exact h.remark _
  all_goals exact h

theorem driveFaultReport (h : s.InPlace L) : (s.driveFaultReport x).InPlace L := by
  unfold State.driveFaultReport
  split
  · split
    · rename_i hrun; exact h.enterStopping hrun _ _
    · exact (h.frame (t := s.modDrive x _)).remark _
    all_goals exact h
  · exact h

/-- The emergency stop meets a station (R15). -/
theorem estopStation (h : s.InPlace L) : (s.estopStation x).InPlace L := by
  have hmeets : ∀ v : State, v.Aside L x ((s.ctx x).test.map TestCtx.ref) → v.leak = s.leak → (v.ctx x).test = (s.ctx x).test →
      (let u := (v.leakClose x).modCtx x (fun c => { c with
          test := c.test.map (fun t => { t with cause := some (t.cause.getD .estop) })
          record := c.record.map (fun r => { r with cause := some (r.cause.getD .estop) }) })
       let u := u.enterCompleting x
       (u.giveNotice (.nst x .completing ((u.ctx x).test.bind TestCtx.cause) none)).offerRecord x).InPlace L := by
    intro v hv hleak htest
    have hclosed : ((v.leakClose x).modCtx x (fun c => { c with
          test := c.test.map (fun t => { t with cause := some (t.cause.getD .estop) })
          record := c.record.map (fun r => { r with cause := some (r.cause.getD .estop) }) })).SupplyFits x :=
      (((h.supplyFits x).congr hleak).leakClose.congr (by simp)).fits
    refine (hv.leakClose.frame (t := (v.leakClose x).modCtx x _)).completes hclosed ?_
    rw [← htest]
    simp [Function.comp_def]
  unfold State.estopStation
  split
  · rename_i hrun
    rw [if_pos hrun]
    exact hmeets _ (h.aside_of_running hrun).leaveRunning (by simp) (by simp)
  · rename_i hstop
    rw [if_neg (by rw [hstop]; nofun)]
    exact hmeets _ (h.aside_of_stopping hstop) rfl rfl
  all_goals exact h

end InPlace

end State
end Sys2Proof.Machine
end

section
/-! PROOFS. Where the stations' states have them: the events of Leak Testing, of the steps, of the Monitor and of the Noise
Analyser. -/

namespace Sys2Proof.Machine

open Sys2Proof

set_option Elab.async false

namespace State

variable {L : Prop} {s t : State} {x : Station} {own : Option RecipeRef}

/-! ### Leak Testing (R122 to R145) -/

/-- The phases of a measurement under way: the fill, the settling, the measuring. -/
def LeakPhase.measuring (p : LeakPhase) : Prop := p = .fill ∨ p = .settle ∨ p = .measure

/-- A circuit enters a phase and its station gives up the grant. -/
theorem enterPhase_releaseGrant (s : State) (x : Station) (p : LeakPhase) (hout : x ∉ s.leak.queue) :
    ((s.enterPhase x p).releaseGrant x).leak.grant ≠ some x ∧ x ∉ ((s.enterPhase x p).releaseGrant x).leak.queue
      ∧ (((s.enterPhase x p).releaseGrant x).circuit x).phase = p := by
  unfold releaseGrant
  split
  · obtain ⟨hqueue, hgrant, hcircuit⟩ := examineSupply_other
      { s.enterPhase x p with leak := { (s.enterPhase x p).leak with grant := none } } x (by simpa [enterPhase] using hout)
    refine ⟨hgrant nofun, hqueue, ?_⟩
    simp only [circuit, Fin.getElem_fin, hcircuit]
    simp [enterPhase, LeakCircuit.enter]
  · rename_i hgrant
    exact ⟨hgrant, by simpa [enterPhase] using hout, by simp [enterPhase, LeakCircuit.enter, circuit]⟩

/-- A decided result leaves the phases. -/
theorem decideLeak_phase (s : State) (x : Station) (r : LeakResult) (j : Station) :
    ((s.decideLeak x r).circuit j).phase = (s.circuit j).phase := by
  have hdecided : ((s.modCircuit x (fun c => { c with result := some r })).circuit j).phase = (s.circuit j).phase := by
    by_cases hj : x = j <;> simp [circuit, hj]
  unfold decideLeak
  simp only
  split <;> exact hdecided

/-- A timer of the leak specification that has run out names its phase. -/
theorem phase_of_specTimer {s : State} {x : Station} {p : LeakPhase} {time : LeakSpec → Nat}
    (h : ((s.leakSpec x).any fun l => s.phaseExpired x p (time l)) = true) : (s.circuit x).phase = p := by
  cases hl : s.leakSpec x with
  | none => simp [hl] at h
  | some l =>
    simp only [hl, Option.any_some, phaseExpired, Bool.and_eq_true, beq_iff_eq] at h
    exact h.1

namespace InPlace

/-- A station in a leak phase but VENT runs its LEAK step. -/
theorem runs_of_phase (h : s.InPlace L) (hphase : (s.circuit x).phase ≠ .none) (hvent : (s.circuit x).phase ≠ .vent) :
    s.stateOf x = .running ∧ ∃ y, (s.ctx x).step = some y ∧ y.spec = .leak ∧ y.phase = .leak := by
  rcases h.placed.leak x hphase with hrun | ⟨-, hv⟩
  · exact hrun
  · exact absurd hv hvent

theorem examineSupply (h : s.InPlace L) : s.examineSupply.InPlace L := by
  by_cases hgranted : s.examineSupply = s
  · rwa [hgranted]
  obtain ⟨k, rest, hq, hg, hhealthy⟩ : ∃ k rest, s.leak.queue = k :: rest ∧ s.leak.grant = none ∧ s.supplyHealthy = true := by
    unfold State.examineSupply at hgranted
    split at hgranted
    · rename_i k rest hq hg hh; exact ⟨k, rest, hq, hg, hh⟩
    · exact absurd rfl hgranted
  have hwait := (h.placed.supply k).mp (by simp [hq])
  obtain ⟨hrun, y, hy, hspec, hyphase⟩ := h.runs_of_phase (x := k) (by rw [hwait]; nofun) (by rw [hwait]; nofun)
  have hk := (List.nodup_cons.mp (hq ▸ h.placed.supplyOnce)).1
  have hgrant : s.examineSupply.leak.grant = some k := by simp [State.examineSupply, hq, hg, hhealthy, State.enterPhase]
  have hqueue : s.examineSupply.leak.queue = rest := by simp [State.examineSupply, hq, hg, hhealthy, State.enterPhase]
  have hphase : (s.examineSupply.circuit k).phase = .fill := by
    simp [State.examineSupply, hq, hg, hhealthy, State.enterPhase, circuit, LeakCircuit.enter]
  have hctx : s.examineSupply.ctx k = s.ctx k := by simp [ctx]
  have hstate : s.examineSupply.stateOf k = .running := (congrArg StationCtx.state hctx).trans hrun
  refine (h.aside_of_running hrun).examineSupply.back ⟨iff_of_true hgrant hphase, ?_⟩ (fun _ => hstate)
    (fun _ => .inl ⟨hstate, y, by rw [hctx, hy], hspec, hyphase⟩) ?_
  · rw [hqueue, hphase]
    exact iff_of_false hk nofun
  · rw [owned_of_testing (by rw [hstate]; rfl), hctx]

theorem decideLeak (h : s.InPlace L) (r : LeakResult) : (s.decideLeak x r).InPlace L :=
  h.of_views (fun j => by simp [stateOf]) (fun j => by simp) (fun j => by simp) (decideLeak_phase s x r) (by simp) (by simp)
    (by simp) fun i w => by simp [lockAt]

/-- A station in FILL, SETTLE or MEASURE enters a phase of those but FILL, or VENT, and its grant is released. -/
theorem leaveFill (h : s.InPlace L) (hphase : LeakPhase.measuring (s.circuit x).phase) {p : LeakPhase}
    (hp : p ≠ .fill ∧ p ≠ .waitSupply) : ((s.enterPhase x p).releaseGrant x).InPlace L := by
  have hne : (s.circuit x).phase ≠ .none ∧ (s.circuit x).phase ≠ .vent ∧ (s.circuit x).phase ≠ .waitSupply := by
    rcases hphase with hp | hp | hp <;> rw [hp] <;> exact ⟨nofun, nofun, nofun⟩
  obtain ⟨hrun, y, hy, hspec, hyphase⟩ := h.runs_of_phase hne.1 hne.2.1
  have hout : x ∉ s.leak.queue := fun hq => hne.2.2 ((h.placed.supply x).mp hq)
  obtain ⟨hgrant, hqueue, hafter⟩ := enterPhase_releaseGrant s x p hout
  have hctx : ((s.enterPhase x p).releaseGrant x).ctx x = s.ctx x := by simp [ctx]
  have hstate : ((s.enterPhase x p).releaseGrant x).stateOf x = .running := (congrArg StationCtx.state hctx).trans hrun
  refine ((h.aside_of_running hrun).enterPhase p).releaseGrant.back
    ⟨iff_of_false hgrant (by rw [hafter]; exact hp.1), iff_of_false hqueue (by rw [hafter]; exact hp.2)⟩ (fun _ => hstate)
    (fun _ => .inl ⟨hstate, y, by rw [hctx, hy], hspec, hyphase⟩) ?_
  rw [owned_of_testing (by rw [hstate]; rfl), hctx]

theorem decideAndVent (h : s.InPlace L) (hphase : LeakPhase.measuring (s.circuit x).phase) (r : LeakResult) :
    (s.decideAndVent x r).InPlace L := by
  have hvented : ((s.decideLeak x r).ventAfter x).InPlace L :=
    (h.decideLeak r).leaveFill (by rwa [decideLeak_phase]) ⟨nofun, nofun⟩
  unfold State.decideAndVent
  simp only
  split
  · exact hvented.failedOutcome
  · exact hvented

/-- The step is returned from a phase in which the supply has nothing of the station. -/
theorem returnLeak (h : s.InPlace L) (hphase : (s.circuit x).phase = .standstillWait ∨ (s.circuit x).phase = .vent) :
    (s.returnLeak x).InPlace L := by
  have hplace := h.placed.leak x (by rcases hphase with hp | hp <;> rw [hp] <;> nofun)
  have hfree : (s.leakRest x).SupplyFree x := by
    obtain ⟨hgrant, hqueue⟩ := h.supplyFits x
    refine ⟨by simp [State.leakRest, LeakCircuit.rest], fun hg => ?_, fun hq => ?_⟩
    · have := hgrant.mp (by simpa [State.leakRest] using hg)
      rcases hphase with hp | hp <;> exact absurd (hp.symm.trans this) nofun
    · have := hqueue.mp (by simpa [State.leakRest] using hq)
      rcases hphase with hp | hp <;> exact absurd (hp.symm.trans this) nofun
  have htest : s.Aside L x ((s.ctx x).test.map TestCtx.ref) := by
    rcases hplace with ⟨hrun, -⟩ | ⟨hstop, -⟩
    · exact h.aside_of_running hrun
    · exact h.aside_of_stopping hstop
  unfold State.returnLeak
  simp only
  split
  · rename_i hrun
    exact htest.leakRest.endStep hfree hrun rfl .done
  · refine htest.leakRest.back_free hfree (h.placed.step x) (owned_of_testing ?_)
    show (s.stateOf x).testing = true
    rcases hplace with ⟨hrun, -⟩ | ⟨hstop, -⟩
    · rw [hrun]; rfl
    · rw [hstop]; rfl

theorem standstillExpiry (h : s.InPlace L) (hdue : s.standstillExpiryDue x = true) : (s.standstillExpiry x).InPlace L := by
  refine (h.decideLeak _).returnLeak (.inl ?_)
  rw [decideLeak_phase]
  simp only [standstillExpiryDue, phaseExpired, Bool.and_eq_true, beq_iff_eq] at hdue
  exact hdue.1

theorem fillExpiry (h : s.InPlace L) (hdue : s.fillExpiryDue x = true) : (s.fillExpiry x).InPlace L := by
  have hphase : (s.circuit x).phase = .fill := phase_of_specTimer hdue
  unfold State.fillExpiry
  split
  · exact h
  simp only
  split
  · exact h.decideAndVent (.inl hphase) _
  split
  · exact h.decideAndVent (.inl hphase) _
  · exact h.leaveFill (.inl hphase) ⟨nofun, nofun⟩

theorem settleExpiry (h : s.InPlace L) (hdue : s.settleExpiryDue x = true) : (s.settleExpiry x).InPlace L := by
  have hphase : (s.circuit x).phase = .settle := phase_of_specTimer hdue
  obtain ⟨hrun, y, hy, hspec, hyphase⟩ := h.runs_of_phase (x := x) (by rw [hphase]; nofun) (by rw [hphase]; nofun)
  have hafter : ((s.settleExpiry x).circuit x).phase = .measure := by simp [State.settleExpiry, circuit, LeakCircuit.enter]
  refine ((h.aside_of_running hrun).modCircuit _).back ⟨iff_of_false (fun hg => ?_) ?_, iff_of_false (fun hq => ?_) ?_⟩
    (fun _ => hrun) (fun _ => .inl ⟨hrun, y, hy, hspec, hyphase⟩) (owned_of_testing (congrArg StationState.testing hrun))
  · exact absurd (hphase.symm.trans ((h.placed.grant x).mp hg)) nofun
  · exact fun hp => absurd (hafter.symm.trans hp) nofun
  · exact absurd (hphase.symm.trans ((h.placed.supply x).mp hq)) nofun
  · exact fun hp => absurd (hafter.symm.trans hp) nofun

theorem ventExpiry (h : s.InPlace L) (hdue : s.ventExpiryDue x = true) : (s.returnLeak x).InPlace L :=
  h.returnLeak (.inr (phase_of_specTimer hdue))

/-! ### Samples of a LEAK step (R125, R131 to R134) -/

theorem standstillWaitSample (h : s.InPlace L) (hphase : (s.circuit x).phase = .standstillWait) :
    (s.standstillWaitSample x).InPlace L := by
  unfold State.standstillWaitSample
  split
  · obtain ⟨hrun, y, hy, hspec, hyphase⟩ := h.runs_of_phase (x := x) (by rw [hphase]; nofun) (by rw [hphase]; nofun)
    have hout : x ∉ s.leak.queue := fun hq => absurd (hphase.symm.trans ((h.placed.supply x).mp hq)) nofun
    have haside : ({ s.enterPhase x .waitSupply with
        leak := { (s.enterPhase x .waitSupply).leak with queue := s.leak.queue ++ [x] } } : State).Aside L x
          ((s.ctx x).test.map TestCtx.ref) :=
      ((h.aside_of_running hrun).enterPhase .waitSupply).supplyOf (g := s.leak.grant) (fun _ _ => Iff.rfl)
        (fun j hj => by simp [State.enterPhase, Ne.symm hj])
        (List.nodup_append.mpr ⟨h.placed.supplyOnce, List.nodup_singleton x, fun a ha b hb =>
          (List.mem_singleton.mp hb) ▸ ne_of_mem_of_not_mem ha hout⟩)
    have hafter : ((s.enterPhase x .waitSupply).circuit x).phase = .waitSupply := by
      simp [State.enterPhase, circuit, LeakCircuit.enter]
    refine (haside.back ⟨iff_of_false (fun hg => ?_) ?_, iff_of_true ?_ hafter⟩
      (fun _ => hrun) (fun _ => .inl ⟨hrun, y, hy, hspec, hyphase⟩)
      (owned_of_testing (congrArg StationState.testing hrun))).examineSupply
    · exact absurd (hphase.symm.trans ((h.placed.grant x).mp hg)) nofun
    · exact fun hp => absurd (hafter.symm.trans hp) nofun
    · exact List.mem_append_right _ (List.mem_singleton.mpr rfl)
  · exact h

theorem measureSample (h : s.InPlace L) (hphase : (s.circuit x).phase = .measure) (l : LeakSpec) (q : StQuantity) :
    (s.measureSample x l q).InPlace L := by
  have hphases : ∀ j, ((s.modCircuit x (fun c => takeLeakSample c l.samples q (s.quantity x q).held)).circuit j).phase
      = (s.circuit j).phase := by
    intro j
    by_cases hj : x = j
    · subst hj
      simpa [circuit] using (takeLeakSample_phase (s.circuit x) l.samples q (s.quantity x q).held).1
    · simp [circuit, hj]
  have htaken := h.of_views (t := s.modCircuit x (fun c => takeLeakSample c l.samples q (s.quantity x q).held))
    (fun _ => rfl) (fun _ => rfl) (fun _ => rfl) hphases rfl rfl rfl fun _ _ => rfl
  unfold State.measureSample
  simp only
  split
  · exact htaken.decideAndVent (.inr (.inr ((hphases x).trans hphase))) _
  · exact htaken

theorem leakSample (h : s.InPlace L) (q : StQuantity) : (s.leakSample x q).InPlace L := by
  unfold State.leakSample
  split
  · rename_i hphase; exact h.standstillWaitSample hphase
  · rename_i hphase _
    unfold State.settleSample
    split
    · exact h.decideAndVent (.inr (.inl hphase)) _
    · exact h
  · rename_i hphase _; exact h.measureSample hphase _ _
  · rename_i hphase _; exact h.measureSample hphase _ _
  · exact h

theorem leakAlarm (h : s.InPlace L) (q : StQuantity) (k : FlagKind) : (s.leakAlarm x q k).InPlace L := by
  unfold State.leakAlarm
  split
  · rename_i hlost; exact h.decideAndVent (.inr (.inr hlost.2.2)) _
  · exact h

theorem supplyFault (h : s.InPlace L) : s.supplyFault.InPlace L := by
  unfold State.supplyFault
  split
  · split
    · rename_i hfill; exact h.decideAndVent (.inl hfill) _
    · exact h
  · exact h

end InPlace

end State
end Sys2Proof.Machine
end

section
/-! PROOFS. Where the stations' states have them: the events of the steps, of the Monitor and of the Noise Analyser. -/

namespace Sys2Proof.Machine

open Sys2Proof

set_option Elab.async false

namespace State

variable {L : Prop} {s t : State} {x : Station} {own : Option RecipeRef}

/-! ### Windows: an operation of the Noise Analyser leaves the step but for its unmeasured mark -/

/-- A change that leaves of each station its state, test and step but for the unmeasured mark, and the Leak Tester, the store
and the table. -/
theorem InPlace.of_windows (h : s.InPlace L) (hstate : ∀ j : Station, t.seq[j.val].state = s.seq[j.val].state := by exact fun j => by simp)
    (hspec : ∀ j : Station, t.seq[j.val].step.map StepCtx.spec = s.seq[j.val].step.map StepCtx.spec := by exact fun j => by simp)
    (hphase : ∀ j : Station, t.seq[j.val].step.map StepCtx.phase = s.seq[j.val].step.map StepCtx.phase := by exact fun j => by simp)
    (htest : ∀ j : Station, t.seq[j.val].test = s.seq[j.val].test := by exact fun j => by simp)
    (hleak : t.leak = s.leak := by simp) (hstore : t.store = s.store := by simp) (htable : t.table = s.table := by simp) :
    t.InPlace L := by
  refine h.of_views hstate (fun j => ?_) (fun j => ?_) (fun j => ?_) (by rw [hleak]) (by rw [hleak]) (by rw [hstore])
    fun i w => by simp only [lockAt, htable]
  · have h₁ := hspec j
    have h₂ := hphase j
    simp only [ctx, Fin.getElem_fin]
    revert h₁ h₂
    cases t.seq[j.val].step <;> cases s.seq[j.val].step <;> simp_all
  · simp only [ctx, Fin.getElem_fin, htest]
  · simp only [circuit, hleak]

namespace InPlace

theorem claimEngine (h : s.InPlace L) (g : Nat) : (s.claimEngine x g).InPlace L := h.of_windows

theorem unmeasured (h : s.InPlace L) (g : Nat) : (s.unmeasured x g).InPlace L := h.of_windows

theorem windowEnd (h : s.InPlace L) (g i : Nat) : (s.windowEnd x g i).InPlace L := h.of_windows

/-! ### Steps (R52 to R67) -/

/-- The step in progress, not a LEAK step, is changed. -/
theorem modStep (h : s.InPlace L) {y : StepCtx} (hy : (s.ctx x).step = some y) (hleak : ¬(y.spec = .leak ∧ y.phase = .leak))
    (f : StepCtx → StepCtx) : (s.modStep x f).InPlace L := by
  have hrun := h.placed.step x (by rw [hy]; nofun)
  refine ((h.aside_of_running hrun).frame (t := s.modStep x f)).back_free ((h.free_of_step hy hleak).congr (by simp))
    (fun _ => ?_) ?_
  · simpa [stateOf] using hrun
  · rw [owned_of_testing (by rw [show (s.modStep x f).stateOf x = .running by simpa [stateOf] using hrun]; rfl)]
    simp

theorem dwellExpiry (h : s.InPlace L) : (s.dwellExpiry x).InPlace L := by
  unfold State.dwellExpiry
  split
  · rename_i hy
    split
    · exact h.endStep hy (by simp) .done
    · obtain ⟨y, hafter, hspec⟩ := Option.map_eq_some_iff.mp
        ((windowEnd_step_spec ..).trans (congrArg (Option.map StepCtx.spec) hy))
      exact (h.windowEnd _ _).endStep hafter (by simp [hspec]) .done
    · split
      · exact h.endStep hy (by simp) .done
      · exact h.modStep hy (by simp) _
  · exact h

theorem extendTimeout (h : s.InPlace L) : (s.extendTimeout x).InPlace L := by
  unfold State.extendTimeout
  split
  · rename_i hy
    have hrun := h.placed.step x (by rw [hy]; nofun)
    refine (((h.aside_of_running hrun).finishStep .failed (some .extendTimeout)).frame (t := State.windowEnd _ x _ _)).enterStopping ?_ ?_ none false
    · exact (h.supplyFits x).congr (by simp)
    · simp
  · exact h

theorem gateTimeout (h : s.InPlace L) : (s.gateTimeout x).InPlace L := by
  unfold State.gateTimeout
  split
  · rename_i hy
    exact h.failStep (h.placed.step x (by rw [hy]; nofun)) _
  · rename_i hy
    exact (h.remark _).endStep (y := _) (by simpa using hy) (by simp) .timedOut
  · exact h

theorem stopTimeout (h : s.InPlace L) (hdue : s.stopTimeoutDue x = true) : (s.stopTimeout x).InPlace L := by
  simp only [stopTimeoutDue, Bool.and_eq_true, beq_iff_eq] at hdue
  refine ((h.aside_of_stopping hdue.1).frame (t := (s.modDrive x _).remark x .stopTimeout)).completes
    ((h.supplyFits x).congr (by simp)) (by simp) rfl rfl rfl rfl

theorem rampSample (h : s.InPlace L) {y : StepCtx} (hy : (s.ctx x).step = some y) (hleak : ¬(y.spec = .leak ∧ y.phase = .leak))
    (target : Int) (tolerance inBandTime : Nat) : (s.rampSample x y target tolerance inBandTime).InPlace L := by
  have hmoved : ∀ since, (if inBandTime ≤ elapsed since s.now then s.endStep x .done
      else s.modStep x (fun y => { y with phase := .inBand since })).InPlace L := by
    intro since
    split
    · exact h.endStep hy hleak .done
    · exact h.modStep hy hleak _
  unfold State.rampSample
  simp only
  split
  · exact h.modStep hy hleak _
  · exact hmoved _

theorem gateSample (h : s.InPlace L) {y : StepCtx} (hy : (s.ctx x).step = some y) (hleak : ¬(y.spec = .leak ∧ y.phase = .leak))
    (q : StQuantity) (rel : GateRelation) (value : Int) (hold : Nat) : (s.gateSample x y q rel value hold).InPlace L := by
  have hmoved : ∀ since, (if hold ≤ elapsed since s.now then s.endStep x .done
      else s.modStep x (fun y => { y with phase := .holding since })).InPlace L := by
    intro since
    split
    · exact h.endStep hy hleak .done
    · exact h.modStep hy hleak _
  unfold State.gateSample
  simp only
  split
  · exact h.modStep hy hleak _
  · exact hmoved _

theorem checkSample (h : s.InPlace L) {y : StepCtx} (hy : (s.ctx x).step = some y) (hleak : ¬(y.spec = .leak ∧ y.phase = .leak))
    (q : StQuantity) (averaging : Nat) (mode : CheckMode) (reference : Int) (tolerance : Nat) (sum : Int) (count : Nat) :
    (s.checkSample x y q averaging mode reference tolerance sum count).InPlace L := by
  have hrun := h.placed.step x (by rw [hy]; nofun)
  unfold State.checkSample
  simp only
  split
  · unfold State.checkAveraged
    simp only
    split
    · refine (((h.aside_of_running hrun).frame (t := s.addCheckResult x _)).finishStep .done none).enterStopping ?_ ?_ none false
      · exact (h.supplyFits x).congr (by simp)
      · simp
    · exact (h.modRecord _).endStep (y := y) (by simpa [State.modRecord] using hy) hleak .done
  · exact h.modStep hy hleak _

theorem stoppingSample (h : s.InPlace L) (hstop : s.stateOf x = .stopping) : (s.stoppingSample x).InPlace L := by
  unfold State.stoppingSample
  split
  · simp only
    split
    · exact ((h.aside_of_stopping hstop).frame (t := s.modDrive x _)).completes ((h.supplyFits x).congr (by simp)) (by simp)
        rfl rfl rfl rfl
    · exact h.frame
  · exact h.frame

/-! ### Samples (R79 to R91) -/

theorem judgeStep (h : s.InPlace L) (q : StQuantity) : (s.judgeStep x q).InPlace L := by
  unfold State.judgeStep
  split
  · exact h
  · rename_i y hy
    split
    · rename_i hspec
      split
      · exact h.rampSample hy (by simp [hspec]) _ _ _
      · exact h
    · exact h
    · rename_i hspec
      split
      · exact h.gateSample hy (by simp [hspec]) _ _ _ _
      · exact h
    · rename_i hspec
      split
      · split
        · exact h.checkSample hy (by simp [hspec]) _ _ _ _ _ _ _
        all_goals exact h
      · exact h
    · exact h.leakSample q

theorem flagNotice (h : s.InPlace L) (scope : Option Station) (q : Quantity) (held : Int) (k : FlagKind) :
    (s.flagNotice scope q held k).InPlace L := h.frame

theorem handOn (h : s.InPlace L) (q : StQuantity) (held : Int) (k : FlagKind) : (State.handOn x q held s k).InPlace L := by
  unfold State.handOn
  simp only
  split
  · exact ((h.flagNotice _ _ _ _).leakAlarm _ _).alarm _ _
  · exact (h.flagNotice _ _ _ _).warn _ _

/-- What an operation keeps, a chain of it keeps. -/
theorem foldl {α : Type} {f : State → α → State} (hf : ∀ (u : State) (a : α), u.InPlace L → (f u a).InPlace L) :
    ∀ (as : List α) {s : State}, s.InPlace L → (as.foldl f s).InPlace L
  | [], _, h => h
  | a :: as, s, h => foldl hf as (hf s a h)

theorem holdStation (h : s.InPlace L) (q : StQuantity) (v : Option Int) : (s.holdStation x q v).InPlace L :=
  foldl (fun _ k hu => hu.handOn q _ k) _ h.frame

theorem holdSupply (h : s.InPlace L) (v : Option Int) : (s.holdSupply v).InPlace L := by
  unfold State.holdSupply
  simp only
  split
  · exact (foldl (fun _ k hu => hu.flagNotice none .supply _ k) _ h.frame).supplyFault.examineSupply
  · exact (foldl (fun _ k hu => hu.flagNotice none .supply _ k) _ h.frame).examineSupply

theorem takeSample (h : s.InPlace L) (i : SensorInput) : (s.takeSample i).InPlace L := by
  unfold State.takeSample
  simp only
  have hgathered : ((s.gather i).afterGather i).InPlace L := h.frame
  split
  · exact hgathered.holdStation _ _
  · exact hgathered.holdSupply _

theorem sample (h : s.InPlace L) (i : SensorInput) : (s.sample i).InPlace L := by
  have htaken := h.takeSample i
  unfold State.sample State.readSample
  split
  · exact htaken
  · split
    · exact htaken.judgeStep _
    · rename_i hstop
      split
      · exact htaken.stoppingSample hstop
      · exact htaken
    · exact htaken

/-! ### Noise Analysis (R97 to R120) -/

theorem deferredClaim (h : s.InPlace L) : (s.deferredClaim x).InPlace L := by
  unfold State.deferredClaim
  split
  · exact h
  · simp only
    have hclaimed := (h.frame (t := s.setDeferred x none)).claimEngine (x := x)
    split
    · exact (hclaimed _).endExtended
    · exact hclaimed _

theorem engineWaitExpiry (h : s.InPlace L) : (s.engineWaitExpiry x).InPlace L := by
  unfold State.engineWaitExpiry
  split
  · exact h
  · exact ((h.frame (t := (s.dropWait x).countStation x _)).unmeasured _).endExtended

theorem closeUnsteady (h : s.InPlace L) (e : EngineId) (g : Nat) : (s.closeUnsteady x e g).InPlace L := by
  unfold State.closeUnsteady
  simp only
  have hclosed := h.of_windows (t := ((s.modGroups x (modLine g (fun l => l.close .incomplete (some .unsteady) none false))).enterGroup x
    ⟨g, .incomplete, some .unsteady, (s.engine e).accepted, (s.engine e).discarded, none⟩).freeEngine e)
  split
  · exact hclosed.endExtended
  · exact hclosed

theorem discardRevolution (h : s.InPlace L) (e : EngineId) (l : GroupLine) (countRight : Bool) (r : AccelReading) :
    (s.discardRevolution x e l countRight r).InPlace L := by
  have hcounted : ∀ f g, ((s.countStation x f).modEngine e g).InPlace L := fun _ _ => h.frame
  exact iteInduction (motive := (InPlace L ·)) (fun _ => (hcounted _ _).closeUnsteady _ _) fun _ => h.frame

theorem index (h : s.InPlace L) (us : Fin 1000) (r : AccelReading) : (s.index x us r).InPlace L := by
  have htaken : (s.takeIndex x us r).InPlace L := h.frame
  unfold State.index
  simp only
  split
  · split
    · exact htaken.frame
    · exact htaken.discardRevolution _ _ _ _
  · split
    · exact htaken.frame
    · exact htaken

theorem completion (h : s.InPlace L) (e : EngineId) : (s.completion e).InPlace L := by
  unfold State.completion
  simp only
  split
  · rename_i st l _ _
    split
    · rename_i hrun
      have hdelivered : ((s.deliver st (delivered (s.engine e) l)).modEngine e Engine.release).InPlace L := h.of_windows
      split
      · have hstops : ∀ v : State, v.Aside L st ((s.ctx st).test.map TestCtx.ref) → v.leak = s.leak →
            (v.ctx st).test = (s.ctx st).test → ((v.enterStopping st none false).passEngine e).InPlace L :=
          fun v hv hleak htest =>
            (hv.enterStopping ((h.supplyFits st).congr hleak) (by rw [htest]) none false).frame
        have haside := (h.aside_of_running hrun.1).frame
          (t := (s.deliver st (delivered (s.engine e) l)).modEngine e Engine.release)
        split
        · exact hstops _ (haside.finishStep .done none) (by simp) (by simp)
        · exact hstops _ haside (by simp) (by simp)
      · have hpassed : (((s.deliver st (delivered (s.engine e) l)).modEngine e Engine.release).passEngine e).InPlace L :=
          hdelivered.frame
        split
        · exact hpassed.deferredClaim.endExtended
        · exact hpassed.deferredClaim
    · exact (h.frame (t := s.freeEngine e)).deferredClaim
  · exact (h.frame (t := s.freeEngine e)).deferredClaim
  · exact h.frame

end InPlace

end State
end Sys2Proof.Machine
end

section
/-! PROOFS. Where the stations' states have them, and what they lock, concluded: requests, the restart, every command; the
obligations. -/

namespace Sys2Proof.Machine

open Sys2Proof

set_option Elab.async false

namespace State

variable {L : Prop} {s t : State} {x : Station} {own : Option RecipeRef}

/-- The lock count of an entry. -/
theorem lockAt_of_entry {i : Fin 8} {w : Fin 4} {e : Entry} (h : s.table[i][w] = some e) : s.lockAt i w = e.lock := by
  unfold lockAt
  rw [h]
  rfl

namespace InPlace

/-! ### The Result Store (R165 to R170) -/

/-- A station outside a test, or one that waits to deposit, is in no leak phase. -/
theorem free_of_state (h : s.InPlace L) (hrun : s.stateOf x ≠ .running) (hstop : s.stateOf x ≠ .stopping) : s.SupplyFree x := by
  refine (h.supplyFits x).free ?_
  by_contra hphase
  rcases h.placed.leak x hphase with ⟨hr, -⟩ | ⟨hs, -⟩
  · exact hrun hr
  · exact hstop hs

/-- Only a RUNNING station has a step in progress. -/
theorem step_none (h : s.InPlace L) (hrun : s.stateOf x ≠ .running) : (s.ctx x).step = none := by
  by_contra hs
  exact hrun (h.placed.step x hs)

theorem depositHead (h : s.InPlace L) : s.depositHead.InPlace L := by
  unfold State.depositHead
  split
  · rename_i x rest _ hq _
    have hstate : s.stateOf x = .completing := h.placed.deposit x (by simp [hq])
    obtain ⟨hx, hrest⟩ := List.nodup_cons.mp (hq ▸ h.placed.depositOnce)
    have hfree := h.free_of_state (x := x) (by rw [hstate]; nofun) (by rw [hstate]; nofun)
    have haside : ({ s with store := { s.store with deposit := rest } } : State).Aside L x ((s.ctx x).test.map TestCtx.ref) :=
      { step := fun j _ => h.placed.step j
        leak := fun j _ => h.placed.leak j
        grant := fun j _ => h.placed.grant j
        supply := fun j _ => h.placed.supply j
        supplyOnce := h.placed.supplyOnce
        deposit := fun j hj => ⟨ne_of_mem_of_not_mem hj hx, h.placed.deposit j (by rw [hq]; exact .tail _ hj)⟩
        depositOnce := hrest
        locks := fun hL i w => by
          have hcount := (s.locksCounted_iff.mp (h.locks hL) i w).trans (s.owners_none x i w)
          rwa [owned_of_testing (congrArg StationState.testing hstate)] at hcount }
    exact haside.depositStation ⟨hfree.phase, hfree.grant, hfree.queue⟩ hstate (h.step_none (by rw [hstate]; nofun)) rfl
  · exact h

theorem serveRlr (h : s.InPlace L) (n : Word32) : (Machine.serveRlr n s).1.InPlace L := by
  unfold Machine.serveRlr
  split
  · exact h
  split
  · exact h
  · rename_i rest _ _
    exact (h.frame (t := { s with store := { s.store with records := rest } }) rfl rfl rfl rfl).depositHead

/-! ### Recipes and the recipe table (R37 to R48) -/

theorem withStation (h : s.InPlace L) (b : Byte) {f : Station → State × List Byte} (hf : ∀ st, (f st).1.InPlace L) :
    (Machine.withStation b s f).1.InPlace L := by
  unfold Machine.withStation
  split
  · exact h
  · exact hf _

theorem withEntry (h : s.InPlace L) (v : Word16) {f : Fin 8 → Fin 4 → Entry → State × List Byte}
    (hf : ∀ i w e, s.lookup v.toNat = some (i, w, e) → (f i w e).1.InPlace L) : (Machine.withEntry v s f).1.InPlace L := by
  unfold Machine.withEntry
  split
  · exact h
  split
  · exact h
  · exact hf _ _ _ (by assumption)

/-- A change of the table that leaves every lock. -/
theorem of_locks (h : s.InPlace L) (hlocks : ∀ i w, t.lockAt i w = s.lockAt i w) (hseq : t.seq = s.seq := by simp)
    (hleak : t.leak = s.leak := by simp) (hstore : t.store = s.store := by simp) : t.InPlace L := by
  refine h.of_views (fun j => ?_) (fun j => ?_) (fun j => ?_) (fun j => ?_) (by rw [hleak]) (by rw [hleak]) (by rw [hstore]) hlocks
  all_goals simp only [stateOf, ctx, circuit, hseq, hleak]

/-- A change of one set that leaves every lock. -/
theorem setSet (h : s.InPlace L) {i : Fin 8} {set : RecipeSet}
    (hset : ∀ w : Fin 4, ((set[w]).map Entry.lock).getD 0 = s.lockAt i w) : (s.setSet i set).InPlace L := by
  refine h.of_locks fun j w => ?_
  unfold lockAt
  simp only [setSet_table, Fin.getElem_fin, Vector.getElem_set, Fin.val_inj]
  split
  · rename_i hij; exact hij ▸ hset w
  · rfl

/-- A change of one entry that leaves its lock. -/
theorem modEntry (h : s.InPlace L) (i : Fin 8) (w : Fin 4) {f : Entry → Entry} (hf : ∀ e, (f e).lock = e.lock) :
    (s.modEntry i w f).InPlace L := by
  refine h.of_locks fun j v => ?_
  unfold lockAt
  rw [modEntry_entry]
  split
  · cases s.table[j][v] <;> simp [hf]
  · rfl

theorem retire (h : s.InPlace L) (e : Entry) : (s.retire e).InPlace L := h.frame

/-- A new body over an unlocked entry. -/
theorem installOver (h : s.InPlace L) {i : Fin 8} {w : Fin 4} {e e' : Entry} (he : s.table[i][w] = some e) (hlock : e.lock = 0)
    (hlock' : e'.lock = 0) (r : Nat) : (s.setSet i (RecipeSet.installOver s.table[i] w r e')).InPlace L := by
  refine h.setSet fun v => ?_
  rw [RecipeSet.getElem_installOver]
  split
  · rename_i hv; subst hv; rw [lockAt_of_entry he, hlock]; exact hlock'
  · rw [Option.map_map]; rfl

theorem serveLdr (h : s.InPlace L) (body : List Byte) : (Machine.serveLdr body s).1.InPlace L := by
  unfold Machine.serveLdr
  split
  · exact h
  · rename_i r _
    unfold Machine.placeRecipe
    simp only
    split
    · rename_i i w e hhit
      obtain ⟨rfl, he, -⟩ := lookup_eq_some hhit
      split
      · exact h
      · rename_i hlock
        exact (h.retire e).installOver (by rwa [retire_table]) (not_not.mp hlock) rfl _
    · split
      · rename_i w hfree
        have hnone := RecipeSet.freeWay_eq_some hfree
        refine h.setSet fun v => ?_
        rw [RecipeSet.getElem_installFree]
        unfold lockAt
        split
        · rename_i hv; subst hv; simp only [hnone]; rfl
        · rw [Option.map_map]; rfl
      · split
        · rename_i w e hvictim
          obtain ⟨he, hlock, -⟩ := RecipeSet.victim_eq_some hvictim
          exact (h.retire e).installOver (by rwa [retire_table]) hlock rfl _
        · exact h

theorem serveDrp (h : s.InPlace L) (v : Word16) : (Machine.serveDrp v s).1.InPlace L := by
  refine h.withEntry v fun i w e hhit => ?_
  obtain ⟨rfl, he, -⟩ := lookup_eq_some hhit
  split
  · exact h
  · rename_i hlock
    have he' : (s.retire e).table[setIndex v.toNat][w] = some e := by rwa [retire_table]
    refine (h.retire e).setSet fun u => ?_
    rw [RecipeSet.getElem_drop]
    split
    · rename_i hu; subst hu; rw [lockAt_of_entry he', not_not.mp hlock]; rfl
    · rw [Option.map_map]; rfl

theorem servePin (h : s.InPlace L) (v : Word16) (p : Byte) : (Machine.servePin v p s).1.InPlace L := by
  unfold Machine.servePin
  split
  · exact h
  · exact h.withEntry v fun i w _ _ => h.modEntry i w fun _ => rfl

theorem serveRrs (h : s.InPlace L) (v : Word16) : (Machine.serveRrs v s).1.InPlace L :=
  h.withEntry v fun i w _ _ => h.modEntry i w fun _ => rfl

end InPlace

/-! ### STT (R19) -/

/-- The recipe taken, its entry's lock is one more (R19, R40). -/
theorem takeRecipe_lockAt (s : State) (x : Station) (r : Recipe) {ref : RecipeRef}
    (href : ∀ i w, ref = .table i w → ∃ e : Entry, s.table[i][w] = some e) (i : Fin 8) (w : Fin 4) :
    (s.takeRecipe x r ref).lockAt i w = s.lockAt i w + if ref = .table i w then 1 else 0 := by
  unfold takeRecipe
  split
  · rename_i j u
    obtain ⟨e, he⟩ := href j u rfl
    simp only [he]
    have hset : (s.setSet j (RecipeSet.installOver s.table[j] u e.rank e)).table[i][w] =
        if j = i then (RecipeSet.installOver s.table[j] u e.rank e)[w] else s.table[i][w] := by
      simp only [setSet_table, Fin.getElem_fin, Vector.getElem_set, Fin.val_inj]
      split <;> rfl
    rw [RecipeSet.getElem_installOver] at hset
    by_cases hhere : j = i ∧ u = w
    · obtain ⟨rfl, rfl⟩ := hhere
      rw [if_pos rfl, lockAt_of_entry he]
      refine lockAt_of_entry (e := { e with rank := 0, lock := e.lock + 1 }) ?_
      rw [modEntry_entry, if_pos ⟨rfl, rfl⟩, RecipeSet.promote_eq _ he, hset, if_pos rfl, if_pos rfl]
      rfl
    · rw [if_neg (fun he => hhere (by simpa using he))]
      unfold lockAt
      rw [modEntry_entry, if_neg hhere, RecipeSet.promote_eq _ he, hset]
      by_cases hj : j = i
      · subst hj
        rw [if_pos rfl, if_neg (fun hu => hhere ⟨rfl, hu⟩), Option.map_map]
        rfl
      · rw [if_neg hj]
        rfl
  · rfl

namespace InPlace

theorem startTest (h : s.InPlace L) (hidle : s.stateOf x = .idle) (f : SttFields) (r : Recipe) {ref : RecipeRef}
    (href : ∀ i w, ref = .table i w → ∃ e : Entry, s.table[i][w] = some e) (thr : Vector Thresholds 6) :
    (s.startTest x f r ref thr).InPlace L := by
  have haside : ((s.clearLatches x).takeRecipe x r ref).Aside L x (some ref) := by
    have hold : s.owned x = none := if_neg (by rw [hidle]; nofun)
    refine (h.aside x (by rw [hidle]; nofun)).of_locks (fun j hj => by simp [hj]) (by simp) (by simp) (by simp)
      (by simpa using h.placed.supplyOnce) (by simp) fun _ i w => ?_
    rw [takeRecipe_lockAt (s.clearLatches x) x r href, hold]
    simp only [Option.some.injEq, reduceCtorEq, if_false]
    rfl
  have hfree : ((s.clearLatches x).takeRecipe x r ref).SupplyFree x :=
    (h.free_of_state (by rw [hidle]; nofun) (by rw [hidle]; nofun)).congr (by simp)
  have hreport : ∀ v : State, v.InPlace L → (if v.pins.driveFault[x] then v.driveFaultReport x else v).InPlace L := fun v hv => by
    split
    · exact hv.driveFaultReport
    · exact hv
  have hstep : ((s.clearLatches x).takeRecipe x r ref).seq[x.val].step = none := by
    have hnone : s.seq[x.val].step = none := h.step_none (by rw [hidle]; nofun)
    unfold takeRecipe
    split
    · split <;> simpa using hnone
    · simpa using hnone
  unfold State.startTest
  refine hreport _ ?_
  split
  · exact haside.frame.beginStep (hfree.congr (by simp)) (by simp [stateOf]) (by simp) _ _
  · refine haside.frame.back_free (hfree.congr (by simp)) (fun hs => ?_) ?_
    · simp [hstep] at hs
    · rw [owned_of_testing (by simp [stateOf, StationState.testing])]; simp

theorem serveStt (h : s.InPlace L) (f : SttFields) : (Machine.serveStt f s).1.InPlace L := by
  refine h.withStation _ fun st => ?_
  split
  · exact h
  split
  · exact h
  split
  · exact h
  rename_i hidle
  split
  · exact h
  split
  · exact h
  split
  · exact h
  rename_i r ref hrecipe
  split
  · exact h
  split
  · exact h
  simp only
  split
  · exact h
  · refine h.startTest (not_not.mp hidle) f r (fun i w hw => ?_) _
    subst hw
    unfold sttRecipe at hrecipe
    split at hrecipe
    · split at hrecipe
      · exact absurd hrecipe nofun
      · rename_i i' w' e hhit
        obtain ⟨rfl, he, -⟩ := lookup_eq_some hhit
        simp only [Except.ok.injEq, Prod.mk.injEq, RecipeRef.table.injEq] at hrecipe
        obtain ⟨-, rfl, rfl⟩ := hrecipe
        exact ⟨e, he⟩
    · split at hrecipe
      · split at hrecipe
        · exact absurd hrecipe nofun
        · split at hrecipe <;> simp at hrecipe
      · exact absurd hrecipe nofun

end InPlace

end State
end Sys2Proof.Machine
end

section
/-! PROOFS. Where the stations' states have them, and what they lock, concluded: the remaining requests, the restart, every
command; the two obligations. -/

namespace Sys2Proof.Machine

open Sys2Proof

set_option Elab.async false

/-- An answer leaves the state of its rule. -/
@[simp] theorem answer_fst (s : State) (fields : List Byte) : (answer s fields).1 = s := rfl

/-- A refusal leaves the state. -/
@[simp] theorem refuse_fst (s : State) (x : Status) : (refuse s x).1 = s := rfl

namespace State

variable {L : Prop} {s t : State} {x : Station} {own : Option RecipeRef}

namespace InPlace

/-! ### Requests to stations (R20 to R25, R64) -/

/-- A station outside a test goes to a state outside one. -/
theorem atRest (h : s.InPlace L) {y : StationState} (hx : (s.stateOf x).testing = false) (hy : y.testing = false)
    (hseq : ∀ j : Station, x ≠ j → t.seq[j.val] = s.seq[j.val] := by exact fun j hj => by simp [hj])
    (hstate : t.stateOf x = y := by simp [stateOf]) (hstep : (t.ctx x).step = (s.ctx x).step := by simp)
    (hleak : t.leak = s.leak := by simp) (hstore : t.store = s.store := by simp) (htable : t.table = s.table := by simp) :
    t.InPlace L := by
  have hnot : ∀ z : StationState, z.testing = true → s.stateOf x ≠ z := fun z hz hxz => by simp [← hxz, hx] at hz
  have hold : s.owned x = none := if_neg (by simp [hx])
  refine ((h.aside x (hnot _ rfl)).frame hseq hleak hstore htable).back_free
    ((h.free_of_state (hnot _ rfl) (hnot _ rfl)).congr hleak) (fun hs => absurd ?_ hs) ?_
  · rw [hstep, h.step_none (hnot _ rfl)]
  · rw [hold]
    exact if_neg (by rw [hstate, hy]; nofun)

theorem serveAbt (h : s.InPlace L) (b : Byte) : (Machine.serveAbt b s).1.InPlace L := by
  refine h.withStation b fun st => ?_
  split
  · rename_i hrun; exact h.enterStopping hrun (some .hostAbort) false
  all_goals exact h

theorem serveRel (h : s.InPlace L) (b : Byte) : (Machine.serveRel b s).1.InPlace L := by
  refine h.withStation b fun st => ?_
  split
  · rename_i hdone
    exact h.atRest (x := st) (y := .idle) (by rw [hdone]; rfl) rfl (hstate := by simp [stateOf, releaseStation])
      (hstep := by simp [releaseStation])
  · exact h

theorem serveEna (h : s.InPlace L) (b e : Byte) : (Machine.serveEna b e s).1.InPlace L := by
  refine h.withStation b fun st => ?_
  split
  · rename_i hoff _
    exact h.atRest (x := st) (y := .idle) (by rw [hoff]; rfl) rfl
  · rename_i hidle _
    exact h.atRest (x := st) (y := .off) (by rw [hidle]; rfl) rfl
  all_goals exact h

theorem serveSkg (h : s.InPlace L) (b : Byte) : (Machine.serveSkg b s).1.InPlace L := by
  refine h.withStation b fun st => ?_
  split
  · rename_i hy
    exact (h.remark _).endStep (y := _) (by simpa using hy) (by simp) .skipped
  · exact h

/-! ### Requests that move no station -/

theorem serveChn (h : s.InPlace L) (f : ChnFields) : (Machine.serveChn f s).1.InPlace L := by
  refine h.withStation _ fun st => ?_
  split
  · exact h
  · split
    case h_4 | h_5 | h_6 => exact h.frame
    all_goals exact h

theorem serveCfg (h : s.InPlace L) (f : CfgFields) : (Machine.serveCfg f s).1.InPlace L := by
  unfold Machine.serveCfg
  split
  · exact h
  · split
    · exact h
    · exact h.frame

theorem serveLim (h : s.InPlace L) (es : List LimEntry) : (Machine.serveLim es s).1.InPlace L := by
  unfold Machine.serveLim
  split
  · exact h
  · exact h.frame rfl rfl rfl rfl

theorem serveMsk (h : s.InPlace L) (xs : List MskSetting) : (Machine.serveMsk xs s).1.InPlace L := by
  unfold Machine.serveMsk
  split
  · exact h
  · exact h.frame rfl rfl rfl rfl

theorem serveClf (h : s.InPlace L) (scope : Byte) (ps : List FlagPair) : (Machine.serveClf scope ps s).1.InPlace L := by
  unfold Machine.serveClf
  split
  · exact h
  split
  · exact h
  split
  · exact foldl (fun _ _ hu => hu.frame) _ h
  · exact h.frame rfl rfl rfl rfl

theorem serveRdm (h : s.InPlace L) (b : Byte) : (Machine.serveRdm b s).1.InPlace L := by
  unfold Machine.serveRdm
  split <;> exact h

theorem serveRdr (h : s.InPlace L) (b : Byte) (n : Word32) : (Machine.serveRdr b n s).1.InPlace L := by
  unfold Machine.serveRdr
  split
  · exact h
  split
  · exact h
  split
  · exact h
  split <;> exact h

/-- Every message's rule leaves every station in place. -/
theorem serveCommand (h : s.InPlace L) (c : Instr) : (Machine.serveCommand c s).1.InPlace L := by
  cases c with
  | cfg _ f => exact h.serveCfg f
  | stt _ f => exact h.serveStt f
  | abt _ b => exact h.serveAbt b
  | rel _ b => exact h.serveRel b
  | ena _ b e => exact h.serveEna b e
  | rds _ b => exact h.withStation b fun _ => h
  | rst _ => exact h.frame rfl rfl rfl rfl
  | skg _ b => exact h.serveSkg b
  | ldr _ body => exact h.serveLdr body
  | drp _ v => exact h.serveDrp v
  | pin _ v p => exact h.servePin v p
  | rrs _ v => exact h.serveRrs v
  | lim _ es => exact h.serveLim es
  | msk _ xs => exact h.serveMsk xs
  | rdm _ b => exact h.serveRdm b
  | clf _ b ps => exact h.serveClf b ps
  | chn _ f => exact h.serveChn f
  | rdr _ b n => exact h.serveRdr b n
  | rlr _ n => exact h.serveRlr n
  | snp _ => exact h.frame rfl rfl rfl rfl
  | pol _ => exact h.frame rfl rfl rfl rfl
  | _ => exact h

theorem serveFrame (h : s.InPlace L) (kind tag : Byte) (p : List Byte) : (Machine.serveFrame kind tag p s).1.InPlace L := by
  unfold Machine.serveFrame
  split
  · exact h
  split
  · exact h.serveCommand _
  · exact h

theorem serveChecked (h : s.InPlace L) (c : Instr) : (Machine.serveChecked c s).1.InPlace L := by
  unfold Machine.serveChecked
  split
  · split
    · exact h.serveStt _
    · exact h
  · split
    · exact h.serveLdr _
    · exact h
  · exact h.serveCommand c

theorem goodFrame (h : s.InPlace L) (kind tag : Byte) {serve : State → State × List Byte}
    (hserve : ∀ v, v.InPlace L → (serve v).1.InPlace L) : (Machine.goodFrame kind tag serve s).InPlace L := by
  unfold Machine.goodFrame
  simp only
  split
  · exact h.frame
  · exact (hserve _ h.frame).frame rfl rfl rfl rfl

theorem receive (h : s.InPlace L) (b : Byte) : (s.receive b).InPlace L := by
  unfold State.receive
  split
  · split
    · exact h.frame
    · exact h
  split
  · unfold State.takeFrame
    split
    · exact h.goodFrame _ _ fun _ hv => hv.serveFrame _ _ _
    · exact h.frame
  · split
    · exact h.frame
    · exact h.frame
  · exact h.frame

end InPlace

/-! ### Restart and power-on (R26, R27) -/

/-- A part at rest: no station in a test, no step, no leak phase, no supply, no deposit, no lock. -/
theorem inPlace_of_rest (hstate : ∀ j, (s.stateOf j).testing = false) (hstep : ∀ j, (s.ctx j).step = none)
    (hphase : ∀ j, (s.circuit j).phase = .none) (hgrant : s.leak.grant = none) (hqueue : s.leak.queue = [])
    (hdeposit : s.store.deposit = []) (hlock : ∀ i w, s.lockAt i w = 0) : s.InPlace L where
  placed := by
    refine ⟨fun j hj => absurd (hstep j) hj, fun j hj => absurd (hphase j) hj, fun j => ?_, fun j => ?_, ?_, fun j hj => ?_, ?_⟩
    · rw [hgrant, hphase]; exact iff_of_false nofun nofun
    · rw [hqueue, hphase]; exact iff_of_false List.not_mem_nil nofun
    · rw [hqueue]; exact .nil
    · rw [hdeposit] at hj; exact absurd hj List.not_mem_nil
    · rw [hdeposit]; exact .nil
  locks _ := s.locksCounted_iff.mpr fun i w => by
    have hnobody : s.owners none i w = 0 := by
      refine List.length_eq_zero_iff.mpr (List.filter_eq_nil_iff.mpr fun j _ => ?_)
      simp [owned, hstate]
    rw [hlock, hnobody]

theorem restart_inPlace (s : State) : s.restart.InPlace L := by
  refine inPlace_of_rest (fun j => ?_) (fun j => ?_) (fun j => ?_) rfl rfl rfl fun i w => ?_
  · simp only [stateOf]
    rw [show s.restart.seq[j] = (s.restart.ctx j) from rfl, restart_ctx]
    simp only [StationCtx.restarted]
    split <;> rfl
  · rw [restart_ctx]; rfl
  · rw [show s.restart.circuit j = .rest from Vector.getElem_replicate _]; rfl
  · unfold lockAt
    rw [restart_table, Option.map_map]
    cases s.table[i][w] <;> rfl

theorem powerOn_inPlace (pins : PowerOnPins) : (powerOn pins).InPlace L := by
  refine inPlace_of_rest (fun j => ?_) (fun j => ?_) (fun j => ?_) rfl rfl rfl fun i w => ?_
  · simp only [stateOf, Fin.getElem_fin, powerOn_seq]; rfl
  · simp only [ctx, Fin.getElem_fin, powerOn_seq]; rfl
  · simp only [circuit, Fin.getElem_fin, powerOn_circuits]; rfl
  · unfold lockAt
    rw [powerOn_table]; rfl

theorem InPlace.transmitEnd (h : s.InPlace L) : s.transmitEnd.InPlace L := by
  unfold State.transmitEnd
  split
  · exact h
  · split
    · exact restart_inPlace s
    · exact h.frame
  · exact h.frame

/-! ### Every command -/

theorem inPlace_of_event {f : State → State} (h : event f s = .next t) (hf : (f s).InPlace L) : t.InPlace L := by
  obtain rfl := Host.Outcome.next.inj h
  exact hf.frame

theorem inPlace_of_eventWhen {due : State → Bool} {f : State → State} (h : eventWhen due f s = .next t) (hs : s.InPlace L)
    (hf : due s = true → (f s).InPlace L) : t.InPlace L := by
  cases hdue : due s with
  | true => exact inPlace_of_event ((if_pos hdue).symm.trans h) (hf hdue)
  | false =>
    obtain rfl := Host.Outcome.next.inj ((eventWhen_absent due f s hdue).symm.trans h)
    exact hs

/-- The step of a timer that is due is of a RUNNING station. -/
theorem running_of_stepIs {p : StepCtx → Bool} (h : s.stepIs x p = true) : s.stateOf x = .running := by
  simp only [stepIs, Bool.and_eq_true, beq_iff_eq] at h
  exact h.1

/-- Every command leaves every station in place. -/
theorem exec_inPlace {c : Instr} (hs : s.InPlace L) (h : exec c s = .next t) : t.InPlace L := by
  by_cases hrequest : ∃ x, requestParts c = some x
  · obtain ⟨⟨kind, tag, p⟩, hparts⟩ := hrequest
    obtain rfl := Host.Outcome.next.inj ((exec_of_requestParts hparts s).symm.trans h)
    exact hs.goodFrame kind tag fun _ hv => hv.serveChecked c
  cases c with
  | powerOnReset pins =>
    obtain rfl := Host.Outcome.next.inj h
    exact (powerOn_inPlace pins).frame rfl rfl rfl rfl
  | restart => exact inPlace_of_eventWhen ((exec_restart s).symm.trans h) hs fun _ => restart_inPlace s
  | emergencyStop order =>
    exact inPlace_of_eventWhen ((exec_emergencyStop s order).symm.trans h) hs fun _ =>
      InPlace.foldl (fun _ _ hu => hu.estopStation) _ (hs.frame rfl rfl rfl rfl)
  | emergencyStopRelease => exact Host.Outcome.next.inj h ▸ hs.frame rfl rfl rfl rfl
  | driveFault st active =>
    refine inPlace_of_event ((exec_driveFault s st active).symm.trans h) ?_
    unfold State.driveFaultInput
    simp only
    split
    · exact InPlace.driveFaultReport (hs.frame rfl rfl rfl rfl)
    · exact hs.frame rfl rfl rfl rfl
  | monitorSample x => exact inPlace_of_event ((exec_monitorSample s x).symm.trans h) (hs.sample x)
  | quantityLost x => exact inPlace_of_eventWhen ((exec_quantityLost s x).symm.trans h) hs fun _ => hs.sample x
  | checkAveraged x => exact inPlace_of_eventWhen ((exec_checkAveraged s x).symm.trans h) hs fun _ => hs.sample x
  | measureEnd x => exact inPlace_of_eventWhen ((exec_measureEnd s x).symm.trans h) hs fun _ => hs.sample x
  | standstillConfirmed st b =>
    exact inPlace_of_eventWhen ((exec_standstillConfirmed s st b).symm.trans h) hs fun _ => hs.sample _
  | driveUpdate st => exact Host.Outcome.next.inj h ▸ hs.frame
  | encoderIndex st us r => exact inPlace_of_event ((exec_encoderIndex s st us r).symm.trans h) (hs.index us r)
  | kReached st us r => exact inPlace_of_eventWhen ((exec_kReached s st us r).symm.trans h) hs fun _ => hs.index us r
  | groupUnsteady st us r =>
    exact inPlace_of_eventWhen ((exec_groupUnsteady s st us r).symm.trans h) hs fun _ => hs.index us r
  | engineCompletion e => exact inPlace_of_eventWhen ((exec_engineCompletion s e).symm.trans h) hs fun _ => hs.completion e
  | engineGrant e => exact inPlace_of_event ((exec_engineGrant s e).symm.trans h) hs.frame
  | deferredClaim st => exact inPlace_of_eventWhen ((exec_deferredClaim s st).symm.trans h) hs fun _ => hs.deferredClaim
  | engineWaitExpiry st =>
    exact inPlace_of_eventWhen ((exec_engineWaitExpiry s st).symm.trans h) hs fun _ => hs.engineWaitExpiry
  | rampTimeout st =>
    exact inPlace_of_eventWhen ((exec_rampTimeout s st).symm.trans h) hs fun hdue => hs.failStep (running_of_stepIs hdue) _
  | dwellDurationExpiry st =>
    exact inPlace_of_eventWhen ((exec_dwellDurationExpiry s st).symm.trans h) hs fun _ => hs.dwellExpiry
  | extendTimeout st => exact inPlace_of_eventWhen ((exec_extendTimeout s st).symm.trans h) hs fun _ => hs.extendTimeout
  | gateTimeout st => exact inPlace_of_eventWhen ((exec_gateTimeout s st).symm.trans h) hs fun _ => hs.gateTimeout
  | stopTimeout st => exact inPlace_of_eventWhen ((exec_stopTimeout s st).symm.trans h) hs fun hdue => hs.stopTimeout hdue
  | standstillTimerExpiry st =>
    exact inPlace_of_eventWhen ((exec_standstillTimerExpiry s st).symm.trans h) hs fun hdue => hs.standstillExpiry hdue
  | fillTimerExpiry st =>
    exact inPlace_of_eventWhen ((exec_fillTimerExpiry s st).symm.trans h) hs fun hdue => hs.fillExpiry hdue
  | settleTimerExpiry st =>
    exact inPlace_of_eventWhen ((exec_settleTimerExpiry s st).symm.trans h) hs fun hdue => hs.settleExpiry hdue
  | ventTimerExpiry st =>
    exact inPlace_of_eventWhen ((exec_ventTimerExpiry s st).symm.trans h) hs fun hdue => hs.ventExpiry hdue
  | supplyGrant => exact inPlace_of_event ((exec_supplyGrant s).symm.trans h) hs.examineSupply
  | deposit => exact inPlace_of_eventWhen ((exec_deposit s).symm.trans h) hs fun _ => hs.depositHead
  | autoSnapshotExpiry => exact inPlace_of_eventWhen ((exec_autoSnapshotExpiry s).symm.trans h) hs fun _ => hs.frame
  | gapTimerExpiry => exact inPlace_of_eventWhen ((exec_gapTimerExpiry s).symm.trans h) hs fun _ => hs.frame
  | lengthOutOfRange b => exact inPlace_of_eventWhen ((exec_lengthOutOfRange s b).symm.trans h) hs fun _ => hs.receive b
  | crcMismatch b => exact inPlace_of_eventWhen ((exec_crcMismatch s b).symm.trans h) hs fun _ => hs.receive b
  | frameDiscardedBusy b => exact inPlace_of_eventWhen ((exec_frameDiscardedBusy s b).symm.trans h) hs fun _ => hs.receive b
  | unknownKind b => exact inPlace_of_eventWhen ((exec_unknownKind s b).symm.trans h) hs fun _ => hs.receive b
  | transmitEnd => exact Host.Outcome.next.inj h ▸ hs.transmitEnd
  | transmitStart => exact Host.Outcome.next.inj h ▸ hs.frame rfl rfl rfl rfl
  | byteArrival b => exact Host.Outcome.next.inj h ▸ hs.receive b
  | encoderLine st forward r => exact inPlace_of_event ((exec_encoderLine s st forward r).symm.trans h) hs.frame
  | _ => exact absurd ⟨_, rfl⟩ hrequest

/-- Every step leaves every station in place. -/
theorem step_inPlace (hs : s.InPlace L) (h : step s = .next t) : t.InPlace L := by
  rcases step_cases h with ⟨c, q, hexec⟩ | rfl
  · exact exec_inPlace (hs.frame (t := s.withPending q)) hexec
  · exact hs.frame

end State

/-- Settles O58. -/
theorem everyStepKeepsStationsInPlace : Obligations.EveryStepKeepsStationsInPlace := fun _ _ hs h =>
  (State.step_inPlace (L := False) ⟨hs, False.elim⟩ h).placed

/-- Settles O59. -/
theorem everyStepKeepsLocksCounted : Obligations.EveryStepKeepsLocksCounted := fun _ _ hs hlocks h =>
  (State.step_inPlace (L := True) ⟨hs, fun _ => hlocks⟩ h).locks trivial

/-- Settles O8. -/
theorem resetMeetsInvariants : Obligations.ResetMeetsInvariants :=
  have hplace : State.reset.InPlace True := State.powerOn_inPlace _
  ⟨State.powerOn_bounded _, State.powerOn_numbered _, State.powerOn_remarksKept _, State.powerOn_valvesFollowPhase _,
    State.powerOn_ranksDense _, hplace.placed, hplace.locks trivial, State.powerOn_enginesHeld _⟩

end Sys2Proof.Machine
end

section
/-! PROOFS. The queue of commands, requests and their replies, the requests that read, the drive's ramp and the verdict. -/

namespace Sys2Proof.Machine

open Sys2Proof

set_option Elab.async false

/-! ### The queue of commands (R2) -/

/-- Settles O1. -/
theorem stepTakesFrontCommand : Obligations.StepTakesFrontCommand := by
  intro c rest s hpending
  unfold step
  rw [hpending]

/-- Settles O2. -/
theorem idleStepTakesExpiryOrMillisecond : Obligations.IdleStepTakesExpiryOrMillisecond := by
  intro s hpending
  have hidle : step s = match s.nextDue with | some c => exec c s | none => .next s.tick := by
    unfold step
    rw [hpending] <;> rfl
  refine ⟨fun c hdue => ?_, fun hnone => ?_⟩
  · rw [hidle, hdue]
  · rw [hidle, hnone]; rfl

/-- The queue of commands and line time are as they were, and so are the conditioning entries unless a CHN is served. -/
structure State.SameRun (chn : Prop) (s t : State) : Prop where
  pending : t.pending = s.pending := by simp
  now : t.clock.now = s.clock.now := by simp
  cond : chn ∨ t.cond = s.cond := by simp

theorem State.SameRun.mono {P Q : Prop} {s t : State} (h : State.SameRun P s t) (hPQ : P → Q) : State.SameRun Q s t :=
  ⟨h.pending, h.now, h.cond.imp_left hPQ⟩

/-- A command that answers a state with the queue, line time and, unless a CHN is served, the conditioning as they were. -/
def Completes (chn : Prop) (x : Result) (s : State) : Prop := ∃ t, x = .next t ∧ State.SameRun chn s t

theorem completes_of_event {chn : Prop} {f : State → State} {s : State} (h : State.SameRun chn s (f s)) :
    Completes chn (event f s) s :=
  ⟨_, rfl, by simpa using h.pending, by simpa using h.now, h.cond.imp_right fun hcond => by simpa using hcond⟩

theorem completes_of_eventWhen {chn : Prop} {due : State → Bool} {f : State → State} {s : State}
    (h : State.SameRun chn s (f s)) : Completes chn (eventWhen due f s) s := by
  cases hdue : due s with
  | true =>
    exact ⟨_, eventWhen_taken due f s hdue, by simpa using h.pending, by simpa using h.now,
      h.cond.imp_right fun hcond => by simpa using hcond⟩
  | false => exact ⟨s, eventWhen_absent due f s hdue, {}⟩

/-- Only a CHN's kind carries a CHN (R204). -/
theorem requestOf_chn {kind tag t : Byte} {p : List Byte} {f : ChnFields} (h : requestOf kind tag p = some (.chn t f)) :
    kind = 0x38 := by
  unfold requestOf at h
  split at h
  case h_19 hkind => exact BitVec.eq_of_toNat_eq hkind
  all_goals exact absurd h nofun

/-- The byte completes the good frame of a CHN, with the reply slot empty (R154, R191). -/
def State.CompletesChn (s : State) (b : Byte) : Prop :=
  ∃ frame, s.link.completes b = some frame ∧ byteAt frame 2 = 0x38 ∧ frameGood frame = true ∧ s.link.slot = none

/-- The arrivals that end something are none of a CHN (log entry 3). -/
theorem not_completesChn {s : State} {b : Byte} (hdue : s.lengthOutOfRangeDue b = true ∨ s.crcMismatchDue b = true
    ∨ s.frameDiscardedBusyDue b = true ∨ s.unknownKindDue b = true) : ¬s.CompletesChn b := by
  rintro ⟨frame, hframe, hkind, hgood, hslot⟩
  rcases hdue with hdue | hdue | hdue | hdue
  · unfold Link.completes at hframe
    unfold State.lengthOutOfRangeDue Link.formsLength at hdue
    split at hframe
    · rename_i hrecv hexpected
      simp [hrecv, hexpected] at hdue
    · exact absurd hframe nofun
  · simp [State.crcMismatchDue, hframe, hgood] at hdue
  · simp [State.frameDiscardedBusyDue, hframe, hslot] at hdue
  · simp [State.unknownKindDue, hframe, hkind, requestOf] at hdue

namespace State.SameRun

variable {chn : Prop} {s : State}

theorem withStation (b : Byte) {f : Station → State × List Byte} (hf : ∀ st, SameRun chn s (f st).1) :
    SameRun chn s (Machine.withStation b s f).1 := by
  unfold Machine.withStation
  split
  · exact ⟨rfl, rfl, .inr rfl⟩
  · exact hf _

theorem withEntry (v : Word16) {f : Fin 8 → Fin 4 → Entry → State × List Byte} (hf : ∀ i w e, SameRun chn s (f i w e).1) :
    SameRun chn s (Machine.withEntry v s f).1 := by
  unfold Machine.withEntry
  (repeat' split) <;> first | exact ⟨rfl, rfl, .inr rfl⟩ | exact hf ..

theorem serveCfg (f : CfgFields) : SameRun chn s (Machine.serveCfg f s).1 := by
  unfold Machine.serveCfg
  split
  · exact {}
  split
  · exact {}
  · exact {}

theorem serveStt (f : SttFields) : SameRun chn s (Machine.serveStt f s).1 := by
  refine withStation _ fun st => ?_
  split
  · exact {}
  split
  · exact {}
  split
  · exact {}
  split
  · exact {}
  split
  · exact {}
  split
  · exact {}
  split
  · exact {}
  split
  · exact {}
  simp only
  split
  · exact {}
  · exact {}

theorem serveAbt (b : Byte) : SameRun chn s (Machine.serveAbt b s).1 := by
  refine withStation _ fun st => ?_
  split <;> exact {}

theorem serveRel (b : Byte) : SameRun chn s (Machine.serveRel b s).1 := by
  refine withStation _ fun st => ?_
  split <;> exact {}

theorem serveEna (b e : Byte) : SameRun chn s (Machine.serveEna b e s).1 := by
  refine withStation _ fun st => ?_
  split <;> exact {}

theorem serveSkg (b : Byte) : SameRun chn s (Machine.serveSkg b s).1 := by
  refine withStation _ fun st => ?_
  split <;> exact {}

theorem serveLdr (body : List Byte) : SameRun chn s (Machine.serveLdr body s).1 := by
  unfold Machine.serveLdr
  split
  · exact {}
  unfold placeRecipe
  simp only
  split
  · split <;> exact {}
  split
  · exact {}
  split <;> exact {}

theorem serveDrp (v : Word16) : SameRun chn s (Machine.serveDrp v s).1 := by
  refine withEntry _ fun i w e => ?_
  split <;> exact {}

theorem servePin (v : Word16) (p : Byte) : SameRun chn s (Machine.servePin v p s).1 := by
  unfold Machine.servePin
  split
  · exact {}
  · exact withEntry _ fun i w e => {}

theorem serveLim (es : List LimEntry) : SameRun chn s (Machine.serveLim es s).1 := by
  unfold Machine.serveLim
  split <;> exact {}

theorem serveMsk (xs : List MskSetting) : SameRun chn s (Machine.serveMsk xs s).1 := by
  unfold Machine.serveMsk
  split <;> exact {}

theorem serveRdm (b : Byte) : SameRun chn s (Machine.serveRdm b s).1 := by
  unfold Machine.serveRdm
  split <;> exact {}

theorem serveClf (scope : Byte) (ps : List FlagPair) : SameRun chn s (Machine.serveClf scope ps s).1 := by
  unfold Machine.serveClf
  split
  · exact {}
  split
  · exact {}
  split
  · exact { pending := by simp [clearStationFlags, allStQuantities], now := by simp [clearStationFlags, allStQuantities]
            cond := by simp [clearStationFlags, allStQuantities] }
  · exact ⟨rfl, rfl, .inr rfl⟩

theorem serveChn (f : ChnFields) : SameRun True s (Machine.serveChn f s).1 := by
  refine withStation _ fun st => ?_
  split
  · exact {}
  split <;> exact {}

theorem serveRdr (b : Byte) (n : Word32) : SameRun chn s (Machine.serveRdr b n s).1 := by
  unfold Machine.serveRdr
  split
  · exact ⟨rfl, rfl, .inr rfl⟩
  split
  · exact ⟨rfl, rfl, .inr rfl⟩
  split
  · exact ⟨rfl, rfl, .inr rfl⟩
  split <;> exact ⟨rfl, rfl, .inr rfl⟩

theorem serveRlr (n : Word32) : SameRun chn s (Machine.serveRlr n s).1 := by
  unfold Machine.serveRlr
  split
  · exact {}
  split
  · exact {}
  · exact {}

/-- Every message's rule leaves the queue of commands and line time. -/
theorem serveCommand (c : Instr) : SameRun (∃ tag f, c = .chn tag f) s (Machine.serveCommand c s).1 := by
  cases c with
  | cfg _ f => exact serveCfg f
  | stt _ f => exact serveStt f
  | abt _ b => exact serveAbt b
  | rel _ b => exact serveRel b
  | ena _ b e => exact serveEna b e
  | rds _ b => exact withStation b fun _ => {}
  | skg _ b => exact serveSkg b
  | ldr _ body => exact serveLdr body
  | drp _ v => exact serveDrp v
  | pin _ v p => exact servePin v p
  | rrs _ v => exact withEntry v fun _ _ _ => {}
  | lim _ es => exact serveLim es
  | msk _ xs => exact serveMsk xs
  | rdm _ b => exact serveRdm b
  | clf _ b ps => exact serveClf b ps
  | chn tag f => exact (serveChn f).mono fun _ => ⟨tag, f, rfl⟩
  | rdr _ b n => exact serveRdr b n
  | rlr _ n => exact serveRlr n
  | _ => exact ⟨rfl, rfl, .inr rfl⟩

theorem serveChecked (c : Instr) : SameRun (∃ tag f, c = .chn tag f) s (Machine.serveChecked c s).1 := by
  unfold Machine.serveChecked
  split
  · split
    · exact serveStt _
    · exact {}
  · split
    · exact serveLdr _
    · exact {}
  · exact serveCommand c

theorem serveFrame (kind tag : Byte) (p : List Byte) : SameRun (kind = 0x38) s (Machine.serveFrame kind tag p s).1 := by
  unfold Machine.serveFrame
  split
  · exact {}
  rename_i c hrequest
  split
  · refine (serveCommand c).mono fun ⟨t, f, hc⟩ => ?_
    exact requestOf_chn (hrequest.trans (congrArg _ hc))
  · exact {}

theorem goodFrame (kind tag : Byte) {serve : State → State × List Byte} (hserve : ∀ v : State, SameRun chn v (serve v).1) :
    SameRun (s.link.slot = none ∧ chn) s (Machine.goodFrame kind tag serve s) := by
  obtain ⟨hpending, hnow, hcond⟩ := hserve (s.modLink Link.hunt)
  unfold Machine.goodFrame
  simp only
  split
  · exact {}
  · rename_i hslot
    exact ⟨by simpa using hpending, by simpa using hnow,
      hcond.imp (fun hchn => ⟨Option.not_isSome_iff_eq_none.mp hslot, hchn⟩) fun hcond => by simpa using hcond⟩

theorem receive (b : Byte) :
    SameRun (s.CompletesChn b) s (s.receive b) := by
  unfold State.receive
  split
  · split <;> exact {}
  split
  · rename_i frame hframe
    unfold State.takeFrame
    split
    · rename_i hgood
      exact (goodFrame _ _ fun _ => serveFrame _ _ _).mono fun ⟨hslot, hkind⟩ => ⟨frame, hframe, hkind, hgood, hslot⟩
    · exact {}
  · split <;> exact {}
  · exact {}

theorem transmitEnd : SameRun chn s s.transmitEnd := by
  unfold State.transmitEnd
  split
  · exact {}
  · split
    · exact ⟨rfl, rfl, .inr rfl⟩
    · exact {}
  · exact {}

/-- The emergency stop's chain over the stations. -/
theorem estopStations (order : List Station) : ∀ u : State, SameRun chn s u → SameRun chn s (order.foldl State.estopStation u) := by
  induction order with
  | nil => exact fun _ hu => hu
  | cons st rest ih => exact fun u ⟨hpending, hnow, hcond⟩ => ih _ ⟨by simpa using hpending,
      by simpa using hnow, hcond.imp_right fun hcond => by simpa using hcond⟩

end State.SameRun

/-- An index event moves the clock's microseconds alone (R77), and leaves the conditioning. -/
theorem State.index_now (s : State) (st : Station) (us : Fin 1000) (r : AccelReading) :
    (s.index st us r).clock.now = s.clock.now ∧ (s.index st us r).cond = s.cond := by
  have htaken : (s.takeIndex st us r).clock.now = s.clock.now ∧ (s.takeIndex st us r).cond = s.cond := by simp [takeIndex]
  unfold index
  simp only
  split
  · split <;> simpa using htaken
  · split <;> simpa using htaken

/-- An arrival that ends something and completes no CHN. -/
theorem completes_of_receive {chn : Prop} {due : State → Byte → Bool} {b : Byte} {s : State}
    (h : due s b = true → ¬s.CompletesChn b) : Completes chn (eventWhen (fun s => due s b) (fun s => s.receive b) s) s := by
  cases hdue : due s b with
  | true =>
    obtain ⟨hpending, hnow, hcond⟩ := (State.SameRun.receive (s := s) b).mono (h hdue)
    exact ⟨_, eventWhen_taken _ _ s hdue, by simpa using hpending, by simpa using hnow,
      .inr (by simpa using hcond.resolve_left not_false)⟩
  | false => exact ⟨s, eventWhen_absent _ _ s hdue, {}⟩

/-- The command serves a CHN: it is one, or the byte that completes one's frame. -/
def ServesChn (c : Instr) (s : State) : Prop :=
  (∃ tag f, c = .chn tag f) ∨ ∃ b, c = .byteArrival b ∧ s.CompletesChn b

/-- Every command but power-on completes with the queue and line time as they were, and but for CHN with the conditioning. -/
theorem exec_completes {c : Instr} (hpower : ∀ pins, c ≠ .powerOnReset pins) (s : State) :
    Completes (ServesChn c s) (exec c s) s := by
  by_cases hrequest : ∃ x, requestParts c = some x
  · obtain ⟨⟨kind, tag, p⟩, hparts⟩ := hrequest
    exact ⟨_, exec_of_requestParts hparts s, 
      (State.SameRun.goodFrame kind tag fun _ => State.SameRun.serveChecked c).mono fun h => .inl h.2⟩
  cases c with
  | powerOnReset pins => exact absurd rfl (hpower pins)
  | restart => exact exec_restart s ▸ completes_of_eventWhen ⟨rfl, rfl, .inr rfl⟩
  | emergencyStop order => exact exec_emergencyStop s order ▸ completes_of_eventWhen (.estopStations _ _ ⟨rfl, rfl, .inr rfl⟩)
  | emergencyStopRelease => exact ⟨_, rfl, ⟨rfl, rfl, .inr rfl⟩⟩
  | driveFault st active => exact exec_driveFault s st active ▸ completes_of_event {}
  | monitorSample x => exact exec_monitorSample s x ▸ completes_of_event {}
  | quantityLost x => exact exec_quantityLost s x ▸ completes_of_eventWhen {}
  | checkAveraged x => exact exec_checkAveraged s x ▸ completes_of_eventWhen {}
  | measureEnd x => exact exec_measureEnd s x ▸ completes_of_eventWhen {}
  | standstillConfirmed st b => exact exec_standstillConfirmed s st b ▸ completes_of_eventWhen {}
  | driveUpdate st => exact ⟨_, rfl, {}⟩
  | encoderIndex st us r => exact exec_encoderIndex s st us r ▸ completes_of_event { now := (s.index_now st us r).1, cond := .inr (s.index_now st us r).2 }
  | kReached st us r => exact exec_kReached s st us r ▸ completes_of_eventWhen { now := (s.index_now st us r).1, cond := .inr (s.index_now st us r).2 }
  | groupUnsteady st us r => exact exec_groupUnsteady s st us r ▸ completes_of_eventWhen { now := (s.index_now st us r).1, cond := .inr (s.index_now st us r).2 }
  | engineCompletion e => exact exec_engineCompletion s e ▸ completes_of_eventWhen {}
  | engineGrant e => exact exec_engineGrant s e ▸ completes_of_event {}
  | deferredClaim st => exact exec_deferredClaim s st ▸ completes_of_eventWhen {}
  | engineWaitExpiry st => exact exec_engineWaitExpiry s st ▸ completes_of_eventWhen {}
  | rampTimeout st => exact exec_rampTimeout s st ▸ completes_of_eventWhen {}
  | dwellDurationExpiry st => exact exec_dwellDurationExpiry s st ▸ completes_of_eventWhen {}
  | extendTimeout st => exact exec_extendTimeout s st ▸ completes_of_eventWhen {}
  | gateTimeout st => exact exec_gateTimeout s st ▸ completes_of_eventWhen {}
  | stopTimeout st => exact exec_stopTimeout s st ▸ completes_of_eventWhen {}
  | standstillTimerExpiry st => exact exec_standstillTimerExpiry s st ▸ completes_of_eventWhen {}
  | fillTimerExpiry st => exact exec_fillTimerExpiry s st ▸ completes_of_eventWhen {}
  | settleTimerExpiry st => exact exec_settleTimerExpiry s st ▸ completes_of_eventWhen {}
  | ventTimerExpiry st => exact exec_ventTimerExpiry s st ▸ completes_of_eventWhen {}
  | supplyGrant => exact exec_supplyGrant s ▸ completes_of_event {}
  | deposit => exact exec_deposit s ▸ completes_of_eventWhen {}
  | autoSnapshotExpiry => exact exec_autoSnapshotExpiry s ▸ completes_of_eventWhen {}
  | gapTimerExpiry => exact exec_gapTimerExpiry s ▸ completes_of_eventWhen {}
  | lengthOutOfRange b => exact exec_lengthOutOfRange s b ▸ completes_of_receive fun h => not_completesChn (.inl h)
  | crcMismatch b => exact exec_crcMismatch s b ▸ completes_of_receive fun h => not_completesChn (.inr (.inl h))
  | frameDiscardedBusy b => exact exec_frameDiscardedBusy s b ▸ completes_of_receive fun h => not_completesChn (.inr (.inr (.inl h)))
  | unknownKind b => exact exec_unknownKind s b ▸ completes_of_receive fun h => not_completesChn (.inr (.inr (.inr h)))
  | transmitEnd => exact ⟨_, rfl, .transmitEnd⟩
  | transmitStart => exact ⟨_, rfl, ⟨rfl, rfl, .inr rfl⟩⟩
  | byteArrival b => exact ⟨_, rfl, (State.SameRun.receive b).mono fun h => .inr ⟨b, rfl, h⟩⟩
  | encoderLine st forward r => exact exec_encoderLine s st forward r ▸ completes_of_event {}
  | _ => exact absurd ⟨_, rfl⟩ hrequest

/-- Settles O3. -/
theorem everyCommandCompletes : Obligations.EveryCommandCompletes := by
  intro c s
  by_cases hpower : ∃ pins, c = .powerOnReset pins
  · obtain ⟨pins, rfl⟩ := hpower
    exact ⟨_, rfl, rfl, fun hne => absurd rfl (hne pins)⟩
  · obtain ⟨t, ht, hpending, hnow, -⟩ := exec_completes (fun pins hc => hpower ⟨pins, hc⟩) s
    exact ⟨t, ht, hpending, fun _ => hnow⟩

/-! ### The drive (R68, R69) -/

/-- A drive update, by the gap to the target (R69). -/
theorem Drive.update_eq (d : Drive) : d.update = { d with setpoint :=
    if d.target - d.setpoint > d.rate then d.setpoint + d.rate
    else if d.setpoint - d.target > d.rate then d.setpoint - d.rate
    else d.target } := by
  unfold Drive.update
  simp only
  split
  · rw [if_neg (by omega), if_neg (by omega)]
  · split
    · rw [if_pos (by omega)]
    · rw [if_neg (by omega), if_pos (by omega)]

/-- A drive update does not overstep the target. -/
theorem Drive.update_nearer (d : Drive) :
    (d.update.setpoint - d.update.target).natAbs ≤ (d.setpoint - d.target).natAbs := by
  rw [Drive.update_eq]
  simp only
  split
  · omega
  · split <;> omega

/-- The port's rpm are the setpoint truncated toward zero (R68). -/
theorem Drive.rpm_truncates (d : Drive) :
    (0 ≤ d.setpoint → 0 ≤ d.rpm ∧ 100 * d.rpm ≤ d.setpoint ∧ d.setpoint < 100 * d.rpm + 100)
    ∧ (d.setpoint ≤ 0 → d.rpm ≤ 0 ∧ d.setpoint ≤ 100 * d.rpm ∧ 100 * d.rpm - 100 < d.setpoint) := by
  unfold Drive.rpm
  refine ⟨fun h => ?_, fun h => ?_⟩
  · rw [Int.tdiv_eq_ediv_of_nonneg h]
    omega
  · have hneg : d.setpoint.tdiv 100 = -((-d.setpoint) / 100) := by
      rw [← Int.tdiv_eq_ediv_of_nonneg (by omega), Int.neg_tdiv, neg_neg]
    rw [hneg]
    omega

/-- Settles O18. -/
theorem driveUpdateRampsSetpoint : Obligations.DriveUpdateRampsSetpoint := by
  intro st s
  refine ⟨s.modDrive st Drive.update, rfl, ?_, ?_, fun j => ?_⟩
  · simp only [State.modDrive]
    congr 1
    refine Vector.ext fun i hi => ?_
    rw [PerStation.getElem_upd (j := ⟨i, hi⟩), PerStation.getElem_upd (j := ⟨i, hi⟩)]
    split
    · rename_i hst; subst hst; exact Drive.update_eq _
    · rfl
  · simpa using Drive.update_nearer s.drive[st]
  · obtain ⟨hpos, hneg⟩ := Drive.rpm_truncates (s.modDrive st Drive.update).drive[j]
    exact ⟨hpos, hneg, rfl, rfl⟩

/-! ### The verdict (R164) -/

/-- The record holds a failed step, group, leak result or check (R164). -/
def Record.hasFailure (r : Record) : Prop :=
  (∃ x ∈ r.steps, x.outcome = .failed) ∨ (∃ x ∈ r.groups, x.outcome = .fail)
    ∨ (∃ x ∈ r.leaks, x.outcome = .failFill ∨ x.outcome = .failGross ∨ x.outcome = .failLeak ∨ x.outcome = .rise)
    ∨ (∃ x ∈ r.checks, x.pass = false)

/-- The record holds a group or leak result without a judgement (R164). -/
def Record.hasGap (r : Record) : Prop :=
  (∃ x ∈ r.groups, x.outcome = .incomplete ∨ x.outcome = .notMeasured ∨ x.outcome = .notCompleted)
    ∨ (∃ x ∈ r.leaks, x.outcome = .incomplete)

theorem LeakOutcome.failed_iff (o : LeakOutcome) :
    o.failed = true ↔ o = .failFill ∨ o = .failGross ∨ o = .failLeak ∨ o = .rise := by
  cases o <;> simp [LeakOutcome.failed]

/-- The verdict is composed in the order of R164. -/
theorem Record.compose_spec (r : Record) :
    (r.cause ≠ none ∧ r.compose = .aborted) ∨ (r.cause = none ∧ r.hasFailure ∧ r.compose = .fail)
    ∨ (r.cause = none ∧ ¬r.hasFailure ∧ r.hasGap ∧ r.compose = .incomplete)
    ∨ (r.cause = none ∧ ¬r.hasFailure ∧ ¬r.hasGap ∧ r.compose = .pass) := by
  have hfail : (r.steps.any (fun x => x.outcome == .failed) || r.groups.any (fun x => x.outcome == .fail)
      || r.leaks.any (fun x => x.outcome.failed) || r.checks.any (fun x => !x.pass)) = true ↔ r.hasFailure := by
    simp only [Bool.or_eq_true, List.any_eq_true, beq_iff_eq, LeakOutcome.failed_iff, Bool.not_eq_true', Record.hasFailure,
      or_assoc]
  have hgap : (r.groups.any (fun x => x.outcome == .incomplete || x.outcome == .notMeasured || x.outcome == .notCompleted)
      || r.leaks.any (fun x => x.outcome == .incomplete)) = true ↔ r.hasGap := by
    simp only [Bool.or_eq_true, List.any_eq_true, beq_iff_eq, Record.hasGap, or_assoc]
  unfold Record.compose
  split
  · rename_i hcause
    exact .inl ⟨Option.isSome_iff_ne_none.mp hcause, rfl⟩
  · rename_i hcause
    have hnone : r.cause = none := by simpa using hcause
    split
    · rename_i hf; exact .inr (.inl ⟨hnone, hfail.mp hf, rfl⟩)
    · rename_i hf
      split
      · rename_i hg; exact .inr (.inr (.inl ⟨hnone, hf ∘ hfail.mpr, hgap.mp hg, rfl⟩))
      · rename_i hg; exact .inr (.inr (.inr ⟨hnone, hf ∘ hfail.mpr, hg ∘ hgap.mpr, rfl⟩))

/-- Every group and leak result PASS, no step failed and every check passed: neither a failure nor a gap. -/
theorem Record.clean_iff (r : Record) : (¬r.hasFailure ∧ ¬r.hasGap) ↔
    (∀ x ∈ r.steps, x.outcome ≠ .failed) ∧ (∀ x ∈ r.groups, x.outcome = .pass) ∧ (∀ x ∈ r.leaks, x.outcome = .pass)
      ∧ (∀ x ∈ r.checks, x.pass = true) := by
  have hgroup : ∀ x : GroupResult, x.outcome = .pass ↔ x.outcome ≠ .fail
      ∧ ¬(x.outcome = .incomplete ∨ x.outcome = .notMeasured ∨ x.outcome = .notCompleted) := fun x => by
    cases x.outcome <;> simp
  have hleak : ∀ x : LeakResult, x.outcome = .pass ↔
      ¬(x.outcome = .failFill ∨ x.outcome = .failGross ∨ x.outcome = .failLeak ∨ x.outcome = .rise)
      ∧ x.outcome ≠ .incomplete := fun x => by
    cases x.outcome <;> simp
  simp only [hgroup, hleak, Record.hasFailure, Record.hasGap, not_or, not_exists, not_and, Bool.not_eq_false, ne_eq]
  constructor
  · rintro ⟨⟨hs, hg, hl, hc⟩, hg', hl'⟩
    exact ⟨hs, fun x hx => ⟨hg x hx, hg' x hx⟩, fun x hx => ⟨hl x hx, hl' x hx⟩, hc⟩
  · rintro ⟨hs, hg, hl, hc⟩
    exact ⟨⟨hs, fun x hx => (hg x hx).1, fun x hx => (hl x hx).1, hc⟩, fun x hx => (hg x hx).2, fun x hx => (hl x hx).2⟩

/-- Settles O22. -/
theorem verdictFollowsRecord : Obligations.VerdictFollowsRecord := by
  intro r
  rw [← Record.clean_iff]
  change _ ∧ (_ ↔ _ ∧ r.hasFailure) ∧ _
  rcases r.compose_spec with ⟨hc, hv⟩ | ⟨hc, hf, hv⟩ | ⟨hc, hf, hg, hv⟩ | ⟨hc, hf, hg, hv⟩ <;> simp [*]

end Sys2Proof.Machine
end

section
/-! PROOFS. Requests and their replies (R190 to R192): what a rule leaves of the Link Interface, and its answer. -/

namespace Sys2Proof.Machine

open Sys2Proof

set_option Elab.async false

namespace State

/-- The receiver, the reply slot and the transmitter are as they were. -/
structure SameReceiver (s t : State) : Prop where
  recv : t.link.recv = s.link.recv := by simp
  frame : t.link.frame = s.link.frame := by simp
  expected : t.link.expected = s.link.expected := by simp
  gapStart : t.link.gapStart = s.link.gapStart := by simp

namespace SameReceiver

variable {s t u : State}

theorem trans (h : s.SameReceiver t) (h' : t.SameReceiver u) : s.SameReceiver u :=
  ⟨h'.recv.trans h.recv, h'.frame.trans h.frame, h'.expected.trans h.expected, h'.gapStart.trans h.gapStart⟩

theorem of_link (h : t.link = s.link := by simp) : s.SameReceiver t := ⟨by rw [h], by rw [h], by rw [h], by rw [h]⟩

theorem setSet (h : s.SameReceiver u) (i : Fin 8) (set : RecipeSet) : s.SameReceiver (u.setSet i set) := h.trans (of_link rfl)

theorem giveNotice (h : s.SameReceiver u) (b : NoticeBody) : s.SameReceiver (u.giveNotice b) := by
  refine h.trans ?_
  unfold State.giveNotice
  split <;> exact ⟨rfl, rfl, rfl, rfl⟩

theorem retire (h : s.SameReceiver u) (e : Entry) : s.SameReceiver (u.retire e) := by
  unfold State.retire
  split
  · exact (h.trans of_link).giveNotice _
  · exact h

theorem depositStation (h : s.SameReceiver u) (st : Station) : s.SameReceiver (u.depositStation st) := by
  unfold State.depositStation
  split
  · exact (h.trans of_link).giveNotice _
  · exact h

theorem depositHead (h : s.SameReceiver u) : s.SameReceiver u.depositHead := by
  unfold State.depositHead
  split
  · rename_i rest _ _ _
    exact depositStation (u := { u with store := { u.store with deposit := rest } }) (h.trans (of_link rfl)) _
  · exact h

theorem offerRecord (h : s.SameReceiver u) (st : Station) : s.SameReceiver (u.offerRecord st) := by
  unfold State.offerRecord
  split
  · exact h.depositStation st
  · exact h.trans (of_link rfl)

theorem enterStopping (h : s.SameReceiver u) (st : Station) (cause : Option AbortCause) (drop : Bool) :
    s.SameReceiver (u.enterStopping st cause drop) := by
  have hdriven : ∀ v : State, s.SameReceiver v → s.SameReceiver (if drop then v.modDrive st (fun _ => Drive.off) else v.stopDrive st) := by
    intro v hv
    split
    · exact hv.trans of_link
    · exact hv.trans of_link
  unfold State.enterStopping
  simp only
  split
  · exact (hdriven _ (h.trans of_link)).giveNotice _
  · exact hdriven _ (h.trans of_link)

theorem chainEnd (h : s.SameReceiver u) (st : Station) : s.SameReceiver (u.chainEnd st) := by
  unfold State.chainEnd
  split
  · exact (h.trans (of_link (t := (u.leaveRunning st).enterCompleting st))).offerRecord st
  · exact h.enterStopping st none false

theorem endStep (h : s.SameReceiver u) (st : Station) (o : StepOutcome) : s.SameReceiver (u.endStep st o) := by
  unfold State.endStep
  split
  · exact h
  · unfold State.nextStep
    split
    · exact h.trans of_link
    · exact (h.trans of_link).chainEnd st

theorem startTest (h : s.SameReceiver u) (st : Station) (f : SttFields) (r : Recipe) (ref : RecipeRef)
    (thr : Vector Thresholds 6) : s.SameReceiver (u.startTest st f r ref thr) := by
  have hreport : ∀ v, s.SameReceiver v → s.SameReceiver (if v.pins.driveFault[st] then v.driveFaultReport st else v) := by
    intro v hv
    split
    · unfold State.driveFaultReport
      split
      · split
        · exact hv.enterStopping st _ _
        · exact hv.trans of_link
        all_goals exact hv
      · exact hv
    · exact hv
  unfold State.startTest
  refine hreport _ ?_
  split <;> exact h.trans of_link

end SameReceiver

end State

/-- A rule's answer: the receiver as it was, and a payload that begins with a status (R192). -/
structure Answers (s : State) (x : State × List Byte) : Prop where
  receiver : s.SameReceiver x.1
  status : ∃ y : Status, x.2.head? = some y.code

namespace Answers

variable {s : State}

theorem refuse (x : Status) : Answers s (Machine.refuse s x) := ⟨.of_link rfl, x, rfl⟩

theorem answer {t : State} (h : s.SameReceiver t) (fields : List Byte) : Answers s (Machine.answer t fields) := ⟨h, .ok, rfl⟩

theorem read (fields : List Byte) : Answers s (Machine.answer s fields) := answer (.of_link rfl) fields

theorem withStation (b : Byte) {f : Station → State × List Byte} (hf : ∀ st, Answers s (f st)) :
    Answers s (Machine.withStation b s f) := by
  unfold Machine.withStation
  split
  · exact refuse _
  · exact hf _

theorem withEntry (v : Word16) {f : Fin 8 → Fin 4 → Entry → State × List Byte} (hf : ∀ i w e, Answers s (f i w e)) :
    Answers s (Machine.withEntry v s f) := by
  unfold Machine.withEntry
  split
  · exact refuse _
  split
  · exact refuse _
  · exact hf ..

/-- A refusal of check 6 begins with its status (R17). -/
theorem sttRecipe {f : SttFields} {reply : List Byte} (h : Machine.sttRecipe f s = .error reply) :
    ∃ y : Status, reply.head? = some y.code := by
  unfold Machine.sttRecipe at h
  split at h
  · split at h
    · exact ⟨.recipeMissing, by cases h; rfl⟩
    · exact absurd h nofun
  split at h
  · split at h
    · exact ⟨.recipeInvalid, by cases h; rfl⟩
    · split at h
      · exact ⟨.variantMismatch, by cases h; rfl⟩
      · exact absurd h nofun
  · exact ⟨.badValue, by cases h; rfl⟩

theorem serveStt (f : SttFields) : Answers s (Machine.serveStt f s) := by
  refine withStation _ fun st => ?_
  split
  · exact refuse _
  split
  · exact refuse _
  split
  · exact refuse _
  split
  · exact refuse _
  split
  · exact refuse _
  split
  · rename_i reply hreply; exact ⟨.of_link rfl, sttRecipe hreply⟩
  split
  · exact refuse _
  split
  · exact refuse _
  simp only
  split
  · exact ⟨.of_link rfl, .limitsConflict, rfl⟩
  · exact answer (.startTest (.of_link rfl) ..) _

theorem serveAbt (b : Byte) : Answers s (Machine.serveAbt b s) := by
  refine withStation _ fun st => ?_
  split
  · exact answer (.enterStopping (.of_link rfl) ..) _
  · exact read _
  all_goals exact ⟨.of_link rfl, .state, rfl⟩

theorem serveRel (b : Byte) : Answers s (Machine.serveRel b s) := by
  refine withStation _ fun st => ?_
  split
  · exact answer .of_link _
  · exact refuse _

theorem serveEna (b e : Byte) : Answers s (Machine.serveEna b e s) := by
  refine withStation _ fun st => ?_
  split
  case h_9 | h_10 | h_11 | h_12 => exact refuse _
  all_goals exact answer .of_link _

theorem serveSkg (b : Byte) : Answers s (Machine.serveSkg b s) := by
  refine withStation _ fun st => ?_
  split
  · exact answer (.endStep .of_link ..) _
  · exact refuse _

theorem serveLdr (body : List Byte) : Answers s (Machine.serveLdr body s) := by
  unfold Machine.serveLdr
  split
  · exact ⟨.of_link rfl, .recipeInvalid, rfl⟩
  unfold placeRecipe
  simp only
  split
  · split
    · exact refuse _
    · exact answer (by exact (State.SameReceiver.retire (.of_link rfl) _).setSet _ _) _
  split
  · exact answer .of_link _
  split
  · exact answer (by exact (State.SameReceiver.retire (.of_link rfl) _).setSet _ _) _
  · exact refuse _

theorem serveDrp (v : Word16) : Answers s (Machine.serveDrp v s) := by
  refine withEntry _ fun i w e => ?_
  split
  · exact refuse _
  · exact answer (by exact (State.SameReceiver.retire (.of_link rfl) _).setSet _ _) _

theorem servePin (v : Word16) (p : Byte) : Answers s (Machine.servePin v p s) := by
  unfold Machine.servePin
  split
  · exact refuse _
  · exact withEntry _ fun i w e => answer .of_link _

theorem serveClf (scope : Byte) (ps : List FlagPair) : Answers s (Machine.serveClf scope ps s) := by
  unfold Machine.serveClf
  split
  · exact refuse _
  split
  · exact refuse _
  split
  · exact answer (.of_link (by simp [State.clearStationFlags, allStQuantities])) _
  · exact answer (by exact .of_link rfl) _

theorem serveRdr (b : Byte) (n : Word32) : Answers s (Machine.serveRdr b n s) := by
  have hrefuse : ∀ x, Answers s (refuseRdr s x) := fun x => ⟨.of_link rfl, x, rfl⟩
  unfold Machine.serveRdr
  split
  · exact hrefuse _
  split
  · exact hrefuse _
  split
  · exact read _
  split
  · exact read _
  · exact hrefuse _

theorem serveRlr (n : Word32) : Answers s (Machine.serveRlr n s) := by
  unfold Machine.serveRlr
  split
  · exact refuse _
  split
  · exact refuse _
  · exact answer (by exact .depositHead (.of_link rfl)) _

theorem serveRdm (b : Byte) : Answers s (Machine.serveRdm b s) := by
  unfold Machine.serveRdm
  split
  · exact refuse _
  · exact read _
  · exact read _

theorem serveChn (f : ChnFields) : Answers s (Machine.serveChn f s) := by
  refine withStation _ fun st => ?_
  split
  · exact refuse _
  split
  case h_4 | h_5 | h_6 => exact answer .of_link _
  all_goals exact refuse _

theorem serveCfg (f : CfgFields) : Answers s (Machine.serveCfg f s) := by
  unfold Machine.serveCfg
  split
  · exact refuse _
  split
  · exact refuse _
  · exact answer .of_link _

theorem serveLim (es : List LimEntry) : Answers s (Machine.serveLim es s) := by
  unfold Machine.serveLim
  split
  · exact refuse _
  · exact answer (by exact .of_link rfl) _

theorem serveMsk (xs : List MskSetting) : Answers s (Machine.serveMsk xs s) := by
  unfold Machine.serveMsk
  split
  · exact refuse _
  · exact answer (by exact .of_link rfl) _

end Answers

/-- Every request's rule answers. -/
theorem answers_serveChecked {c : Instr} {kind tag : Byte} {p : List Byte} (h : requestParts c = some (kind, tag, p)) (s : State) :
    Answers s (serveChecked c s) := by
  cases c with
  | idn _ | rdn _ | tbl _ => exact .read _
  | snp _ | pol _ | rst _ => exact ⟨⟨rfl, rfl, rfl, rfl⟩, .ok, rfl⟩
  | cfg _ f => exact .serveCfg f
  | stt _ f =>
    unfold serveChecked
    simp only
    split
    · exact .serveStt f
    · exact .refuse _
  | ldr _ body =>
    unfold serveChecked
    simp only
    split
    · exact .serveLdr body
    · exact .refuse _
  | abt _ b => exact .serveAbt b
  | rel _ b => exact .serveRel b
  | ena _ b e => exact .serveEna b e
  | rds _ b => exact .withStation b fun _ => .read _
  | skg _ b => exact .serveSkg b
  | drp _ v => exact .serveDrp v
  | pin _ v p => exact .servePin v p
  | rrs _ v => exact .withEntry v fun _ _ _ => .answer .of_link _
  | lim _ es => exact .serveLim es
  | msk _ xs => exact .serveMsk xs
  | rdm _ b => exact .serveRdm b
  | clf _ b ps => exact .serveClf b ps
  | chn _ f => exact .serveChn f
  | rdr _ b n => exact .serveRdr b n
  | rlr _ n => exact .serveRlr n
  | _ => exact absurd h nofun

/-- A request's kind is below 0x80. -/
theorem requestParts_kind {c : Instr} {kind tag : Byte} {p : List Byte} (h : requestParts c = some (kind, tag, p)) :
    kind.toNat < 0x80 := by
  cases c <;> cases h <;> decide

/-- A request with the slot empty runs its rule behind the receiver's return to HUNTING, and its reply is placed. -/
theorem exec_request {c : Instr} {kind tag : Byte} {p : List Byte} (h : requestParts c = some (kind, tag, p)) {s : State}
    (hslot : s.link.slot = none) :
    exec c s = .next ((serveChecked c s.received).1.replies (kind + 0x80) tag (serveChecked c s.received).2) :=
  (exec_of_requestParts h s).trans (request_taken kind tag _ s hslot (requestParts_kind h))

/-- A reply placed is in the slot, and leaves the receiver. -/
theorem Link.place_spec (l : Link) (r : Reply) : (l.place r).slot = some r ∧ (l.place r).recv = l.recv
    ∧ (l.place r).frame = l.frame ∧ (l.place r).expected = l.expected ∧ (l.place r).gapStart = l.gapStart := by
  unfold Link.place Link.choose
  split
  · simp
  · simp
  · simp

/-- Settles O4. -/
theorem requestIsTakenOrDiscarded : Obligations.RequestIsTakenOrDiscarded := by
  intro c kind tag p s hparts
  refine ⟨fun hslot => ?_, fun hslot => ?_⟩
  · exact (exec_of_requestParts hparts s).trans (request_discarded kind tag _ s hslot)
  · obtain ⟨⟨hrecv, hframe, hexpected, hgap⟩, hstatus⟩ := answers_serveChecked hparts s.received
    obtain ⟨hplaced, hr, hf, he, hg⟩ := Link.place_spec (serveChecked c s.received).1.link
      ⟨kind + 0x80, tag, (serveChecked c s.received).2⟩
    exact ⟨_, _, exec_request hparts hslot, hplaced, hstatus, hr.trans hrecv, hf.trans hframe, he.trans hexpected,
      hg.trans hgap⟩

/-- RDR with a named selector and a store with records: the oldest, or the one of the number (R169). -/
theorem serveRdr_of_records {sel : Byte} {n : Word32} {s : State} {oldest : Record} {rest : List Record}
    (hrecords : s.store.records = oldest :: rest) (hsel : sel = 0 ∨ sel = 1) :
    serveRdr sel n s = if sel = 0 then answer s (s.occupancy :: oldest.bytes)
      else match (oldest :: rest).find? (fun r => r.number == some n.toNat) with
        | some r => answer s (s.occupancy :: r.bytes)
        | none => refuseRdr s .notFound := by
  unfold serveRdr
  rw [if_neg (by rcases hsel with rfl | rfl <;> decide), hrecords] <;> rfl

/-- RDR with a named selector and an empty store (R169). -/
theorem serveRdr_of_empty {sel : Byte} {n : Word32} {s : State} (hrecords : s.store.records = []) (hsel : sel = 0 ∨ sel = 1) :
    serveRdr sel n s = refuseRdr s .empty := by
  unfold serveRdr
  rw [if_neg (by rcases hsel with rfl | rfl <;> decide), hrecords]

/-- A scope of 7 to 127 names no station (R93, R204). -/
theorem scopeOf_badStation {b : Byte} (hlo : 6 < b.toNat) (hhi : b.toNat < 128) : scopeOf b = .error .badStation := by
  unfold scopeOf
  rw [if_neg (fun h => by subst h; simp at hlo), stationOf_eq_none b (.inr hlo)]
  simp only
  rw [if_pos (by omega)]

/-- A scope of 128 to 255 is no value of a scope (R93, R204). -/
theorem scopeOf_badValue {b : Byte} (h : 128 ≤ b.toNat) : scopeOf b = .error .badValue := by
  unfold scopeOf
  rw [if_neg (fun hb => by subst hb; simp at h), stationOf_eq_none b (.inr (by omega))]
  simp only
  rw [if_neg (by omega)]

/-- Settles O17. -/
theorem readsChangeNothing : Obligations.ReadsChangeNothing := by
  intro tag s hslot
  have hrdm : ∀ b, exec (.rdm tag b) s =
      .next ((serveRdm b s.received).1.replies 0xB2 tag (serveRdm b s.received).2) :=
    fun b => exec_request (c := .rdm tag b) rfl hslot
  have hrds : ∀ b, exec (.rds tag b) s =
      .next ((serveRds b s.received).1.replies 0x94 tag (serveRds b s.received).2) :=
    fun b => exec_request (c := .rds tag b) rfl hslot
  have hrdr : ∀ b n, exec (.rdr tag b n) s =
      .next ((serveRdr b n s.received).1.replies 0xC0 tag (serveRdr b n s.received).2) :=
    fun b n => exec_request (c := .rdr tag b n) rfl hslot
  refine ⟨exec_request (c := .idn tag) rfl hslot, fun st => ?_, exec_request (c := .tbl tag) rfl hslot, fun st => ?_,
    hrdm 0, fun n oldest rest hrecords => ?_, fun n r hfind => ?_, exec_request (c := .rdn tag) rfl hslot, fun b hb => ?_,
    fun b => ⟨fun hlo hhi => ?_, fun hhi => ?_⟩, fun sel n => ⟨fun h0 h1 => ?_, fun hsel hnil => ?_, fun hsel hne hnone => ?_⟩⟩
  · rw [hrds, serveRds, withStation_stationCode]; rfl
  · rw [hrdm, serveRdm, scopeOf_stationCode]; rfl
  · have hrecords' : s.received.store.records = oldest :: rest := hrecords
    rw [hrdr, serveRdr_of_records hrecords' (.inl rfl), if_pos rfl, State.occupancy, hrecords']
    rfl
  · obtain ⟨oldest, rest, hrecords⟩ := List.exists_cons_of_ne_nil (List.ne_nil_of_mem (List.mem_of_find?_eq_some hfind))
    have hrecords' : s.received.store.records = oldest :: rest := hrecords
    rw [hrdr, serveRdr_of_records hrecords' (.inr rfl), if_neg (by decide), ← hrecords, hfind]
    rfl
  · rw [hrds, serveRds, withStation_badStation _ _ _ hb]
  · rw [hrdm, serveRdm, scopeOf_badStation hlo hhi]; rfl
  · rw [hrdm, serveRdm, scopeOf_badValue hhi]; rfl
  · rw [hrdr, serveRdr, if_pos ⟨h0, h1⟩]; rfl
  · have hnil' : s.received.store.records = [] := hnil
    rw [hrdr, serveRdr_of_empty hnil' hsel, refuseRdr, State.occupancy, hnil']
    rfl
  · obtain ⟨oldest, rest, hrecords⟩ := List.exists_cons_of_ne_nil hne
    have hmiss : (oldest :: rest).find? (fun r => r.number == some n.toNat) = none :=
      List.find?_eq_none.mpr fun r hr => by simpa using hnone r (hrecords ▸ hr)
    have hrecords' : s.received.store.records = oldest :: rest := hrecords
    rw [hrdr, serveRdr_of_records hrecords' (.inr hsel), if_neg (by rw [hsel]; decide), hmiss]
    rfl

end Sys2Proof.Machine
end

section
/-! PROOFS. The link, the line configuration, snapshots, and the restart behind RST's reply. -/

namespace Sys2Proof.Machine

open Sys2Proof

set_option Elab.async false

/-- An event that gives no notice is its effect. -/
theorem eventWhen_quiet {due : State → Bool} {f : State → State} {s : State} (h : due s = true)
    (hqueue : (f s).link.queue.length ≤ s.link.queue.length) : eventWhen due f s = .next (f s) := by
  rw [eventWhen_taken due f s h, State.afterNotices, if_neg (by omega)]

/-! ### Snapshots (R178 to R184) -/

theorem State.autoSnapshotDue_iff (s : State) : s.autoSnapshotDue = true ↔
    ∃ since, s.counters.autoStart = some since ∧ s.config.autoInterval * 1000 ≤ elapsed since s.now := by
  unfold autoSnapshotDue
  cases s.counters.autoStart <;> simp

theorem exec_autoSnapshotExpiry_due {s : State} (h : s.autoSnapshotDue = true) :
    exec .autoSnapshotExpiry s = .next (s.snapshot .auto) :=
  (exec_autoSnapshotExpiry s).trans (eventWhen_quiet h le_rfl)

theorem exec_snp_taken (tag : Byte) {s : State} (h : s.link.slot = none) : exec (.snp tag) s =
    .next ((s.received.snapshot .snp).replies 0xC8 tag (0x00 :: (s.received.snapshot .snp).counters.snapshot.bytes)) :=
  exec_request (c := .snp tag) rfl h

/-- Settles O46. -/
theorem snapshotCopiesAndZeroes : Obligations.SnapshotCopiesAndZeroes := by
  refine ⟨fun s cause t h => ?_, fun s hdue => ?_, fun tag s hslot => ?_, fun tag s hslot => ?_⟩
  · rcases h with ⟨rfl, hdue, ht⟩ | ⟨rfl, tag, hslot, ht, -⟩
    · obtain rfl := Host.Outcome.next.inj ((exec_autoSnapshotExpiry_due (s.autoSnapshotDue_iff.mpr hdue)).symm.trans ht)
      exact ⟨rfl, rfl, rfl, rfl, rfl, rfl⟩
    · obtain rfl := Host.Outcome.next.inj ((exec_snp_taken tag hslot).symm.trans ht)
      exact ⟨rfl, rfl, rfl, rfl, rfl, rfl⟩
  · exact ⟨_, exec_autoSnapshotExpiry_due (s.autoSnapshotDue_iff.mpr hdue), rfl⟩
  · exact ⟨_, exec_snp_taken tag hslot, (Link.place_spec _ _).1⟩
  · exact exec_request (c := .pol tag) rfl hslot

/-! ### CFG (R197, R198) -/

theorem lineModeOf_code (m : LineMode) : lineModeOf m.code = some m := by cases m <;> rfl

theorem lineModeOf_eq_none {b : Byte} (h0 : b ≠ 0) (h1 : b ≠ 1) : lineModeOf b = none := by
  unfold lineModeOf
  rw [if_neg h0, if_neg h1]

theorem State.anyTesting_iff (s : State) : s.anyTesting = true ↔
    ∃ st : Station, s.stateOf st = .running ∨ s.stateOf st = .stopping ∨ s.stateOf st = .completing := by
  have hmem : ∀ st : Station, st ∈ allStations := by decide
  simp only [anyTesting, List.any_eq_true, Bool.or_eq_true, beq_iff_eq, hmem, true_and, or_assoc]

/-- The counters after a CFG: a different auto-snapshot interval starts the timer again or stops it (R180, R198). -/
theorem State.configure_counters (s : State) (c : LineConfig) : (s.configure c).counters = { s.counters with
    autoStart :=
      if c.autoInterval = s.config.autoInterval then s.counters.autoStart
      else if c.autoInterval = 0 then none else some s.now } := by
  unfold configure
  simp only
  split <;> rfl

/-- Settles O49. -/
theorem cfgAppliesClampedFields : Obligations.CfgAppliesClampedFields := by
  intro tag f s hslot
  have hexec : exec (.cfg tag f) s =
      .next ((serveCfg f s.received).1.replies 0x82 tag (serveCfg f s.received).2) :=
    exec_request (c := .cfg tag f) rfl hslot
  refine ⟨fun h0 h1 => ?_, fun m hm => ⟨fun hne htest => ?_, fun hmode => ?_⟩⟩
  · rw [hexec, serveCfg, lineModeOf_eq_none h0 h1]; rfl
  · rw [hexec, serveCfg, hm, lineModeOf_code]
    simp only
    rw [if_pos ⟨hne, s.received.anyTesting_iff.mpr htest⟩]
    rfl
  · have hallowed : ¬(m ≠ s.received.config.mode ∧ s.received.anyTesting = true) := by
      rintro ⟨hne, htest⟩
      rcases hmode with heq | hnone
      · exact hne heq
      · obtain ⟨st, hst⟩ := s.received.anyTesting_iff.mp htest
        obtain ⟨hr, hs, hc⟩ := hnone st
        exact hst.elim hr fun h => h.elim hs hc
    have happlied : CfgFields.applied f m =
        { mode := m, patm := max 80000 (min 110000 f.patm.toNat), stopRate := max 100 (min 5000 f.stopRate.toNat)
          standstill := max 1 (min 50 f.standstill.toNat), waitLimit := min 600000 f.waitLimit.toNat
          autoInterval := min 3600 f.autoInterval.toNat } := by
      simp [CfgFields.applied, clampNat]
    rw [hexec, serveCfg, hm, lineModeOf_code]
    simp only
    rw [if_neg hallowed, happlied]
    exact ⟨_, rfl, rfl, rfl, State.configure_counters _ _, rfl, rfl, rfl, rfl, rfl⟩

/-! ### The receiver (R188 to R191) -/

/-- Two bytes as a number, low byte first (R202). -/
theorem toNat_high_low (high low : Byte) : (high ++ low).toNat = low.toNat + 256 * high.toNat := by
  rw [BitVec.toNat_append, ← Nat.shiftLeft_add_eq_or_of_lt low.isLt, Nat.shiftLeft_eq]
  omega

/-- The length field that the second length byte forms (R188). -/
theorem Link.formsLength_second {l : Link} {low : Byte} (hrecv : l.recv = .receiving) (hexpected : l.expected = none)
    (hframe : l.frame = [low]) (b : Byte) : l.formsLength b = some (low.toNat + 256 * b.toNat) := by
  have hlength : (u16At [low, b] 0).toNat = low.toNat + 256 * b.toNat := toNat_high_low b low
  simp [Link.formsLength, hrecv, hexpected, hframe, hlength]

/-- A byte completes no frame before its length is known. -/
theorem Link.completes_unknown {l : Link} (hexpected : l.expected = none) (b : Byte) : l.completes b = none := by
  unfold Link.completes
  rw [hexpected]
  cases l.recv <;> rfl

/-- A byte that forms a length outside its range is LENGTH_OUT_OF_RANGE's (R188). -/
theorem receive_badLength {s : State} {low b : Byte} (hrecv : s.link.recv = .receiving) (hexpected : s.link.expected = none)
    (hframe : s.link.frame = [low]) (hrange : low.toNat + 256 * b.toNat < 2 ∨ 1018 < low.toNat + 256 * b.toNat) :
    s.receive b = s.discardBadFrame ∧ s.lengthOutOfRangeDue b = true := by
  have hforms := Link.formsLength_second hrecv hexpected hframe b
  have hfits : lengthFits (low.toNat + 256 * b.toNat) = false := by simp [lengthFits]; omega
  refine ⟨?_, ?_⟩
  · unfold State.receive
    rw [hrecv, Link.completes_unknown hexpected, hforms]
    simp only [hfits, Bool.false_eq_true, if_false]
  · simp [State.lengthOutOfRangeDue, hforms, hfits]

/-- Settles O50. -/
theorem receiverAndTransmitterGoOn : Obligations.ReceiverAndTransmitterGoOn := by
  refine ⟨fun b s => ⟨fun hrecv hb => ?_, fun hrecv hb => ?_, fun hrecv hexpected hframe => ?_,
    fun low hrecv hexpected hframe => ⟨fun hlo hhi => ?_, fun hrange => ?_⟩, fun n hrecv hexpected hlength => ?_⟩,
    fun since s hrecv hgap hdue => ?_, fun s htx hpending => ?_, fun m s htx => ?_, fun s htx => ?_⟩
  · rw [exec_byteArrival, State.receive, hrecv]
    simp only [if_neg hb]
  · rw [exec_byteArrival, State.receive, hrecv]
    simp only [if_pos hb]
  · have hforms : s.link.formsLength b = none := by simp [Link.formsLength, hrecv, hexpected, hframe]
    rw [exec_byteArrival, State.receive, hrecv, Link.completes_unknown hexpected, hforms]
    simp [State.modLink, Link.append, hframe]
  · have hfits : lengthFits (low.toNat + 256 * b.toNat) = true := by simp [lengthFits]; omega
    rw [exec_byteArrival, State.receive, hrecv, Link.completes_unknown hexpected,
      Link.formsLength_second hrecv hexpected hframe]
    simp [State.modLink, Link.append, hframe, hfits]
  · obtain ⟨hreceive, hdue⟩ := receive_badLength hrecv hexpected hframe hrange
    refine ⟨_, (exec_byteArrival s b).trans (congrArg _ hreceive), ?_, rfl⟩
    rw [exec_lengthOutOfRange, eventWhen_quiet hdue (by rw [hreceive]; exact le_rfl), hreceive]
  · have hcompletes : s.link.completes b = none := by simp [Link.completes, hrecv, hexpected]; omega
    have hforms : s.link.formsLength b = none := by simp [Link.formsLength, hrecv, hexpected]
    rw [exec_byteArrival, State.receive, hrecv, hcompletes, hforms]
    rfl
  · have hgapDue : s.gapTimerDue = true := by simp [State.gapTimerDue, hrecv, hgap, hdue]
    exact (exec_gapTimerExpiry s).trans (eventWhen_quiet hgapDue le_rfl)
  · rw [exec_transmitEnd, State.transmitEnd, htx]
    simp only [hpending, Bool.false_eq_true, if_false]
    rfl
  · rw [exec_transmitEnd, State.transmitEnd, htx]
    simp only [State.modLink, Link.choose]
    cases hs : s.link.slot <;> cases hq : s.link.queue <;> rfl
  · rw [exec_transmitStart]
    simp only [State.modLink, Link.choose, htx]
    cases hs : s.link.slot <;> cases hq : s.link.queue <;> rfl

/-! ### RST and the restart (R25, R26) -/

/-- Settles O9. -/
theorem restartFollowsRstReply : Obligations.RestartFollowsRstReply := by
  refine ⟨fun tag s hslot => exec_request (c := .rst tag) rfl hslot, fun s hpending htx => ?_⟩
  have hdue : s.restartDue = true := by simp [State.restartDue, hpending, htx]
  refine ⟨s.restart, ?_, ?_, fun st => ?_, fun e => ?_, rfl, rfl, rfl, rfl, rfl, rfl, State.restart_table s, rfl, rfl, rfl,
    rfl, ⟨rfl, rfl, rfl, rfl, rfl⟩, rfl, rfl, rfl, rfl, rfl, rfl, rfl⟩
  · rw [exec_restart, eventWhen_quiet hdue (Nat.zero_le _)]
  · rw [exec_transmitEnd, State.transmitEnd, htx]
    simp only [hpending, if_true]
  · have hctx := s.restart_ctx st
    have hcount : s.restart.counters.live.stations[st] = countDiscarded (s.ctx st) s.counters.live.stations[st] :=
      Vector.getElem_zipWith ..
    refine ⟨congrArg StationCtx.state hctx, by rw [hctx]; rfl, by rw [hctx]; rfl, by rw [hctx]; rfl, by rw [hctx]; rfl,
      by rw [hctx]; rfl, by rw [hctx]; rfl, Vector.getElem_replicate _, Vector.getElem_replicate _,
      Vector.getElem_replicate _, Vector.getElem_replicate _, Vector.getElem_replicate _, ?_⟩
    rw [hcount, countDiscarded]
    have htesting : (s.stateOf st).testing = true ↔
        s.stateOf st = .running ∨ s.stateOf st = .stopping ∨ s.stateOf st = .completing := by
      cases s.stateOf st <;> simp [StationState.testing]
    exact if_congr htesting rfl rfl
  · cases e <;> exact ⟨rfl, rfl⟩

end Sys2Proof.Machine
end

section
/-! PROOFS. Frames (R188 to R192, R202 to R206): a request's payload reads back, and the bytes of its frame run its command. -/

namespace Sys2Proof.Machine

open Sys2Proof

set_option Elab.async false

/-! ### Fields of a payload (R202) -/

/-- The high and low byte of a 16-bit field read back. -/
theorem high_append_low (x : Word16) : x.extractLsb' 8 8 ++ x.extractLsb' 0 8 = x := by
  refine BitVec.eq_of_getLsbD_eq fun i hi => ?_
  rw [BitVec.getLsbD_append]
  split
  · simp [BitVec.getLsbD_extractLsb']; omega
  · rw [BitVec.getLsbD_extractLsb', show 8 + (i - 8) = i by omega, decide_eq_true (by omega), Bool.true_and]

/-- The high and low half of a 32-bit field read back. -/
theorem high_append_low_32 (x : Word32) : x.extractLsb' 16 16 ++ x.extractLsb' 0 16 = x := by
  refine BitVec.eq_of_getLsbD_eq fun i hi => ?_
  rw [BitVec.getLsbD_append]
  split
  · simp [BitVec.getLsbD_extractLsb']; omega
  · rw [BitVec.getLsbD_extractLsb', show 16 + (i - 16) = i by omega, decide_eq_true (by omega), Bool.true_and]

@[simp] theorem length_le16 (x : Word16) : (le16 x).length = 2 := rfl

@[simp] theorem length_le32 (x : Word32) : (le32 x).length = 4 := rfl

@[simp] theorem byteAt_zero (b : Byte) (p : List Byte) : byteAt (b :: p) 0 = b := rfl

@[simp] theorem byteAt_succ (b : Byte) (p : List Byte) (i : Nat) : byteAt (b :: p) (i + 1) = byteAt p i := rfl

@[simp] theorem u16At_le16 (x : Word16) (p : List Byte) : u16At (le16 x ++ p) 0 = x := high_append_low x

@[simp] theorem u32At_le32 (x : Word32) (p : List Byte) : u32At (le32 x ++ p) 0 = x := by
  have hlow : u16At (le32 x ++ p) 0 = x.extractLsb' 0 16 := high_append_low _
  have hhigh : u16At (le32 x ++ p) 2 = x.extractLsb' 16 16 := high_append_low _
  rw [u32At, hlow, hhigh, high_append_low_32]

/-- The bytes of a count read back. -/
theorem natAt_byteOf {n : Nat} (h : n ≤ 255) (p : List Byte) : natAt (byteOf n :: p) 0 = n := by
  simp only [natAt, byteAt_zero, byteOf, BitVec.toNat_ofNat]
  omega

/-! A field behind a byte, a 16-bit and a 32-bit field. -/

@[simp] theorem u16At_cons (b : Byte) (p : List Byte) (i : Nat) : u16At (b :: p) (i + 1) = u16At p i := rfl
@[simp] theorem u32At_cons (b : Byte) (p : List Byte) (i : Nat) : u32At (b :: p) (i + 1) = u32At p i := rfl
@[simp] theorem byteAt_skip16 (x : Word16) (p : List Byte) (i : Nat) : byteAt (le16 x ++ p) (i + 2) = byteAt p i := rfl
@[simp] theorem byteAt_skip32 (x : Word32) (p : List Byte) (i : Nat) : byteAt (le32 x ++ p) (i + 4) = byteAt p i := rfl
@[simp] theorem u16At_skip16 (x : Word16) (p : List Byte) (i : Nat) : u16At (le16 x ++ p) (i + 2) = u16At p i := rfl
@[simp] theorem u16At_skip32 (x : Word32) (p : List Byte) (i : Nat) : u16At (le32 x ++ p) (i + 4) = u16At p i := rfl
@[simp] theorem u32At_skip16 (x : Word16) (p : List Byte) (i : Nat) : u32At (le16 x ++ p) (i + 2) = u32At p i := rfl
@[simp] theorem u32At_skip32 (x : Word32) (p : List Byte) (i : Nat) : u32At (le32 x ++ p) (i + 4) = u32At p i := rfl

/-- The last field of a payload. -/
@[simp] theorem u16At_le16_last (x : Word16) : u16At (le16 x) 0 = x := u16At_le16 x []

/-- The fields of a payload written out read back. -/
theorem limEntry_reads (e : LimEntry) (p : List Byte) :
    (⟨byteAt (limEntryBytes e ++ p) 0, u32At (limEntryBytes e ++ p) 1, u32At (limEntryBytes e ++ p) 5,
      u32At (limEntryBytes e ++ p) 9, u32At (limEntryBytes e ++ p) 13⟩ : LimEntry) = e := by
  simp [limEntryBytes]

/-- LIM's entries read back (R204). -/
theorem limEntriesOf_bytes (es : List LimEntry) : limEntriesOf es.length (es.flatMap limEntryBytes) = es := by
  induction es with
  | nil => rfl
  | cons e rest ih =>
    rw [List.flatMap_cons, List.length_cons, limEntriesOf, limEntry_reads]
    exact congrArg (e :: ·) ih

/-- MSK's settings read back (R204). -/
theorem mskSettingsOf_bytes (xs : List MskSetting) :
    mskSettingsOf xs.length (xs.flatMap (fun x => [x.quantity, x.kind, x.mask])) = xs := by
  induction xs with
  | nil => rfl
  | cons x rest ih => exact congrArg (x :: ·) ih

/-- CLF's pairs read back (R204). -/
theorem clfPairsOf_bytes (xs : List FlagPair) : clfPairsOf xs.length (xs.flatMap (fun x => [x.quantity, x.kind])) = xs := by
  induction xs with
  | nil => rfl
  | cons x rest ih => exact congrArg (x :: ·) ih

theorem length_limEntryBytes (es : List LimEntry) : (es.flatMap limEntryBytes).length = 17 * es.length := by
  induction es with
  | nil => rfl
  | cons e rest ih => rw [List.flatMap_cons, List.length_append, ih, List.length_cons]; simp [limEntryBytes]; omega

theorem length_mskBytes (xs : List MskSetting) :
    (xs.flatMap (fun x => [x.quantity, x.kind, x.mask])).length = 3 * xs.length := by
  induction xs with
  | nil => rfl
  | cons e rest ih => rw [List.flatMap_cons, List.length_append, ih, List.length_cons]; simp; omega

theorem length_clfBytes (xs : List FlagPair) : (xs.flatMap (fun x => [x.quantity, x.kind])).length = 2 * xs.length := by
  induction xs with
  | nil => rfl
  | cons e rest ih => rw [List.flatMap_cons, List.length_append, ih, List.length_cons]; simp; omega

/-- CFG's fields read back (R206). -/
theorem cfgOf_bytes (f : CfgFields) : cfgOf (f.mode :: (le32 f.patm ++ le16 f.stopRate ++ le16 f.standstill ++ le32 f.waitLimit
    ++ le16 f.autoInterval)) = f := by
  simp [cfgOf]

/-- CHN's fields read back (R204). -/
theorem chnOf_bytes (f : ChnFields) : chnOf (f.station :: f.channel :: f.mode :: f.invert :: (le32 f.constant
    ++ f.toneOrder :: (le16 f.toneAmplitude ++ f.tonePhase :: le16 f.decayRate))) = f := by
  simp [chnOf]

/-- STT's fields read back (R206). -/
theorem sttOf_bytes (f : SttFields) (h : f.text.length ≤ 255) : sttOf (f.station :: (le32 f.testTag ++ f.source ::
    (le16 f.variant ++ f.checkByte :: byteOf f.text.length :: (f.text ++ f.body)))) = f := by
  have hcount : natAt (f.station :: (le32 f.testTag ++ f.source ::
      (le16 f.variant ++ f.checkByte :: byteOf f.text.length :: (f.text ++ f.body)))) 9 = f.text.length :=
    natAt_byteOf h (f.text ++ f.body)
  have hdrop : ∀ n, (f.station :: (le32 f.testTag ++ f.source :: (le16 f.variant ++ f.checkByte :: byteOf f.text.length ::
      (f.text ++ f.body)))).drop (10 + n) = (f.text ++ f.body).drop n := fun n => by
    rw [← List.drop_drop]; rfl
  simp only [sttOf, hcount, hdrop]
  rw [show (10 : Nat) = 10 + 0 from rfl, hdrop, List.drop_zero, List.take_left, List.drop_left]
  simp

/-- Settles O5. -/
theorem requestPayloadReadsBack : Obligations.RequestPayloadReadsBack := by
  intro c kind tag p hwf hparts
  cases c with
  | cfg t f => cases hparts; exact ⟨congrArg (fun f => some (Instr.cfg tag f)) (cfgOf_bytes f), by simp⟩
  | chn t f => cases hparts; exact ⟨congrArg (fun f => some (Instr.chn tag f)) (chnOf_bytes f), by simp⟩
  | stt t f =>
    cases hparts
    simp only [Instr.wf, SttFields.wf, maxPayload, Bool.and_eq_true, decide_eq_true_eq] at hwf
    have hfits : 10 + f.text.length + f.body.length ≤ 1016 := of_decide_eq_true hwf.2
    refine ⟨congrArg (fun f => some (Instr.stt tag f)) (sttOf_bytes f hwf.1), ?_⟩
    simp
    omega
  | ldr t body =>
    cases hparts
    exact ⟨rfl, of_decide_eq_true hwf⟩
  | lim t es =>
    cases hparts
    have hfits : 1 + 17 * es.length ≤ 1016 := of_decide_eq_true hwf
    refine ⟨?_, by rw [List.length_cons, length_limEntryBytes]; omega⟩
    show some (Instr.lim tag (limEntriesOf (natAt _ 0) _)) = _
    rw [natAt_byteOf (by omega)]
    exact congrArg (fun es => some (Instr.lim tag es)) (limEntriesOf_bytes es)
  | msk t xs =>
    cases hparts
    simp only [Instr.wf, decide_eq_true_eq] at hwf
    refine ⟨?_, by rw [List.length_cons, length_mskBytes]; omega⟩
    show some (Instr.msk tag (mskSettingsOf (natAt _ 0) _)) = _
    rw [natAt_byteOf hwf]
    exact congrArg (fun es => some (Instr.msk tag es)) (mskSettingsOf_bytes xs)
  | clf t sc xs =>
    cases hparts
    simp only [Instr.wf, decide_eq_true_eq] at hwf
    refine ⟨?_, by rw [List.length_cons, List.length_cons, length_clfBytes]; omega⟩
    show some (Instr.clf tag sc (clfPairsOf (natAt (byteOf xs.length :: xs.flatMap (fun x => [x.quantity, x.kind])) 0) _)) = _
    rw [natAt_byteOf hwf]
    exact congrArg (fun es => some (Instr.clf tag sc es)) (clfPairsOf_bytes xs)
  | drp t v => cases hparts; exact ⟨congrArg (fun v => some (Instr.drp tag v)) (u16At_le16 v []), by simp⟩
  | rrs t v => cases hparts; exact ⟨congrArg (fun v => some (Instr.rrs tag v)) (u16At_le16 v []), by simp⟩
  | pin t v b => cases hparts; exact ⟨congrArg (fun v => some (Instr.pin tag v b)) (u16At_le16 v [b]), by simp⟩
  | rdr t sel n => cases hparts; exact ⟨congrArg (fun n => some (Instr.rdr tag sel n)) (u32At_le32 n []), by simp⟩
  | rlr t n => cases hparts; exact ⟨congrArg (fun n => some (Instr.rlr tag n)) (u32At_le32 n []), by simp⟩
  | _ => cases hparts <;> exact ⟨rfl, by simp⟩

end Sys2Proof.Machine
end

section
/-! PROOFS. The receiver (R188 to R192): the bytes of a frame run its command, and a complete frame is judged. -/

namespace Sys2Proof.Machine

open Sys2Proof

set_option Elab.async false

/-! ### Taking a complete frame (R190, R191) -/

/-- A complete frame is taken whatever the receiver holds of it. -/
theorem takeFrame_modLink (s : State) (f : Link → Link) (hf : (f s.link).hunt = s.link.hunt) (frame : List Byte) :
    (s.modLink f).takeFrame frame = s.takeFrame frame := by
  have hhunt : (s.modLink f).modLink Link.hunt = s.modLink Link.hunt := by
    simp only [State.modLink, hf]
  simp only [State.takeFrame, goodFrame, State.discardBadFrame, hhunt]

/-- A byte before a frame's last is appended (R188). -/
theorem receive_append {s : State} {n : Nat} (hrecv : s.link.recv = .receiving) (hexpected : s.link.expected = some n)
    (hlength : s.link.frame.length + 1 ≠ n + 4) (b : Byte) : s.receive b = s.modLink (fun l => l.append b s.now) := by
  have hcompletes : s.link.completes b = none := by simp [Link.completes, hrecv, hexpected]; omega
  have hforms : s.link.formsLength b = none := by simp [Link.formsLength, hrecv, hexpected]
  rw [State.receive, hrecv, hcompletes, hforms]

/-- The frame that the last byte completes (R188). -/
theorem Link.completes_last {l : Link} {n : Nat} (hrecv : l.recv = .receiving) (hexpected : l.expected = some n)
    (hlength : l.frame.length + 1 = n + 4) (b : Byte) : l.completes b = some (l.frame ++ [b]) := by
  simp [Link.completes, hrecv, hexpected, hlength]

/-- A frame's last byte takes it (R190). -/
theorem receive_last {s : State} {n : Nat} (hrecv : s.link.recv = .receiving) (hexpected : s.link.expected = some n)
    (hlength : s.link.frame.length + 1 = n + 4) (b : Byte) : s.receive b = s.takeFrame (s.link.frame ++ [b]) := by
  rw [State.receive, hrecv, Link.completes_last hrecv hexpected hlength]

/-- The rest of a frame, byte by byte, takes it (R188, R190). -/
theorem foldl_receive {n : Nat} : ∀ (b : Byte) (bs : List Byte) (s : State), s.link.recv = .receiving →
    s.link.expected = some n → s.link.frame.length + (b :: bs).length = n + 4 →
    (b :: bs).foldl State.receive s = s.takeFrame (s.link.frame ++ b :: bs)
  | b, [], _, hrecv, hexpected, hlength => receive_last hrecv hexpected hlength b
  | b, c :: rest, s, hrecv, hexpected, hlength => by
    rw [List.length_cons, List.length_cons] at hlength
    rw [List.foldl_cons, receive_append hrecv hexpected (by omega),
      foldl_receive c rest (s.modLink (fun l => l.append b s.now)) hrecv hexpected (by simp [State.modLink, Link.append]; omega)]
    exact (takeFrame_modLink s (fun l => l.append b s.now) rfl _).trans (by simp [State.modLink, Link.append])

/-- The bytes of a frame, from HUNTING, take it (R188, R190). -/
theorem foldl_receive_frame {s : State} (hrecv : s.link.recv = .hunting) {low high b : Byte} {rest : List Byte}
    (hlow : 2 ≤ low.toNat + 256 * high.toNat) (hhigh : low.toNat + 256 * high.toNat ≤ 1018)
    (hlength : (b :: rest).length = low.toNat + 256 * high.toNat + 2) :
    (0xA5 :: low :: high :: b :: rest).foldl State.receive s = s.takeFrame (low :: high :: b :: rest) := by
  have hstart : s.receive 0xA5
      = s.modLink (fun l => { l with recv := .receiving, frame := [], expected := none, gapStart := some s.now }) := by
    rw [State.receive, hrecv]; rfl
  have hlowByte : ∀ t : State, t.link.recv = .receiving → t.link.frame = [] → t.link.expected = none →
      t.receive low = t.modLink (fun l => l.append low t.now) := by
    intro t ht hframe hexpected
    have hforms : t.link.formsLength low = none := by simp [Link.formsLength, ht, hexpected, hframe]
    rw [State.receive, ht, Link.completes_unknown hexpected, hforms]
  have hhighByte : ∀ t : State, t.link.recv = .receiving → t.link.frame = [low] → t.link.expected = none →
      t.receive high = t.modLink (fun l => { l.append high t.now with expected := some (low.toNat + 256 * high.toNat) }) := by
    intro t ht hframe hexpected
    have hfits : lengthFits (low.toNat + 256 * high.toNat) = true := by simp [lengthFits]; omega
    rw [State.receive, ht, Link.completes_unknown hexpected, Link.formsLength_second ht hexpected hframe]
    simp only [hfits, if_true]
  rw [List.foldl_cons, hstart, List.foldl_cons, hlowByte _ rfl rfl rfl, List.foldl_cons, hhighByte _ rfl rfl rfl,
    foldl_receive b rest _ rfl rfl (by rw [hlength]; simp [State.modLink, Link.append]; omega)]
  exact takeFrame_modLink s (fun l => { ({ l with recv := .receiving, frame := [low, high], gapStart := some s.now } : Link) with
    expected := some (low.toNat + 256 * high.toNat) }) rfl _

/-! ### The frame of a request (R202, R204) -/

/-- The bytes a frame's CRC is computed over are those before its last two. -/
theorem frameBody_append (body : List Byte) (x y : Byte) : frameBody (body ++ [x, y]) = body := by
  rw [frameBody, List.length_append]
  exact List.take_left

/-- A byte behind a list. -/
theorem byteAt_append_add (body rest : List Byte) (i : Nat) : byteAt (body ++ rest) (body.length + i) = byteAt rest i := by
  simp only [byteAt, List.getD_eq_getElem?_getD]
  rw [List.getElem?_append_right (by omega), Nat.add_sub_cancel_left]

/-- A frame whose last two bytes are the CRC of the others is good (R190, R202). -/
theorem frameGood_crc (body : List Byte) :
    frameGood (body ++ [(crc16 body).extractLsb' 8 8, (crc16 body).extractLsb' 0 8]) = true := by
  have hhigh : byteAt (body ++ [(crc16 body).extractLsb' 8 8, (crc16 body).extractLsb' 0 8]) body.length
      = (crc16 body).extractLsb' 8 8 := byteAt_append_add body _ 0
  have hlow : byteAt (body ++ [(crc16 body).extractLsb' 8 8, (crc16 body).extractLsb' 0 8]) (body.length + 1)
      = (crc16 body).extractLsb' 0 8 := byteAt_append_add body _ 1
  simp [frameGood, frameBody_append, hhigh, hlow, high_append_low]

/-! The lengths that the kinds of no fixed length allow (R204). -/

theorem lengthAdmitted_stt (p : List Byte) : lengthAdmitted 0x10 p = (decide (10 ≤ p.length) &&
    (decide (10 + natAt p 9 ≤ p.length) && sttTailFits (byteAt p 5) (p.drop (10 + natAt p 9)))) := rfl

theorem lengthAdmitted_lim (p : List Byte) :
    lengthAdmitted 0x30 p = (decide (1 ≤ p.length) && decide (p.length = 1 + 17 * natAt p 0)) := rfl

theorem lengthAdmitted_msk (p : List Byte) :
    lengthAdmitted 0x31 p = (decide (1 ≤ p.length) && decide (p.length = 1 + 3 * natAt p 0)) := rfl

theorem lengthAdmitted_clf (p : List Byte) :
    lengthAdmitted 0x33 p = (decide (2 ≤ p.length) && decide (p.length = 2 + 2 * natAt p 1)) := rfl

/-- A request's frame is served as its command: its payload has the length its kind allow, but for the tail of STT and the
body of LDR, which the command checks (R204). -/
theorem serveFrame_request {c : Instr} {kind tag : Byte} {p : List Byte} (hwf : c.wf = true)
    (hparts : requestParts c = some (kind, tag, p)) (s : State) : serveFrame kind tag p s = serveChecked c s := by
  have hread := (requestPayloadReadsBack c kind tag p hwf hparts).1
  rw [serveFrame, hread]
  cases c with
  | stt t f =>
    cases hparts
    simp only [Instr.wf, SttFields.wf, maxPayload, Bool.and_eq_true, decide_eq_true_eq] at hwf
    have hcount : natAt (f.station :: (le32 f.testTag ++ f.source ::
        (le16 f.variant ++ f.checkByte :: byteOf f.text.length :: (f.text ++ f.body)))) 9 = f.text.length :=
      natAt_byteOf hwf.1 (f.text ++ f.body)
    have hsource : byteAt (f.station :: (le32 f.testTag ++ f.source ::
        (le16 f.variant ++ f.checkByte :: byteOf f.text.length :: (f.text ++ f.body)))) 5 = f.source := rfl
    have hbody : (f.station :: (le32 f.testTag ++ f.source ::
        (le16 f.variant ++ f.checkByte :: byteOf f.text.length :: (f.text ++ f.body)))).drop (10 + f.text.length) = f.body := by
      rw [← List.drop_drop]
      exact List.drop_left
    have hadmitted : lengthAdmitted 0x10 (f.station :: (le32 f.testTag ++ f.source ::
        (le16 f.variant ++ f.checkByte :: byteOf f.text.length :: (f.text ++ f.body)))) = sttTailFits f.source f.body := by
      rw [lengthAdmitted_stt, hcount, hsource, hbody, decide_eq_true (by simp; omega), decide_eq_true (by simp; omega)]
      rfl
    simp only [hadmitted]
    rfl
  | lim t es =>
    cases hparts
    have hfits : 1 + 17 * es.length ≤ 1016 := of_decide_eq_true hwf
    have hadmitted : lengthAdmitted 0x30 (byteOf es.length :: es.flatMap limEntryBytes) = true := by
      rw [lengthAdmitted_lim, natAt_byteOf (by omega), List.length_cons, length_limEntryBytes]
      simp
      omega
    simp only [hadmitted]
    rfl
  | msk t xs =>
    cases hparts
    simp only [Instr.wf, decide_eq_true_eq] at hwf
    have hadmitted : lengthAdmitted 0x31 (byteOf xs.length :: xs.flatMap (fun x => [x.quantity, x.kind, x.mask])) = true := by
      rw [lengthAdmitted_msk, natAt_byteOf (by omega), List.length_cons, length_mskBytes]
      simp
      omega
    simp only [hadmitted]
    rfl
  | clf t sc xs =>
    cases hparts
    simp only [Instr.wf, decide_eq_true_eq] at hwf
    have hadmitted : lengthAdmitted 0x33 (sc :: byteOf xs.length :: xs.flatMap (fun x => [x.quantity, x.kind])) = true := by
      have hcount : natAt (sc :: byteOf xs.length :: xs.flatMap (fun x => [x.quantity, x.kind])) 1 = xs.length :=
        natAt_byteOf hwf (xs.flatMap (fun x => [x.quantity, x.kind]))
      rw [lengthAdmitted_clf, hcount, List.length_cons, List.length_cons, length_clfBytes]
      simp
      omega
    simp only [hadmitted]
    rfl
  | ldr t body => cases hparts; rfl
  | _ => cases hparts <;> rfl

/-- Settles O6. -/
theorem frameBytesRunTheirCommand : Obligations.FrameBytesRunTheirCommand := by
  intro c frame s hwf hframe hrecv
  obtain ⟨⟨kind, tag, p⟩, hparts, rfl⟩ := Option.map_eq_some_iff.mp hframe
  have hlength := (requestPayloadReadsBack c kind tag p hwf hparts).2
  have hfield : ((BitVec.ofNat 16 (2 + p.length)).extractLsb' 0 8).toNat
      + 256 * ((BitVec.ofNat 16 (2 + p.length)).extractLsb' 8 8).toNat = 2 + p.length := by
    rw [← toNat_high_low, high_append_low, BitVec.toNat_ofNat]
    omega
  have hgood := frameGood_crc (nat16 (2 + p.length) ++ kind :: tag :: p)
  have hpayload : ∀ x y, framePayload (nat16 (2 + p.length) ++ kind :: tag :: p ++ [x, y]) = p := fun x y => by
    rw [framePayload, frameBody_append]; rfl
  have htake : s.takeFrame (nat16 (2 + p.length) ++ kind :: tag :: p ++ [(crc16 (nat16 (2 + p.length) ++ kind :: tag :: p)).extractLsb' 8 8,
      (crc16 (nat16 (2 + p.length) ++ kind :: tag :: p)).extractLsb' 0 8]) = goodFrame kind tag (serveChecked c) s := by
    refine (if_pos hgood).trans ?_
    rw [hpayload]
    exact congrArg (fun f => goodFrame kind tag f s) (funext fun t => serveFrame_request hwf hparts t)
  rw [exec_of_requestParts hparts]
  refine congrArg Host.Outcome.next (htake.symm.trans (Eq.symm ?_))
  refine foldl_receive_frame (b := kind) (rest := tag :: p ++ _) hrecv ((by omega : 2 ≤ 2 + p.length).trans_eq hfield.symm)
    (hfield.trans_le (by omega)) (Eq.trans ?_ (congrArg (· + 2) hfield.symm))
  simp
  omega

/-! ### A complete frame is judged (R190 to R192) -/

/-- The byte that completes a frame, in the terms of `Obligations.CompleteFrameIsJudged`. -/
theorem completes_of_expected {s : State} (hrecv : s.link.recv = .receiving)
    (hexpected : s.link.expected = some (s.link.frame.length - 3)) (hlength : 5 ≤ s.link.frame.length) (b : Byte) :
    s.link.completes b = some (s.link.frame ++ [b]) ∧ s.receive b = s.takeFrame (s.link.frame ++ [b]) :=
  ⟨Link.completes_last hrecv hexpected (by omega) b, receive_last hrecv hexpected (by omega) b⟩

/-- A good frame with a reply in the slot is discarded (R191). -/
theorem takeFrame_busy {s : State} {frame : List Byte} (hgood : frameGood frame = true) (hslot : s.link.slot ≠ none) :
    s.takeFrame frame = s.received := by
  have hbusy : (s.modLink Link.hunt).link.slot.isSome = true := Option.isSome_iff_ne_none.mpr hslot
  rw [State.takeFrame, if_pos hgood, goodFrame]
  exact if_pos hbusy

/-- A good frame that a status alone answers (R192). -/
theorem takeFrame_refused {s : State} {frame : List Byte} {x : Status} (hgood : frameGood frame = true)
    (hslot : s.link.slot = none) (hserve : serveFrame (byteAt frame 2) (byteAt frame 3) (framePayload frame) s.received
      = refuse s.received x) :
    s.takeFrame frame = s.received.replies (if (byteAt frame 2).toNat < 0x80 then byteAt frame 2 + 0x80 else byteAt frame 2)
      (byteAt frame 3) [x.code] := by
  have hfree : ¬(s.modLink Link.hunt).link.slot.isSome = true := by simp [Link.hunt, hslot]
  rw [State.takeFrame, if_pos hgood, goodFrame]
  refine (if_neg hfree).trans ?_
  show State.modLink (serveFrame _ _ _ s.received).1 (fun l => l.place ⟨_, _, (serveFrame _ _ _ s.received).2⟩) = _
  rw [hserve]
  rfl

/-- A reply placed leaves the queue of notices (R192, R193). -/
theorem Link.place_queue (l : Link) (r : Reply) : (l.place r).queue = l.queue := by
  unfold Link.place Link.choose
  cases l.tx <;> rfl

/-- A kind of no request (R204). -/
theorem requestOf_unknown {kind : Byte} (h : kind ∉ [0x01, 0x02, 0x10, 0x11, 0x12, 0x13, 0x14, 0x15, 0x16, 0x20, 0x21, 0x22,
    0x23, 0x24, 0x30, 0x31, 0x32, 0x33, 0x38, 0x40, 0x41, 0x48, 0x49, (0x4A : Byte)]) (tag : Byte) (p : List Byte) :
    requestOf kind tag p = none := by
  unfold requestOf
  split
  case h_25 => rfl
  all_goals
    rename_i hkind
    refine absurd ?_ h
    rw [show kind = BitVec.ofNat 8 kind.toNat by simp, hkind]
    decide

/-- A request's kind with a length it does not allow is refused BAD_LENGTH (R204). -/
theorem serveFrame_badLength {kind tag : Byte} {p : List Byte} {c : Instr} (hrequest : requestOf kind tag p = some c)
    (hlength : lengthAdmitted kind p = false) (s : State) : serveFrame kind tag p s = refuse s .badLength := by
  simp [serveFrame, hrequest, hlength]

/-- A good frame of a kind of no request is answered UNKNOWN_KIND (R192). -/
theorem serveFrame_unknown {kind tag : Byte} {p : List Byte} (hrequest : requestOf kind tag p = none) (s : State) :
    serveFrame kind tag p s = refuse s .unknownKind := by
  simp [serveFrame, hrequest]

/-- A length that the kind does not allow, in the terms of `Obligations.CompleteFrameIsJudged` (R204). -/
theorem badLength_of_kind {kind : Byte} {p : List Byte} (tag : Byte)
    (h : (∃ n : Nat, (kind, n) ∈ [((0x01 : Byte), 0), (0x02, 15), (0x11, 1), (0x12, 1), (0x13, 2), (0x14, 1), (0x15, 0),
        (0x16, 1), (0x21, 2), (0x22, 3), (0x23, 0), (0x24, 2), (0x32, 1), (0x38, 14), (0x40, 5), (0x41, 4),
        (0x48, 0), (0x49, 0), (0x4A, 0)] ∧ p.length ≠ n)
      ∨ (kind = 0x10 ∧ (p.length < 10 ∨ p.length < 10 + natAt p 9 ∨ (byteAt p 5 ≠ 1 ∧ p.length ≠ 10 + natAt p 9)
          ∨ (byteAt p 5 = 1 ∧ ¬LengthAgrees (p.drop (10 + natAt p 9)))))
      ∨ (kind = 0x20 ∧ ¬LengthAgrees p)
      ∨ (kind = 0x30 ∧ (p = [] ∨ p.length ≠ 1 + 17 * natAt p 0))
      ∨ (kind = 0x31 ∧ (p = [] ∨ p.length ≠ 1 + 3 * natAt p 0))
      ∨ (kind = 0x33 ∧ (p.length < 2 ∨ p.length ≠ 2 + 2 * natAt p 1))) :
    (∃ c, requestOf kind tag p = some c) ∧ lengthAdmitted kind p = false ∧ kind.toNat < 0x80 := by
  obtain ⟨n, hfixed, hp⟩ | ⟨rfl, hp⟩ | ⟨rfl, hp⟩ | ⟨rfl, hp⟩ | ⟨rfl, hp⟩ | ⟨rfl, hp⟩ := h
  · have hadmitted : ∀ m : Nat, p.length ≠ m → decide (p.length = m) = false := fun m => decide_eq_false
    simp only [List.mem_cons, Prod.mk.injEq, List.not_mem_nil, or_false] at hfixed
    rcases hfixed with h | h | h | h | h | h | h | h | h | h | h | h | h | h | h | h | h | h | h
    all_goals
      obtain ⟨rfl, rfl⟩ := h
      exact ⟨⟨_, rfl⟩, hadmitted _ hp, by decide⟩
  · refine ⟨⟨_, rfl⟩, ?_, by decide⟩
    rw [lengthAdmitted_stt, Bool.eq_false_iff]
    intro hadmitted
    simp only [Bool.and_eq_true, decide_eq_true_eq] at hadmitted
    obtain ⟨hheader, htext, htail⟩ := hadmitted
    rcases hp with hp | hp | ⟨hsource, hp⟩ | ⟨hsource, hp⟩
    · omega
    · omega
    · rw [sttTailFits, if_neg hsource, List.isEmpty_iff, List.drop_eq_nil_iff] at htail
      omega
    · rw [sttTailFits, if_pos hsource] at htail
      exact hp ((bodyFits_iff _).mp htail)
  · exact ⟨⟨_, rfl⟩, (Bool.eq_false_iff.mpr fun hadmitted => hp ((bodyFits_iff p).mp hadmitted)), by decide⟩
  · refine ⟨⟨_, rfl⟩, ?_, by decide⟩
    rw [lengthAdmitted_lim]
    rcases hp with rfl | hp
    · rfl
    · rw [decide_eq_false hp, Bool.and_false]
  · refine ⟨⟨_, rfl⟩, ?_, by decide⟩
    rw [lengthAdmitted_msk]
    rcases hp with rfl | hp
    · rfl
    · rw [decide_eq_false hp, Bool.and_false]
  · refine ⟨⟨_, rfl⟩, ?_, by decide⟩
    rw [lengthAdmitted_clf]
    rcases hp with hp | hp
    · rw [decide_eq_false (by omega), Bool.false_and]
    · rw [decide_eq_false hp, Bool.and_false]

/-- Settles O51. -/
theorem completeFrameIsJudged : Obligations.CompleteFrameIsJudged := by
  intro b frame s hrecv hexpected hlength hframe
  subst hframe
  obtain ⟨hcompletes, hreceive⟩ := completes_of_expected hrecv hexpected hlength b
  generalize s.link.frame ++ [b] = frame at hcompletes hreceive ⊢
  refine ⟨fun hcrc => ?_, fun hcrc => ?_⟩
  · have hbad : frameGood frame = false := beq_false_of_ne hcrc
    have htake : s.receive b = s.discardBadFrame := hreceive.trans (if_neg (by rw [hbad]; exact Bool.false_ne_true))
    have hdue : s.crcMismatchDue b = true := by simp [State.crcMismatchDue, hcompletes, hbad]
    refine ⟨_, ?_, (exec_byteArrival s b).trans (congrArg _ htake), rfl⟩
    rw [exec_crcMismatch, eventWhen_quiet hdue (by rw [htake]; exact le_rfl), htake]
  · have hgood : frameGood frame = true := beq_iff_eq.mpr hcrc
    refine ⟨fun hslot => ?_, fun hslot hkind => ?_, fun hslot hbad => ?_⟩
    · have htake : s.receive b = s.received := hreceive.trans (takeFrame_busy hgood hslot)
      have hdue : s.frameDiscardedBusyDue b = true := by
        simp [State.frameDiscardedBusyDue, hcompletes, hgood, Option.isSome_iff_ne_none, hslot]
      refine ⟨?_, (exec_byteArrival s b).trans (congrArg _ htake)⟩
      rw [exec_frameDiscardedBusy, eventWhen_quiet hdue (by rw [htake]; exact le_rfl), htake]
    · have hunknown := requestOf_unknown hkind (byteAt frame 3) (framePayload frame)
      have htake := hreceive.trans (takeFrame_refused hgood hslot (serveFrame_unknown hunknown _))
      have hdue : s.unknownKindDue b = true := by simp [State.unknownKindDue, hcompletes, hgood, hslot, hunknown]
      refine ⟨?_, (exec_byteArrival s b).trans (congrArg _ htake)⟩
      rw [exec_unknownKind, eventWhen_quiet hdue ?_, htake]
      · rfl
      · rw [htake]
        exact (congrArg List.length (Link.place_queue _ _)).le
    · obtain ⟨⟨c, hrequest⟩, hadmitted, hkind⟩ := badLength_of_kind (byteAt frame 3) hbad
      have htake := hreceive.trans (takeFrame_refused hgood hslot (serveFrame_badLength hrequest hadmitted _))
      rw [if_pos hkind] at htake
      exact (exec_byteArrival s b).trans (congrArg _ htake)

end Sys2Proof.Machine
end

section
/-! PROOFS. The Monitor's settings: LIM, MSK (R83, R92) and CLF (R94). -/

namespace Sys2Proof.Machine

open Sys2Proof

set_option Elab.async false

/-! ### Lists read whole -/

/-- A list is read when each of its elements is. -/
theorem readAll_eq_some_iff {α β : Type} {f : α → Option β} {as : List α} {bs : List β} :
    readAll f as = some bs ↔ List.Forall₂ (fun a b => f a = some b) as bs := by
  induction as generalizing bs with
  | nil =>
    rw [List.forall₂_nil_left_iff]
    exact ⟨fun h => (Option.some.inj h).symm, fun h => h ▸ rfl⟩
  | cons a as ih =>
    rw [readAll]
    refine ⟨fun h => ?_, fun h => ?_⟩
    · split at h
      · rename_i b bs' hb hbs
        obtain rfl := Option.some.inj h
        exact .cons hb (ih.mp hbs)
      · exact absurd h nofun
    · obtain ⟨hb, hbs⟩ | ⟨hb, hbs⟩ := h
      rw [hb, ih.mpr hbs]

/-- An element that a list read whole reads. -/
theorem readAll_mem {α β : Type} {f : α → Option β} {as : List α} {bs : List β} (h : readAll f as = some bs) {a : α}
    (ha : a ∈ as) : ∃ b ∈ bs, f a = some b := by
  have hall := readAll_eq_some_iff.mp h
  clear h
  induction hall with
  | nil => exact absurd ha List.not_mem_nil
  | cons hb _ ih =>
    rcases List.mem_cons.mp ha with rfl | ha
    · exact ⟨_, List.mem_cons_self, hb⟩
    · obtain ⟨b, hmem, hb⟩ := ih ha
      exact ⟨b, List.mem_cons_of_mem _ hmem, hb⟩

/-- What names an element, read before or after the list. -/
theorem map_readAll {α β γ : Type} {f : α → Option β} {g : α → γ} {k : β → γ} (hk : ∀ a b, f a = some b → g a = k b)
    {as : List α} {bs : List β} (h : readAll f as = some bs) : as.map g = bs.map k := by
  have hall := readAll_eq_some_iff.mp h
  clear h
  induction hall with
  | nil => rfl
  | cons hb _ ih => rw [List.map_cons, List.map_cons, ih, hk _ _ hb]

/-! ### LIM (R83) -/

/-- A LIM entry that is taken (R83). -/
theorem limEntryOf_eq_some_iff {e : LimEntry} {x : Quantity × Thresholds} : limEntryOf e = some x ↔
    quantityOf e.quantity = some x.1 ∧ x.2 = ⟨e.lowAlarm.toInt, e.lowWarn.toInt, e.highWarn.toInt, e.highAlarm.toInt⟩
      ∧ x.2.ordered = true ∧ x.2.inRange x.1 = true := by
  obtain ⟨q, t⟩ := x
  unfold limEntryOf
  cases hq : quantityOf e.quantity with
  | none => simp
  | some p =>
    simp only [Option.ite_none_right_eq_some, Bool.and_eq_true, Option.some.injEq, Prod.mk.injEq]
    constructor
    · rintro ⟨⟨hrange, hordered⟩, rfl, rfl⟩
      exact ⟨rfl, rfl, hordered, hrange⟩
    · rintro ⟨rfl, rfl, hordered, hrange⟩
      exact ⟨⟨hrange, hordered⟩, rfl, rfl⟩

/-- The list of a LIM that is taken (R83). -/
theorem limListOf_of_forall₂ {es : List LimEntry} {xs : List (Quantity × Thresholds)} (hlo : 1 ≤ xs.length)
    (hhi : xs.length ≤ 7) (hnodup : (xs.map Prod.fst).Nodup)
    (h : List.Forall₂ (fun e x => limEntryOf e = some x) es xs) : limListOf es = some xs := by
  rw [limListOf, readAll_eq_some_iff.mpr h]
  exact if_pos ⟨hlo, hhi, hnodup⟩

/-- The threshold table after a LIM without repeats (R83). -/
theorem getElem_setLimits {xs : List (Quantity × Thresholds)} (hnodup : (xs.map Prod.fst).Nodup) (t : ThresholdTable)
    (q : Quantity) :
    (setLimits t xs)[q.idx] = ((xs.find? (fun x => x.1 == q)).map Prod.snd).getD t[q.idx] := by
  induction xs generalizing t with
  | nil => rfl
  | cons x rest ih =>
    obtain ⟨hx, hrest⟩ := List.nodup_cons.mp (by exact hnodup)
    refine (ih hrest _).trans ?_
    by_cases hq : x.1 = q
    · have hnone : rest.find? (fun y => y.1 == q) = none := List.find?_eq_none.mpr fun y hy hyq =>
        hx (List.mem_map.mpr ⟨y, hy, (beq_iff_eq.mp hyq).trans hq.symm⟩)
      rw [hnone, List.find?_cons_of_pos (by simp [hq])]
      simp [hq]
    · have hidx : x.1.idx ≠ q.idx := fun h => hq (Quantity.idx_inj h)
      rw [List.find?_cons_of_neg (by simp [hq])]
      simp only [Fin.getElem_fin, Vector.getElem_set, Fin.val_inj, hidx, if_false]

/-- The list of a LIM that is refused (R83). -/
theorem limListOf_eq_none {es : List LimEntry} (h : es = [] ∨ 7 < es.length
      ∨ (∃ e ∈ es, quantityOf e.quantity = none)
      ∨ ¬(es.map (fun e => quantityOf e.quantity)).Nodup
      ∨ (∃ e ∈ es, ∃ q, quantityOf e.quantity = some q ∧
          ((⟨e.lowAlarm.toInt, e.lowWarn.toInt, e.highWarn.toInt, e.highAlarm.toInt⟩ : Thresholds).ordered = false
            ∨ (⟨e.lowAlarm.toInt, e.lowWarn.toInt, e.highWarn.toInt, e.highAlarm.toInt⟩ : Thresholds).inRange q = false))) :
    limListOf es = none := by
  refine Option.eq_none_iff_forall_ne_some.mpr fun xs hxs => ?_
  obtain ⟨hread, hlo, hhi, hnodup⟩ := limListOf_eq_some hxs
  have hlength := (readAll_eq_some_iff.mp hread).length_eq
  rcases h with rfl | h | ⟨e, he, hq⟩ | h | ⟨e, he, q, hq, h⟩
  · exact absurd (hlength ▸ hlo) (by simp)
  · omega
  · obtain ⟨x, -, hx⟩ := readAll_mem hread he
    exact absurd (hq.symm.trans (limEntryOf_eq_some_iff.mp hx).1) nofun
  · rw [map_readAll (k := fun x => some x.1) (fun e x hx => (limEntryOf_eq_some_iff.mp hx).1) hread] at h
    rw [show (fun x : Quantity × Thresholds => some x.1) = some ∘ Prod.fst from rfl, ← List.map_map] at h
    exact h (hnodup.map (Option.some_injective _))
  · obtain ⟨x, -, hx⟩ := readAll_mem hread he
    obtain ⟨hquantity, hthr, hordered, hrange⟩ := limEntryOf_eq_some_iff.mp hx
    obtain rfl := Option.some.inj (hq.symm.trans hquantity)
    rw [hthr] at hordered hrange
    rcases h with h | h
    · exact absurd (h.symm.trans hordered) Bool.false_ne_true
    · exact absurd (h.symm.trans hrange) Bool.false_ne_true

/-! ### MSK (R92) -/

/-- A mask byte is 0 or 1 (R204). -/
theorem yesNoOf_eq_some_iff {b : Byte} {m : Bool} : yesNoOf b = some m ↔ b = yesNo m := by
  unfold yesNoOf
  cases m <;> simp [yesNo]
  grind

/-- A MSK setting that is taken (R92). -/
theorem mskSettingOf_eq_some_iff {e : MskSetting} {x : Quantity × FlagKind × Bool} : mskSettingOf e = some x ↔
    quantityOf e.quantity = some x.1 ∧ flagKindOf e.kind = some x.2.1 ∧ e.mask = yesNo x.2.2 := by
  obtain ⟨q, k, m⟩ := x
  rw [← yesNoOf_eq_some_iff]
  unfold mskSettingOf
  split
  · rename_i hq hk hm
    simp [hq, hk, hm]
  · rename_i h
    simp only [reduceCtorEq, false_iff]
    rintro ⟨hq, hk, hm⟩
    exact h _ _ _ hq hk hm

/-- The list of a MSK that is taken reads settings of its own, 1 to 35, no pair twice (R92). -/
theorem mskListOf_eq_some_iff {es : List MskSetting} {xs : List (Quantity × FlagKind × Bool)} : mskListOf es = some xs ↔
    readAll mskSettingOf es = some xs ∧ 1 ≤ xs.length ∧ xs.length ≤ 35 ∧ (xs.map (fun y => (y.1, y.2.1))).Nodup := by
  unfold mskListOf
  cases hread : readAll mskSettingOf es with
  | none => simp
  | some ys =>
    simp only [Option.ite_none_right_eq_some, Option.some.injEq]
    constructor
    · rintro ⟨h, rfl⟩
      exact ⟨rfl, h⟩
    · rintro ⟨rfl, h⟩
      exact ⟨h, rfl⟩

/-- One kind of a flag set after another is put. -/
theorem FlagSet.has_put (f : FlagSet) (k j : FlagKind) (b : Bool) : (f.put k b).has j = if k = j then b else f.has j := by
  cases k <;> cases j <;> rfl

/-- The mask table after a MSK without repeats (R92). -/
theorem has_setMasks {xs : List (Quantity × FlagKind × Bool)} (hnodup : (xs.map (fun x => (x.1, x.2.1))).Nodup)
    (t : MaskTable) (q : Quantity) (k : FlagKind) : (setMasks t xs)[q.idx].has k =
      ((xs.find? (fun x => x.1 == q && x.2.1 == k)).map (fun x => x.2.2)).getD (t[q.idx].has k) := by
  induction xs generalizing t with
  | nil => rfl
  | cons x rest ih =>
    obtain ⟨hx, hrest⟩ := List.nodup_cons.mp (by exact hnodup)
    refine (ih hrest _).trans ?_
    by_cases hq : x.1 = q ∧ x.2.1 = k
    · obtain ⟨rfl, rfl⟩ := hq
      have hnone : rest.find? (fun y => y.1 == x.1 && y.2.1 == x.2.1) = none :=
        List.find?_eq_none.mpr fun y hy hyq => hx (List.mem_map.mpr ⟨y, hy, by simpa using hyq⟩)
      rw [hnone, List.find?_cons_of_pos (by simp)]
      simp [FlagSet.has_put]
    · have hset : ((t.set x.1.idx (t[x.1.idx].put x.2.1 x.2.2))[q.idx]).has k = t[q.idx].has k := by
        by_cases hidx : x.1 = q
        · obtain rfl := hidx
          simp only [Fin.getElem_fin, Vector.getElem_set_self, FlagSet.has_put, if_neg (fun h => hq ⟨rfl, h⟩)]
        · have hne : x.1.idx ≠ q.idx := fun h => hidx (Quantity.idx_inj h)
          simp only [Fin.getElem_fin, Vector.getElem_set, Fin.val_inj, hne, if_false]
      rw [List.find?_cons_of_neg (by simpa using hq), hset]

/-- The list of a MSK that is refused (R92). -/
theorem mskListOf_eq_none {es : List MskSetting} (h : es = [] ∨ 35 < es.length
      ∨ (∃ e ∈ es, quantityOf e.quantity = none ∨ flagKindOf e.kind = none ∨ (e.mask ≠ 0 ∧ e.mask ≠ 1))
      ∨ ¬(es.map (fun e => (quantityOf e.quantity, flagKindOf e.kind))).Nodup) : mskListOf es = none := by
  refine Option.eq_none_iff_forall_ne_some.mpr fun xs hxs => ?_
  obtain ⟨hread, hlo, hhi, hnodup⟩ := mskListOf_eq_some_iff.mp hxs
  have hlength := (readAll_eq_some_iff.mp hread).length_eq
  rcases h with rfl | h | ⟨e, he, h⟩ | h
  · exact absurd (hlength ▸ hlo) (by simp)
  · omega
  · obtain ⟨x, -, hx⟩ := readAll_mem hread he
    obtain ⟨hquantity, hkind, hmask⟩ := mskSettingOf_eq_some_iff.mp hx
    rcases h with h | h | ⟨hzero, hone⟩
    · exact absurd (h.symm.trans hquantity) nofun
    · exact absurd (h.symm.trans hkind) nofun
    · cases hm : x.2.2 with
      | false => exact hzero (hmask.trans (congrArg yesNo hm))
      | true => exact hone (hmask.trans (congrArg yesNo hm))
  · rw [map_readAll (k := fun x => (some x.1, some x.2.1)) (fun e x hx => Prod.ext (mskSettingOf_eq_some_iff.mp hx).1
      (mskSettingOf_eq_some_iff.mp hx).2.1) hread] at h
    rw [show (fun x : Quantity × FlagKind × Bool => (some x.1, some x.2.1)) = Prod.map some some ∘ (fun x => (x.1, x.2.1))
      from rfl, ← List.map_map] at h
    exact h (hnodup.map ((Option.some_injective _).prodMap (Option.some_injective _)))

/-- Settles O29. -/
theorem limAndMskSetWhatTheyName : Obligations.LimAndMskSetWhatTheyName := by
  refine ⟨fun tag es s hslot => ⟨fun xs hlo hhi hnodup hread => ?_, fun hbad => ?_⟩,
    fun tag es s hslot => ⟨fun xs hlo hhi hnodup hread => ?_, fun hbad => ?_⟩⟩
  · have hlist := limListOf_of_forall₂ hlo hhi hnodup (hread.imp fun e x => limEntryOf_eq_some_iff.mpr)
    refine ⟨setLimits s.mon.globals xs, ?_, getElem_setLimits hnodup _⟩
    rw [exec_request (c := .lim tag es) rfl hslot]
    simp only [serveChecked, serveCommand, serveLim, hlist]
    rfl
  · rw [exec_request (c := .lim tag es) rfl hslot]
    simp only [serveChecked, serveCommand, serveLim, limListOf_eq_none hbad]
    rfl
  · have hlist : mskListOf es = some xs := mskListOf_eq_some_iff.mpr
      ⟨readAll_eq_some_iff.mpr (hread.imp fun e x => mskSettingOf_eq_some_iff.mpr), hlo, hhi, hnodup⟩
    refine ⟨setMasks s.mon.masks xs, ?_, has_setMasks hnodup _⟩
    rw [exec_request (c := .msk tag es) rfl hslot]
    simp only [serveChecked, serveCommand, serveMsk, hlist]
    rfl
  · rw [exec_request (c := .msk tag es) rfl hslot]
    simp only [serveChecked, serveCommand, serveMsk, mskListOf_eq_none hbad]
    rfl

/-! ### CLF (R94) -/

/-- A CLF pair that is known (R94). -/
theorem flagPairOf_eq_some_iff {p : FlagPair} {x : Quantity × FlagKind} : flagPairOf p = some x ↔
    quantityOf p.quantity = some x.1 ∧ flagKindOf p.kind = some x.2 := by
  obtain ⟨q, k⟩ := x
  unfold flagPairOf
  split
  · rename_i hq hk
    simp [hq, hk]
  · rename_i h
    simp only [reduceCtorEq, false_iff]
    rintro ⟨hq, hk⟩
    exact h _ _ hq hk

/-- The list of a CLF that is taken (R94). -/
theorem clfListOf_eq_some_iff {sc : Scope} {ps : List FlagPair} {xs : List (Quantity × FlagKind)} :
    clfListOf sc ps = some xs ↔ readAll flagPairOf ps = some xs ∧ (∀ x ∈ xs, sc.admits x.1 = true) ∧ xs.Nodup := by
  unfold clfListOf
  cases hread : readAll flagPairOf ps with
  | none => simp
  | some ys =>
    simp only [Option.ite_none_right_eq_some, Option.some.injEq, List.all_eq_true]
    constructor
    · rintro ⟨h, rfl⟩
      exact ⟨rfl, h⟩
    · rintro ⟨rfl, h⟩
      exact ⟨h, rfl⟩

/-- A kind stays set unless the list names it. -/
theorem has_foldl_put (xs : List (Quantity × FlagKind)) (f : FlagSet) (k : FlagKind) :
    (xs.foldl (fun f x => f.put x.2 false) f).has k = (f.has k && !xs.any (fun x => x.2 = k)) := by
  induction xs generalizing f with
  | nil => simp
  | cons x rest ih =>
    rw [List.foldl_cons, ih, FlagSet.has_put, List.any_cons]
    by_cases h : x.2 = k <;> simp [h]

/-- The latched kinds that CLF leaves (R94). -/
theorem has_clearNamed (xs : List (Quantity × FlagKind)) (q : Quantity) (f : FlagSet) (k : FlagKind) :
    (clearNamed xs q f).has k = (f.has k && !(decide (xs = []) || xs.contains (q, k))) := by
  unfold clearNamed
  split
  · rename_i h
    simp only [h, decide_true, Bool.true_or, Bool.not_true, Bool.and_false]
    cases k <;> rfl
  · rename_i h
    have hany : (xs.filter (fun x => x.1 = q)).any (fun x => x.2 = k) = xs.contains (q, k) := by
      rw [Bool.eq_iff_iff, List.contains_iff_mem, List.any_eq_true]
      simp only [List.mem_filter, decide_eq_true_eq]
      exact ⟨fun ⟨x, ⟨hx, hq⟩, hk⟩ => hq ▸ hk ▸ hx, fun hx => ⟨_, ⟨hx, rfl⟩, rfl⟩⟩
    rw [has_foldl_put, hany, decide_eq_false h, Bool.false_or]

/-- A station quantity after its station's named flags are cleared (R94). -/
theorem clearStationFlags_quantity (s : State) (st : Station) (xs : List (Quantity × FlagKind)) (q : StQuantity) :
    (s.clearStationFlags st xs).quantity st q
      = { s.quantity st q with latched := clearNamed xs (.station q) (s.quantity st q).latched } := by
  cases q <;> simp [State.clearStationFlags, allStQuantities, State.modQuantity, State.quantity, StQuantity.idx]

/-- The rest of the Monitor after a station's named flags are cleared (R94). -/
theorem clearStationFlags_mon (s : State) (st : Station) (xs : List (Quantity × FlagKind)) :
    (∀ j : Station, j ≠ st → (s.clearStationFlags st xs).mon.stations[j] = s.mon.stations[j])
      ∧ (s.clearStationFlags st xs).mon.supply = s.mon.supply ∧ (s.clearStationFlags st xs).mon.globals = s.mon.globals
      ∧ (s.clearStationFlags st xs).mon.masks = s.mon.masks ∧ (s.clearStationFlags st xs).seq = s.seq := by
  refine ⟨fun j hj => ?_, ?_⟩
  · simp [State.clearStationFlags, allStQuantities, State.modQuantity, Ne.symm hj]
  · simp [State.clearStationFlags, allStQuantities, State.modQuantity]

/-- The list of a CLF that is refused (R94). -/
theorem clfListOf_eq_none {sc : Scope} {ps : List FlagPair}
    (h : (∃ p ∈ ps, quantityOf p.quantity = none ∨ flagKindOf p.kind = none
        ∨ (∃ q, quantityOf p.quantity = some q ∧ sc.admits q = false))
      ∨ ¬(ps.map (fun p => (quantityOf p.quantity, flagKindOf p.kind))).Nodup) : clfListOf sc ps = none := by
  refine Option.eq_none_iff_forall_ne_some.mpr fun xs hxs => ?_
  obtain ⟨hread, hscope, hnodup⟩ := clfListOf_eq_some_iff.mp hxs
  rcases h with ⟨p, hp, h⟩ | h
  · obtain ⟨x, hmem, hx⟩ := readAll_mem hread hp
    obtain ⟨hquantity, hkind⟩ := flagPairOf_eq_some_iff.mp hx
    rcases h with h | h | ⟨q, hq, h⟩
    · exact absurd (h.symm.trans hquantity) nofun
    · exact absurd (h.symm.trans hkind) nofun
    · obtain rfl := Option.some.inj (hq.symm.trans hquantity)
      exact absurd (h.symm.trans (hscope x hmem)) Bool.false_ne_true
  · rw [map_readAll (k := Prod.map some some) (fun e x hx => Prod.ext (flagPairOf_eq_some_iff.mp hx).1
      (flagPairOf_eq_some_iff.mp hx).2) hread] at h
    exact h (hnodup.map ((Option.some_injective _).prodMap (Option.some_injective _)))

/-- A scope's number up to 6 names the GLOBAL scope or a station's (R203). -/
theorem scopeOf_of_le {b : Byte} (h : b.toNat ≤ 6) :
    (b = 0 ∧ scopeOf b = .ok .global) ∨ (b ≠ 0 ∧ ∃ st, scopeOf b = .ok (.station st)) := by
  by_cases hb : b = 0
  · subst hb; exact .inl ⟨rfl, rfl⟩
  · have hpos : b.toNat ≠ 0 := fun h0 => hb (BitVec.eq_of_toNat_eq h0)
    refine .inr ⟨hb, ⟨b.toNat - 1, by omega⟩, ?_⟩
    rw [scopeOf, if_neg hb, stationOf, dif_pos ⟨by omega, h⟩]

/-- Settles O30. -/
theorem clfClearsNamedFlags : Obligations.ClfClearsNamedFlags := by
  refine ⟨fun tag ps xs s hslot hnodup hread => ⟨fun st hscope => ?_, fun hscope => ?_⟩,
    fun tag scope ps s hslot => ⟨fun hlo hhi => ?_, fun hhi => ?_, fun hscope hbad => ?_⟩⟩
  · have hlist : clfListOf (.station st) ps = some xs := clfListOf_eq_some_iff.mpr
      ⟨readAll_eq_some_iff.mpr (hread.imp fun p x => flagPairOf_eq_some_iff.mpr), fun x hx => ?_, hnodup⟩
    · obtain ⟨hothers, hsupply, hglobals, hmasks, hseq⟩ := clearStationFlags_mon s.received st xs
      refine ⟨_, (exec_request (c := .clf tag (stationCode st) ps) rfl hslot).trans (congrArg _ rfl), ?_⟩
      simp only [serveChecked, serveCommand, serveClf, scopeOf_stationCode, hlist]
      refine ⟨fun q k => ?_, fun q => ?_, hothers, hsupply, hglobals, hmasks, hseq, State.replies_slot ..⟩
      · refine (congrArg (fun m => m.latched.has k) (clearStationFlags_quantity s.received st xs q)).trans ?_
        exact has_clearNamed xs _ _ k
      · exact congrArg (fun m => { m with latched := (s.quantity st q).latched })
          (clearStationFlags_quantity s.received st xs q)
    · cases hq : x.1 with
      | station _ => rfl
      | supply => exact absurd hq (hscope x hx)
  · have hlist : clfListOf .global ps = some xs := clfListOf_eq_some_iff.mpr
      ⟨readAll_eq_some_iff.mpr (hread.imp fun p x => flagPairOf_eq_some_iff.mpr), fun x hx => by rw [hscope x hx]; rfl,
        hnodup⟩
    refine ⟨_, (exec_request (c := .clf tag 0 ps) rfl hslot).trans (congrArg _ rfl), ?_⟩
    simp only [serveChecked, serveCommand, serveClf, scopeOf, if_true, hlist]
    exact ⟨fun k => has_clearNamed xs _ _ k, rfl, rfl, rfl, rfl, rfl, State.replies_slot ..⟩
  · rw [exec_request (c := .clf tag scope ps) rfl hslot]
    simp only [serveChecked, serveCommand, serveClf, scopeOf_badStation hlo hhi]
    rfl
  · rw [exec_request (c := .clf tag scope ps) rfl hslot]
    simp only [serveChecked, serveCommand, serveClf, scopeOf_badValue hhi]
    rfl
  · rw [exec_request (c := .clf tag scope ps) rfl hslot]
    rcases scopeOf_of_le hscope with ⟨hzero, hsc⟩ | ⟨hzero, st, hsc⟩
    · have hnone : clfListOf .global ps = none := clfListOf_eq_none <| hbad.imp_left fun ⟨p, hp, h⟩ =>
        ⟨p, hp, h.imp_right (Or.imp_right fun h => h.elim (fun h => absurd hzero h.1) fun ⟨_, q, hq⟩ => ⟨_, hq, rfl⟩)⟩
      simp only [serveChecked, serveCommand, serveClf, hsc, hnone]
      rfl
    · have hnone : clfListOf (.station st) ps = none := clfListOf_eq_none <| hbad.imp_left fun ⟨p, hp, h⟩ =>
        ⟨p, hp, h.imp_right (Or.imp_right fun h => h.elim (fun h => ⟨_, h.2, rfl⟩) fun h => absurd h.1 hzero)⟩
      simp only [serveChecked, serveCommand, serveClf, hsc, hnone]
      rfl

end Sys2Proof.Machine
end

section
/-! PROOFS. Channel Conditioning: CHN (R154) and the frame of the entries. -/

namespace Sys2Proof.Machine

open Sys2Proof

set_option Elab.async false

theorem within_pos {lo hi n : Nat} (hlo : lo ≤ n) (hhi : n ≤ hi) : within lo hi n = some n := by
  simp [within, hlo, hhi]

theorem withinInt_pos {lo hi n : Int} (hlo : lo ≤ n) (hhi : n ≤ hi) : withinInt lo hi n = some n := by
  simp [withinInt, hlo, hhi]

/-! ### The entry that CHN asks for (R154), channel by channel -/

theorem change_accel {c : Conditioning} {f : ChnFields} {inv : Bool} (hchannel : f.channel = 1) (hinv : f.invert = yesNo inv) :
    (f.mode = 0 → c.change f = some { c with accel := .live, invert := inv })
    ∧ (f.mode = 1 → -32768 ≤ f.constant.toInt → f.constant.toInt ≤ 32767 →
        c.change f = some { c with accel := .fixed f.constant.toInt, invert := inv })
    ∧ (f.mode = 2 → 1 ≤ f.toneOrder.toNat → f.toneOrder.toNat ≤ 63 → 1 ≤ f.toneAmplitude.toNat →
        f.toneAmplitude.toNat ≤ 16000 → f.tonePhase.toNat ≤ 127 → c.change f = some { c with
          accel := .pattern f.toneOrder.toNat f.toneAmplitude.toNat f.tonePhase.toNat, invert := inv }) := by
  have hyes := yesNoOf_eq_some_iff.mpr hinv
  refine ⟨fun hmode => ?_, fun hmode hlo hhi => ?_, fun hmode ho₁ ho₂ ha₁ ha₂ hp => ?_⟩
  · simp [Conditioning.change, hchannel, hmode, hyes]
  · simp [Conditioning.change, hchannel, hmode, hyes, withinInt_pos hlo hhi]
  · simp [Conditioning.change, hchannel, hmode, hyes, within_pos ho₁ ho₂, within_pos ha₁ ha₂, within_pos (Nat.zero_le _) hp]

theorem change_press {c : Conditioning} {f : ChnFields} (hchannel : f.channel = 2) (hinv : f.invert = 0xFF) :
    (f.mode = 0 → c.change f = some { c with press := .live })
    ∧ (f.mode = 1 → -50000 ≤ f.constant.toInt → f.constant.toInt ≤ 250000 →
        c.change f = some { c with press := .fixed f.constant.toInt })
    ∧ (f.mode = 2 → 1 ≤ f.decayRate.toNat → f.decayRate.toNat ≤ 5000 →
        c.change f = some { c with press := .pattern f.decayRate.toNat }) := by
  refine ⟨fun hmode => ?_, fun hmode hlo hhi => ?_, fun hmode hlo hhi => ?_⟩
  · simp [Conditioning.change, hchannel, hmode, hinv]
  · simp [Conditioning.change, hchannel, hmode, hinv, withinInt_pos hlo hhi]
  · simp [Conditioning.change, hchannel, hmode, hinv, within_pos hlo hhi]

theorem change_temp {c : Conditioning} {f : ChnFields} (hchannel : f.channel = 3) (hinv : f.invert = 0xFF) :
    (f.mode = 0 → c.change f = some { c with temp := .live })
    ∧ (f.mode = 1 → -2000 ≤ f.constant.toInt → f.constant.toInt ≤ 8000 →
        c.change f = some { c with temp := .fixed f.constant.toInt }) := by
  refine ⟨fun hmode => ?_, fun hmode hlo hhi => ?_⟩
  · simp [Conditioning.change, hchannel, hmode, hinv]
  · simp [Conditioning.change, hchannel, hmode, hinv, withinInt_pos hlo hhi]

/-- What CHN's fields are when they ask for an entry: a named channel and mode, parameters in their ranges, an invert byte
that fits the channel (R146, R154, R204). -/
def ChnFields.Fits (f : ChnFields) : Prop :=
  (f.channel.toNat = 1 ∧ (f.invert.toNat = 0 ∨ f.invert.toNat = 1) ∧ (f.mode.toNat = 0
      ∨ (f.mode.toNat = 1 ∧ -32768 ≤ f.constant.toInt ∧ f.constant.toInt ≤ 32767)
      ∨ (f.mode.toNat = 2 ∧ 1 ≤ f.toneOrder.toNat ∧ f.toneOrder.toNat ≤ 63 ∧ 1 ≤ f.toneAmplitude.toNat
          ∧ f.toneAmplitude.toNat ≤ 16000 ∧ f.tonePhase.toNat ≤ 127)))
  ∨ (f.channel.toNat = 2 ∧ f.invert.toNat = 255 ∧ (f.mode.toNat = 0
      ∨ (f.mode.toNat = 1 ∧ -50000 ≤ f.constant.toInt ∧ f.constant.toInt ≤ 250000)
      ∨ (f.mode.toNat = 2 ∧ 1 ≤ f.decayRate.toNat ∧ f.decayRate.toNat ≤ 5000)))
  ∨ (f.channel.toNat = 3 ∧ f.invert.toNat = 255 ∧ (f.mode.toNat = 0
      ∨ (f.mode.toNat = 1 ∧ -2000 ≤ f.constant.toInt ∧ f.constant.toInt ≤ 8000)))

theorem within_eq_some_iff {lo hi n m : Nat} : within lo hi n = some m ↔ (lo ≤ n ∧ n ≤ hi) ∧ n = m := by
  simp [within]

theorem withinInt_eq_some_iff {lo hi n m : Int} : withinInt lo hi n = some m ↔ (lo ≤ n ∧ n ≤ hi) ∧ n = m := by
  simp [withinInt]

theorem fits_of_change {c d : Conditioning} {f : ChnFields} (h : c.change f = some d) : ChnFields.Fits f := by
  unfold Conditioning.change at h
  split at h
  · rename_i hchannel
    obtain ⟨inv, hinv, h⟩ := Option.bind_eq_some_iff.mp h
    refine .inl ⟨hchannel, ?_, ?_⟩
    · rw [yesNoOf_eq_some_iff.mp hinv]
      cases inv <;> simp [yesNo]
    · split at h
      · exact .inl (by assumption)
      · obtain ⟨x, hx, -⟩ := Option.bind_eq_some_iff.mp h
        exact .inr (.inl ⟨by assumption, (withinInt_eq_some_iff.mp hx).1⟩)
      · obtain ⟨o, ho, h⟩ := Option.bind_eq_some_iff.mp h
        obtain ⟨a, ha, h⟩ := Option.bind_eq_some_iff.mp h
        obtain ⟨p, hp, -⟩ := Option.bind_eq_some_iff.mp h
        obtain ⟨⟨ho₁, ho₂⟩, -⟩ := within_eq_some_iff.mp ho
        obtain ⟨⟨ha₁, ha₂⟩, -⟩ := within_eq_some_iff.mp ha
        exact .inr (.inr ⟨by assumption, ho₁, ho₂, ha₁, ha₂, (within_eq_some_iff.mp hp).1.2⟩)
      · exact absurd h nofun
  · rename_i hchannel
    rw [Option.ite_none_left_eq_some, not_ne_iff] at h
    obtain ⟨hinv, h⟩ := h
    refine .inr (.inl ⟨hchannel, by rw [hinv]; rfl, ?_⟩)
    split at h
    · exact .inl (by assumption)
    · obtain ⟨x, hx, -⟩ := Option.bind_eq_some_iff.mp h
      exact .inr (.inl ⟨by assumption, (withinInt_eq_some_iff.mp hx).1⟩)
    · obtain ⟨r, hr, -⟩ := Option.bind_eq_some_iff.mp h
      exact .inr (.inr ⟨by assumption, (within_eq_some_iff.mp hr).1⟩)
    · exact absurd h nofun
  · rename_i hchannel
    rw [Option.ite_none_left_eq_some, not_ne_iff] at h
    obtain ⟨hinv, h⟩ := h
    refine .inr (.inr ⟨hchannel, by rw [hinv]; rfl, ?_⟩)
    split at h
    · exact .inl (by assumption)
    · obtain ⟨x, hx, -⟩ := Option.bind_eq_some_iff.mp h
      exact .inr ⟨by assumption, (withinInt_eq_some_iff.mp hx).1⟩
    · exact absurd h nofun
  · exact absurd h nofun

/-- The conditioning after CHN's change, and what it leaves (R154). -/
theorem setConditioning_spec (s : State) (st : Station) (c : Conditioning) :
    (s.setConditioning st c).cond = s.cond.upd st (fun _ => c)
      ∧ (s.setConditioning st c).mon.stations = s.mon.stations := by
  unfold State.setConditioning
  simp only
  split <;> exact ⟨rfl, rfl⟩

/-- CHN to a station that is not testing (R154). -/
theorem serveChn_taken {f : ChnFields} {s : State} {st : Station} {c : Conditioning} (hst : f.station = stationCode st)
    (hc : s.cond[st].change f = some c)
    (hstate : s.stateOf st = .off ∨ s.stateOf st = .idle ∨ s.stateOf st = .done) :
    serveChn f s = answer (s.setConditioning st c) (stationCode st
      :: (c.bytes ++ [yesNo ((s.setConditioning st c).substituted st)])) := by
  have hcond : (s.setConditioning st c).cond[st] = c := by
    rw [(setConditioning_spec s st c).1]
    simp
  rw [serveChn, hst, withStation_stationCode, hc]
  rcases hstate with h | h | h <;> simp only [h, hcond]

/-- CHN to a testing station (R154). -/
theorem serveChn_testing {f : ChnFields} {s : State} {st : Station} {c : Conditioning} (hst : f.station = stationCode st)
    (hc : s.cond[st].change f = some c)
    (hstate : s.stateOf st = .running ∨ s.stateOf st = .stopping ∨ s.stateOf st = .completing) :
    serveChn f s = refuse s .state := by
  rw [serveChn, hst, withStation_stationCode, hc]
  rcases hstate with h | h | h <;> simp only [h]

/-- CHN with fields that ask for no entry (R154). -/
theorem serveChn_badValue {f : ChnFields} {s : State} {st : Station} (hst : f.station = stationCode st) (hf : ¬ChnFields.Fits f) :
    serveChn f s = refuse s .badValue := by
  rw [serveChn, hst, withStation_stationCode, Option.eq_none_iff_forall_ne_some.mpr fun c hc => hf (fits_of_change hc)]

/-- Settles O43. -/
theorem chnSetsOneEntry : Obligations.ChnSetsOneEntry := by
  refine ⟨fun tag f s hslot => ⟨fun hst => ?_, fun st hst => ⟨fun c hc => ⟨fun hstate => ?_, fun hstate => ?_⟩, fun x hx => ?_⟩⟩,
    fun c s t hexec hpower hchn hbyte => ?_⟩
  · rw [exec_request (c := .chn tag f) rfl hslot]
    simp only [serveChecked, serveCommand, serveChn, withStation_badStation _ _ _ hst]
    rfl
  · have hserve := serveChn_taken (s := s.received) hst hc hstate
    obtain ⟨hcond, hstations⟩ := setConditioning_spec s.received st c
    refine ⟨_, exec_request (c := .chn tag f) rfl hslot, ?_⟩
    simp only [serveChecked, serveCommand, hserve]
    exact ⟨hcond, State.replies_slot .., State.setConditioning_seq .., hstations, State.setConditioning_enc ..,
      State.setConditioning_config ..⟩
  · rw [exec_request (c := .chn tag f) rfl hslot]
    simp only [serveChecked, serveCommand, serveChn_testing (s := s.received) hst hc hstate]
    rfl
  · subst hx
    refine ⟨fun inv hchannel hinv => change_accel hchannel hinv, fun hchannel hinv => change_press hchannel hinv,
      fun hchannel hinv => change_temp hchannel hinv, fun hbad => ?_⟩
    have hfits : ¬ChnFields.Fits f := by
      unfold ChnFields.Fits
      generalize f.constant.toInt = x at hbad
      bv_omega
    rw [exec_request (c := .chn tag f) rfl hslot]
    simp only [serveChecked, serveCommand, serveChn_badValue (s := s.received) hst hfits]
    rfl
  · obtain ⟨u, hu, -, -, hcond⟩ := exec_completes hpower s
    obtain rfl := Host.Outcome.next.inj (hexec.symm.trans hu)
    refine hcond.resolve_left ?_
    rintro (⟨tag, f, hc⟩ | ⟨b, hc, frame, hframe, hkind, -⟩)
    · exact hchn tag f hc
    · exact hbyte b hc frame hframe hkind

end Sys2Proof.Machine
end

section
/-! PROOFS. Steps that end (R6, R7, R52 to R64): the timeouts, the chain's end, and the beginning of the next step. -/

namespace Sys2Proof.Machine

open Sys2Proof

set_option Elab.async false

namespace State

variable {s t : State} {st : Station} {x : StepCtx} {r : Record}

/-! ### Events of a RUNNING station -/

/-- A request with the slot empty, by what its rule answers (R190, R192). -/
theorem exec_served {c : Instr} {kind tag : Byte} {p payload : List Byte} (hparts : requestParts c = some (kind, tag, p))
    (hslot : s.link.slot = none) (hserve : serveChecked c s.received = (t, payload)) :
    exec c s = .next (t.replies (kind + 0x80) tag payload) := by
  rw [exec_request hparts hslot, hserve]

/-- A condition on the step in progress of a RUNNING station. -/
theorem RunsStep.stepIs (h : s.RunsStep st x r) (p : StepCtx → Bool) : s.stepIs st p = p x := by
  have hstep := h.step
  simp only [ctx, Fin.getElem_fin] at hstep
  simp [State.stepIs, h.running, hstep]

/-- An event that gives no notice is its effect. -/
theorem eventWhen_sameLink {due : State → Bool} {f : State → State} (hdue : due s = true) (hlink : (f s).link = s.link) :
    eventWhen due f s = .next (f s) :=
  eventWhen_quiet hdue (by rw [hlink])

/-- A step that ends with a next one in the chain gives no notice. -/
theorem endStep_link (o : StepOutcome) (hx : (s.ctx st).step = some x) {spec : StepSpec} (hnext : s.nextIs st x.index spec) :
    (s.endStep st o).link = s.link := by
  have hnext' : (s.finishStep st o none).nextIs st x.index spec := by
    unfold nextIs at *
    rwa [recipe_of_test (s := s) (by simp)]
  rw [endStep_eq _ _ _ _ hx, nextStep_begins _ _ _ _ hnext']
  simp

/-- The entry that a step's end with a cause leaves in the record (R53). -/
theorem RunsStep.finishStep_entries (h : s.RunsStep st x r) (o : StepOutcome) (c : Option StepCause) :
    (s.finishStep st o c).seq[st.val].record.map Record.steps = some (r.steps ++ [⟨x.index, x.spec.kind, o, c⟩]) := by
  have hrecord := h.record
  simp only [ctx, Fin.getElem_fin] at hrecord
  rw [finishStep_eq _ _ _ _ _ h.step]
  simp [addStepEntry, hrecord]

/-- The end of a frame touches the receiver alone. -/
theorem received_quiet (s : State) (st : Station) : s.Quiet s.received st :=
  ⟨rfl, rfl, rfl, rfl, rfl, rfl, rfl, rfl, rfl, rfl, fun _ _ => rfl, rfl, rfl, rfl, rfl, rfl, rfl, rfl⟩

/-! ### Failed steps (R7) -/

/-- A step that fails takes the station to STOPPING without an abort cause and without a notice (R7). -/
theorem RunsStep.failStep (h : s.RunsStep st x r) (c : StepCause) :
    s.EntersStopping (s.failStep st c) st none false ∧ (s.failStep st c).link = s.link
      ∧ (s.failStep st c).stepEntries st = some (r.steps ++ [⟨x.index, x.spec.kind, .failed, some c⟩]) := by
  refine ⟨?_, ?_, ?_⟩
  · exact (enterStopping_entersStopping _ st none false).after (finishStep_quiet s st _ _) (by simp)
      fun e he => .inl (by simpa [heldEngine] using he)
  · exact (enterStopping_link _ st false).trans (by simp)
  · exact (enterStopping_record_steps (finishStep_step s st _ _) none false).trans (h.finishStep_entries _ _)

/-- No engine's holder has become this station. -/
def GainsNone (s t : State) (st : Station) : Prop :=
  ∀ e : EngineId, (t.engine e).holder = some st → (s.engine e).holder = some st

theorem GainsNone.of_eq (h : ∀ e, (t.engine e).holder = (s.engine e).holder) : s.GainsNone t st := fun e he => (h e).symm.trans he

/-- A station that gains no engine still holds the engine it held, unless it gave that up. -/
theorem GainsNone.heldEngine (h : s.GainsNone t st) {e : EngineId} (he : s.heldEngine st = some e) :
    t.heldEngine st = some e ∨ (t.engine e).holder ≠ some st := by
  by_cases hholds : (t.engine e).holder = some st
  · refine .inl ?_
    unfold State.heldEngine at he ⊢
    cases e with
    | a => exact if_pos hholds
    | b =>
      have hother : t.noise.engineA.holder ≠ some st := fun ha => by
        exact absurd ((if_pos (h .a ha)).symm.trans he) nofun
      rw [if_neg hother]
      exact if_pos hholds
  · exact .inr hholds

/-- An engine that becomes FREE passes to no station that does not wait. -/
theorem freeEngine_gainsNone (hqueue : ∀ w ∈ s.noise.queue, w.station ≠ st) (e : EngineId) :
    s.GainsNone (s.freeEngine e) st := by
  obtain ⟨-, -, -, hothers, hpassed⟩ := passEngine_other (s.modEngine e Engine.release) e st (by simpa using hqueue)
  intro d hd
  by_cases hde : d = e
  · subst hde
    unfold freeEngine at hd
    rcases hpassed with h | h
    · rw [h, engine_modEngine, if_pos rfl] at hd
      exact absurd hd nofun
    · exact absurd hd h
  · unfold freeEngine at hd
    rwa [hothers d hde, engine_modEngine, if_neg hde] at hd

/-- A station that does not wait stands nowhere in the engine queue. -/
theorem not_waiting (h : s.waiting st = false) : (∀ w ∈ s.noise.queue, w.station ≠ st) ∧ s.noise.deferred[st.val] = none := by
  simp only [waiting, waitsForEngine, Bool.or_eq_false_iff, List.any_eq_false, beq_iff_eq, Option.isSome_eq_false_iff,
    Option.isNone_iff_eq_none, Fin.getElem_fin] at h
  exact h

/-- The end of a window brings its station no engine (R109 to R111). -/
theorem windowEnd_gainsNone (s : State) (st : Station) (g i : Nat) : s.GainsNone (s.windowEnd st g i) st := by
  unfold windowEnd
  split
  · exact .of_eq fun e => by rw [(unmeasured_noise _ st g).1 e]; cases e <;> rfl
  rename_i hwaits
  split
  · exact .of_eq fun _ => rfl
  split
  · exact .of_eq fun _ => rfl
  rename_i e _
  simp only
  split
  · exact .of_eq fun _ => rfl
  split
  · refine .of_eq fun d => ?_
    rw [engine_modEngine]
    split <;> simp_all
  split
  · refine .of_eq fun d => ?_
    rw [modGroups_engine, engine_modEngine]
    split <;> simp_all
  · intro d hd
    refine Eq.trans ?_ (freeEngine_gainsNone (by simpa [enterGroup] using (not_waiting (by simpa using hwaits)).1) e d hd)
    cases d <;> rfl

/-- The extension timer's end fails the step and ends the window (R61). -/
theorem RunsStep.extendTimeout (h : s.RunsStep st x r) {duration g ext : Nat} {extend : Bool}
    (hspec : x.spec = .dwell duration (some g) extend ext) :
    s.EntersStopping (s.extendTimeout st) st none false ∧ (s.extendTimeout st).link = s.link
      ∧ (s.extendTimeout st).stepEntries st = some (r.steps ++ [⟨x.index, .dwell, .failed, some .extendTimeout⟩]) := by
  have hends : s.extendTimeout st =
      ((s.finishStep st .failed (some .extendTimeout)).windowEnd st g x.index).enterStopping st none false := by
    obtain ⟨i, spec, phase, start, unmeasured⟩ := x
    obtain rfl : spec = _ := hspec
    simp only [State.extendTimeout, h.step]
  rw [hends]
  refine ⟨?_, ?_, ?_⟩
  · refine (enterStopping_entersStopping _ st none false).after ((finishStep_quiet s st _ _).trans (windowEnd_quiet _ st g _))
      (by simp) fun e he => ?_
    have hheld : (s.finishStep st .failed (some .extendTimeout)).heldEngine st = some e := by simpa [heldEngine] using he
    exact ((windowEnd_gainsNone _ st g x.index).heldEngine hheld).imp_right
      ((enterStopping_noiseGivenUp _ st none false).gained e)
  · exact (enterStopping_link _ st false).trans (by simp)
  · refine (enterStopping_record_steps ?_ none false).trans ?_
    · have hnone := windowEnd_step_index (s.finishStep st .failed (some .extendTimeout)) st st g x.index
      rwa [finishStep_step, Option.map_none, Option.map_eq_none_iff] at hnone
    · refine Eq.trans ?_ ((h.finishStep_entries .failed (some .extendTimeout)).trans (by rw [hspec]; rfl))
      simp

/-! ### The beginning of the next step (R52, R53) -/

/-- What the beginning of a step does, seen from before a change of the record alone that the record `r` holds. -/
theorem BeginsStep.of_remark {m : Remark} {index : Nat} {spec : StepSpec} (h : (s.remark st m).BeginsStep t st index spec r) :
    s.BeginsStep t st index spec r :=
  ⟨fun d g b k l hspec hl => by
    obtain ⟨hclosed, hresumes, hcomputes, hdefers, hclaims, hwaits, hkept, hothers⟩ := h.window d g b k l hspec hl
    exact ⟨hclosed, hresumes, hcomputes, hdefers, hclaims, hwaits, hkept, hothers⟩, h.plain⟩

/-- The beginning of a step, seen from before the end of a frame. -/
theorem BeginsStep.of_received {index : Nat} {spec : StepSpec} (h : s.received.BeginsStep t st index spec r) :
    s.BeginsStep t st index spec r :=
  ⟨fun d g b k l hspec hl => by
    obtain ⟨hclosed, hresumes, hcomputes, hdefers, hclaims, hwaits, hkept, hothers⟩ := h.window d g b k l hspec hl
    exact ⟨hclosed, hresumes, hcomputes, hdefers, hclaims, hwaits, hkept, hothers⟩, h.plain⟩

/-- The beginning of a step does not look at the link. -/
theorem BeginsStep.link {u : State} {index : Nat} {spec : StepSpec} (h : s.BeginsStep t st index spec r)
    (hu : { t with link := u.link } = u) : s.BeginsStep u st index spec r := by
  rw [← hu]
  refine ⟨fun d g b k l hspec hl => ?_, h.plain⟩
  obtain ⟨hclosed, hresumes, hcomputes, hdefers, hclaims, hwaits, hkept, hothers⟩ := h.window d g b k l hspec hl
  refine ⟨hclosed, hresumes, hcomputes, hdefers, hclaims, fun h₁ h₂ h₃ h₄ => ?_, hkept, hothers⟩
  obtain ⟨hengine, hdeferred, hqueued, hexpired⟩ := hwaits h₁ h₂ h₃ h₄
  refine ⟨hengine, hdeferred, hqueued, fun hzero => ?_⟩
  obtain ⟨hqueue, hunmeasured, hcounted, hends⟩ := hexpired hzero
  exact ⟨hqueue, hunmeasured, hcounted, hends.remark, hends.goesOn, hends.closes⟩

/-- The duration's end of a DWELL that ends its step at once (R59, R61). -/
theorem RunsStep.dwellExpiry_eq (h : s.RunsStep st x r) {duration ext : Nat} {window : Option Nat} {extend : Bool}
    (hspec : x.spec = .dwell duration window extend ext)
    (hends : ∀ g, window = some g → extend = true → s.groupClosed st g = true ∨ x.unmeasured = true) :
    s.dwellExpiry st = (match window, extend with
      | some g, false => s.windowEnd st g x.index
      | _, _ => s).endStep st .done := by
  obtain ⟨i, spec, phase, start, unmeasured⟩ := x
  obtain rfl : spec = _ := hspec
  unfold State.dwellExpiry
  rw [h.step]
  cases window with
  | none => rfl
  | some g =>
    cases extend with
    | false => rfl
    | true => exact if_pos (hends g rfl rfl)

/-- A window's end changes nothing when its station does not wait and no engine accumulates for its group (R109). -/
theorem windowEnd_eq_self {g : Nat} (i : Nat) (hwaits : s.waiting st = false) (hline : ∀ l, s.line st g = some l →
    l.status = .closed ∨ ∀ e, l.engine = some e → (s.engine e).state ≠ .accumulating) : s.windowEnd st g i = s := by
  unfold windowEnd
  rw [if_neg (by simp [hwaits])]
  split
  · rfl
  · rename_i l hl
    split
    · rfl
    · rename_i e he
      exact if_pos ((hline l hl).imp_right fun h => h e he)

/-- The step in progress after the end of its window: the same step, possibly unmeasured. -/
theorem RunsStep.windowEnd (h : s.RunsStep st x r) (g i : Nat) :
    ∃ y, ((s.windowEnd st g i).ctx st).step = some y ∧ y.index = x.index ∧ y.spec = x.spec := by
  have hindex := windowEnd_step_index s st st g i
  have hspec := windowEnd_step_spec s st st g i
  have hstep := h.step
  simp only [ctx, Fin.getElem_fin] at hstep ⊢
  rw [hstep] at hindex hspec
  obtain ⟨y, hy, hyi⟩ := Option.map_eq_some_iff.mp hindex
  rw [hy] at hspec
  exact ⟨y, hy, hyi, Option.some.inj hspec⟩

/-- A window that ends lets the next step begin (R52, R59, R60). -/
theorem RunsStep.windowEnd_stepsOn (h : s.RunsStep st x r) {spec : StepSpec} (hnext : s.nextIs st x.index spec) (g : Nat) :
    s.StepsOn ((s.windowEnd st g x.index).endStep st .done) st ⟨x.index, x.spec.kind, .done, none⟩ spec
      ∧ ((s.windowEnd st g x.index).endStep st .done).link = s.link := by
  obtain ⟨y, hy, hindex, hspec⟩ := h.windowEnd g x.index
  have hnext' : (s.windowEnd st g x.index).nextIs st y.index spec := by
    unfold nextIs at *
    rwa [recipe_of_test (s := s) (by simp), hindex]
  have hrunning : (s.windowEnd st g x.index).stateOf st = .running := by simpa [stateOf] using h.running
  have hon := endStep_stepsOn _ st .done y spec hrunning hy hnext'
  rw [hindex, hspec] at hon
  exact ⟨hon.after (windowEnd_quiet s st g x.index) (by simp [stepEntries, ctx]),
    (endStep_link .done hy hnext').trans (by simp)⟩

/-- A step that ends with a remark lets the next step begin (R63, R64). -/
theorem RunsStep.remark_endStep (h : s.RunsStep st x r) {spec : StepSpec} (hnext : s.nextIs st x.index spec) (m : Remark)
    (o : StepOutcome) :
    s.StepsOn ((s.remark st m).endStep st o) st ⟨x.index, x.spec.kind, o, none⟩ spec
      ∧ s.BeginsStep ((s.remark st m).endStep st o) st (x.index + 1) spec (r.addRemark m)
      ∧ ((s.remark st m).endStep st o).link = s.link := by
  have hstep : ((s.remark st m).ctx st).step = some x := by simpa [ctx] using h.step
  have hrecord : ((s.remark st m).ctx st).record = some (r.addRemark m) := by
    have := h.record
    simp only [ctx, Fin.getElem_fin] at this
    simp [State.remark, this]
  have hnext' : (s.remark st m).nextIs st x.index spec := by
    unfold nextIs at *
    rwa [recipe_of_test (s := s) (by simp)]
  refine ⟨?_, (endStep_beginsStep _ st o x spec _ hstep hrecord hnext').of_remark, (endStep_link o hstep hnext').trans (by simp)⟩
  refine (endStep_stepsOn _ st o x spec (by simpa [stateOf] using h.running) hstep hnext').after (remark_quiet s st m) ?_
  simp [stepEntries, ctx, Function.comp_def]

end State

/-- Settles O19. -/
theorem stepTimeoutsFailStep : Obligations.StepTimeoutsFailStep := by
  intro st x r s hruns
  refine ⟨fun target rate torque tolerance inBand timeout hspec helapsed => ?_,
    fun q rel value hold timeout hspec helapsed => ?_, fun duration g extend ext since hspec hphase helapsed => ?_⟩
  · obtain ⟨hstops, hlink, hentries⟩ := hruns.failStep .rampTimeout
    have hdue : s.rampTimeoutDue st = true := by simp [State.rampTimeoutDue, hruns.stepIs, hspec, helapsed]
    refine ⟨_, (exec_rampTimeout s st).trans (State.eventWhen_sameLink hdue hlink), hstops, hlink, ?_⟩
    rw [hentries, hspec]
    rfl
  · obtain ⟨hstops, hlink, hentries⟩ := hruns.failStep .gateTimeout
    have hdue : s.gateTimeoutDue st = true := by simp [State.gateTimeoutDue, hruns.stepIs, hspec, helapsed]
    have hends : s.gateTimeout st = s.failStep st .gateTimeout := by
      obtain ⟨i, spec, phase, start, unmeasured⟩ := x
      obtain rfl : spec = _ := hspec
      simp only [State.gateTimeout, hruns.step]
    refine ⟨_, (exec_gateTimeout s st).trans (State.eventWhen_sameLink hdue (hends ▸ hlink)), hends ▸ hstops, hends ▸ hlink, ?_⟩
    rw [hends, hentries, hspec]
    rfl
  · obtain ⟨hstops, hlink, hentries⟩ := hruns.extendTimeout hspec
    have hdue : s.extendTimeoutDue st = true := by simp [State.extendTimeoutDue, hruns.stepIs, hspec, hphase, helapsed]
    exact ⟨_, (exec_extendTimeout s st).trans (State.eventWhen_sameLink hdue hlink), hstops, hlink, hentries⟩

/-- The duration of a DWELL in TIMED has run out (R59). -/
theorem dwellExpiryDue_of_elapsed {s : State} {st : Station} {x : StepCtx} {r : Record} (hruns : s.RunsStep st x r)
    {duration ext : Nat} {window : Option Nat} {extend : Bool} (hspec : x.spec = .dwell duration window extend ext)
    (hphase : x.phase = .timed) (helapsed : duration ≤ elapsed x.start s.now) : s.dwellExpiryDue st = true := by
  simp [State.dwellExpiryDue, hruns.stepIs, hspec, hphase, helapsed]

/-- Settles O20. -/
theorem stepEndsBeginNextStep : Obligations.StepEndsBeginNextStep := by
  refine ⟨fun st x r s duration g ext hruns hspec hphase hmeasured hopen helapsed => ?_,
    fun tag s hslot => ⟨fun b hb => ?_, fun st hnogate => ?_⟩, fun st x r spec s hruns hnext =>
      ⟨fun duration window extend ext hspec hphase helapsed hends => ?_, fun q rel value hold timeout hspec helapsed => ?_,
        fun tag q rel value hold timeout action hspec hslot => ?_⟩⟩
  · have hextends : s.dwellExpiry st = s.modStep st (fun y => { y with phase := .extended s.now }) := by
      obtain ⟨i, spec, phase, start, unmeasured⟩ := x
      obtain rfl : spec = _ := hspec
      obtain rfl : unmeasured = false := hmeasured
      unfold State.dwellExpiry
      rw [hruns.step]
      exact if_neg (by simp [hopen])
    rw [exec_dwellDurationExpiry, ← hextends]
    exact State.eventWhen_sameLink (dwellExpiryDue_of_elapsed hruns hspec hphase helapsed) (by rw [hextends]; rfl)
  · rw [exec_request (c := .skg tag b) rfl hslot]
    simp only [serveChecked, serveCommand, serveSkg, withStation_badStation _ _ _ hb]
    rfl
  · have hserve : serveSkg (stationCode st) s.received = refuse s.received .noGate := by
      rw [serveSkg, withStation_stationCode]
      split
      · rename_i hrunning hstep
        rcases hnogate with hstate | hspec
        · exact absurd hrunning hstate
        · exact absurd rfl (hspec _ _ _ _ _ _ _ hstep)
      · rfl
    rw [exec_request (c := .skg tag (stationCode st)) rfl hslot]
    simp only [serveChecked, serveCommand, hserve]
    rfl
  · have hdue := dwellExpiryDue_of_elapsed hruns hspec hphase helapsed
    have hexpiry := hruns.dwellExpiry_eq hspec hends
    have hkind : x.spec.kind = .dwell := by rw [hspec]; rfl
    have hat : s.StepsOn (s.endStep st .done) st ⟨x.index, .dwell, .done, none⟩ spec := by
      have := State.endStep_stepsOn s st .done x spec hruns.running hruns.step hnext
      rwa [hkind] at this
    have hbegins := State.endStep_beginsStep s st .done x spec r hruns.step hruns.record hnext
    rw [exec_dwellDurationExpiry]
    by_cases hwindow : ∃ g, window = some g ∧ extend = false
    · obtain ⟨g, rfl, rfl⟩ := hwindow
      obtain ⟨hon, hlink⟩ := hruns.windowEnd_stepsOn hnext g
      rw [hkind] at hon
      refine ⟨_, State.eventWhen_sameLink hdue (by rw [hexpiry]; exact hlink), hexpiry ▸ hon, fun hquiet => ?_⟩
      obtain ⟨hwaits, hline⟩ := (hquiet.resolve_left nofun).resolve_left nofun
      rw [hexpiry]
      show s.BeginsStep ((s.windowEnd st g x.index).endStep st .done) st (x.index + 1) spec r
      rw [State.windowEnd_eq_self x.index hwaits fun l hl => hline g l rfl hl]
      exact hbegins
    · have hself : s.dwellExpiry st = s.endStep st .done := by
        rw [hexpiry]
        cases window with
        | none => rfl
        | some g =>
          cases extend with
          | false => exact absurd ⟨g, rfl, rfl⟩ hwindow
          | true => rfl
      refine ⟨_, State.eventWhen_sameLink hdue (by rw [hself]; exact State.endStep_link .done hruns.step hnext),
        hself ▸ hat, fun _ => hself ▸ hbegins⟩
  · obtain ⟨hon, hbegins, hlink⟩ := hruns.remark_endStep hnext .gateTimeout .timedOut
    have hdue : s.gateTimeoutDue st = true := by simp [State.gateTimeoutDue, hruns.stepIs, hspec, helapsed]
    have hends : s.gateTimeout st = (s.remark st .gateTimeout).endStep st .timedOut := by
      obtain ⟨i, spec, phase, start, unmeasured⟩ := x
      obtain rfl : spec = _ := hspec
      simp only [State.gateTimeout, hruns.step]
    have hkind : x.spec.kind = .gate := by rw [hspec]; rfl
    rw [hkind] at hon
    exact ⟨_, (exec_gateTimeout s st).trans (State.eventWhen_sameLink hdue (hends ▸ hlink)), hends ▸ hon, hends ▸ hbegins⟩
  · have hreceived : s.received.RunsStep st x r := ⟨hruns.running, hruns.step, hruns.record⟩
    obtain ⟨hon, hbegins, -⟩ := hreceived.remark_endStep (spec := spec) hnext .gateSkipped .skipped
    have hserve : serveSkg (stationCode st) s.received =
        answer ((s.received.remark st .gateSkipped).endStep st .skipped) [byteOf x.index] := by
      obtain ⟨i, spec, phase, start, unmeasured⟩ := x
      obtain rfl : spec = _ := hspec
      rw [serveSkg, withStation_stationCode]
      simp only [hreceived.running, hreceived.step]
    have hkind : x.spec.kind = .gate := by rw [hspec]; rfl
    rw [hkind] at hon
    exact ⟨_, State.exec_served (c := .skg tag (stationCode st)) rfl hslot hserve,
      (hon.after (s.received_quiet st) rfl).link (State.replies_only_link ..),
      hbegins.of_received.link (State.replies_only_link ..), State.replies_slot ..⟩

/-! ### The chain's end (R6) -/

/-- The chain is at its end after the step in progress (R6, R52). -/
theorem endStep_chainEnd {s : State} {st : Station} {x : StepCtx} {r : Record} (hruns : s.RunsStep st x r) (o : StepOutcome)
    (hlast : (s.recipe st).bind (fun c => c.steps[x.index]?) = none) :
    s.endStep st o = (s.finishStep st o none).chainEnd st := by
  have hlast' : ((s.finishStep st o none).recipe st).bind (fun c => c.steps[x.index]?) = none := by
    rwa [State.recipe_of_test (s := s) (by simp)]
  rw [State.endStep_eq _ _ _ _ hruns.step, State.nextStep, hlast']

/-- Settles O21. -/
theorem chainEndDecidesState : Obligations.ChainEndDecidesState := by
  intro st x r s duration ext extend hruns hspec hphase helapsed hlast
  have hdue := dwellExpiryDue_of_elapsed hruns hspec hphase helapsed
  have hends : s.dwellExpiry st = (s.finishStep st .done none).chainEnd st :=
    (hruns.dwellExpiry_eq hspec fun g hg => absurd hg nofun).trans (endStep_chainEnd hruns .done hlast)
  have hstands : (s.drive[st].setpoint = 0 ∧ (s.quantity st .speed).held.natAbs ≤ s.config.standstill) ↔
      ((s.finishStep st .done none).drive[st].setpoint = 0 ∧ (s.finishStep st .done none).atStandstill st = true) := by
    simp [State.atStandstill, State.quantity]
  rw [exec_dwellDurationExpiry]
  refine ⟨fun h => ?_, fun h => ?_⟩
  · refine ⟨_, eventWhen_taken _ _ s hdue, ?_⟩
    rw [hends, State.chainEnd, if_pos (hstands.mp h)]
    refine State.EntersCompleting.link ?_ (State.afterNotices_only_link ..)
    exact (State.complete_entersCompleting _ st).after
      ((State.finishStep_quiet s st .done none).trans (State.leaveRunning_quiet _ st))
      ((State.leaveRunning_live_stations _ st).trans (by simp))
  · have hstops : s.dwellExpiry st = (s.finishStep st .done none).enterStopping st none false := by
      rw [hends, State.chainEnd, if_neg (h ∘ hstands.mpr)]
    have hlink : (s.dwellExpiry st).link = s.link := by
      rw [hstops]
      exact (State.enterStopping_link _ st false).trans (by simp)
    refine ⟨_, State.eventWhen_sameLink hdue hlink, ?_, hlink, ?_⟩
    · rw [hstops]
      exact (State.enterStopping_entersStopping _ st none false).after (State.finishStep_quiet s st _ _) (by simp)
        fun e he => .inl (by simpa [State.heldEngine] using he)
    · rw [hstops]
      refine (State.enterStopping_record_steps (State.finishStep_step s st _ _) none false).trans ?_
      rw [hruns.finishStep_entries, hspec]
      rfl

end Sys2Proof.Machine
end

section
/-! PROOFS. ABT (R21), DRIVE_FAULT (R73), and the deposit with RLR (R13, R167, R170). -/

namespace Sys2Proof.Machine

open Sys2Proof

set_option Elab.async false

/-! ### ABT (R21) -/

/-- Settles O14. -/
theorem abtStopsRunningStation : Obligations.AbtStopsRunningStation := by
  refine fun tag s hslot => ⟨fun b hb => ?_, fun st => ⟨fun hrunning => ?_, fun hstopping => ?_, fun hnot₁ hnot₂ => ?_⟩⟩
  · exact State.exec_served (c := .abt tag b) rfl hslot (withStation_badStation _ _ _ hb)
  · have hserve : serveAbt (stationCode st) s.received
        = answer (s.received.enterStopping st (some .hostAbort) false) [StationState.stopping.code] := by
      rw [serveAbt, withStation_stationCode]
      have : s.received.stateOf st = .running := hrunning
      simp only [this, (State.enterStopping_entersStopping s.received st (some .hostAbort) false).state]
    refine ⟨_, State.exec_served (c := .abt tag (stationCode st)) rfl hslot hserve, ?_, State.replies_slot .., ?_⟩
    · exact ((State.enterStopping_entersStopping _ st _ false).after (s.received_quiet st) rfl fun e he => .inl he).link
        (State.replies_only_link ..)
    · exact (State.enterStopping_notices s.received st (some .hostAbort) false).answers ..
  · have hserve : serveAbt (stationCode st) s.received = answer s.received [StationState.stopping.code] := by
      rw [serveAbt, withStation_stationCode]
      have : s.received.stateOf st = .stopping := hstopping
      simp only [this]
    exact State.exec_served (c := .abt tag (stationCode st)) rfl hslot hserve
  · have hserve : serveAbt (stationCode st) s.received = (s.received, [Status.state.code, (s.stateOf st).code]) := by
      rw [serveAbt, withStation_stationCode]
      have hsame : s.received.stateOf st = s.stateOf st := rfl
      simp only [hsame]
      cases hstate : s.stateOf st with
      | running => exact absurd hstate hnot₁
      | stopping => exact absurd hstate hnot₂
      | _ => rfl
    exact State.exec_served (c := .abt tag (stationCode st)) rfl hslot hserve

/-! ### DRIVE_FAULT (R73) -/

/-- The drive-fault input at a level, and nothing else of the state changed. -/
def State.withFault (s : State) (st : Station) (active : Bool) : State :=
  { s with pins := { s.pins with driveFault := s.pins.driveFault.upd st (fun _ => active) } }

/-- An edge of the drive-fault input becoming active is reported (R73). -/
theorem driveFaultInput_edge {s : State} {st : Station} (h : s.pins.driveFault[st] = false) :
    s.driveFaultInput st true = (s.withFault st true).driveFaultReport st := by
  unfold State.driveFaultInput
  simp only [h]
  rfl

/-- Settles O11. -/
theorem driveFaultDropsDrive : Obligations.DriveFaultDropsDrive := by
  refine fun st s => ⟨fun hedge henable hrunning => ?_, fun hedge henable hstopping => ?_, fun henable => ?_, ?_⟩
  · have hinput : s.driveFaultInput st true = (s.withFault st true).enterStopping st (some .driveFault) true := by
      rw [driveFaultInput_edge hedge, State.driveFaultReport, if_pos (by exact henable)]
      have : (s.withFault st true).stateOf st = .running := hrunning
      simp only [this]
    refine ⟨s.afterNotices (s.driveFaultInput st true), exec_driveFault s st true, ?_, ?_⟩
    · rw [hinput]
      exact (State.enterStopping_entersStopping _ st _ true).link (State.afterNotices_only_link ..)
    · rw [hinput]
      exact State.SameNotices.gives <|
        (State.SameNotices.give (s := s) (t := s.withFault st true) ⟨rfl, rfl⟩ [.nst st .stopping (some .driveFault) none]).trans
          (State.enterStopping_notices _ st (some .driveFault) true)
  · have hinput : s.driveFaultInput st true = ((s.withFault st true).modDrive st
        (fun d => { Drive.off with standstill := d.standstill })).remark st .driveFault := by
      rw [driveFaultInput_edge hedge, State.driveFaultReport, if_pos (by exact henable)]
      have : (s.withFault st true).stateOf st = .stopping := hstopping
      simp only [this]
    have hlink : (s.driveFaultInput st true).link = s.link := by
      rw [hinput]
      simp [State.withFault]
    refine ⟨s.driveFaultInput st true, (exec_driveFault s st true).trans ?_, ?_⟩
    · rw [event, State.afterNotices, hlink, if_neg (lt_irrefl _)]
    · rw [hinput]
      have hstate := hstopping
      simp only [State.stateOf, Fin.getElem_fin] at hstate
      refine ⟨?_, ?_, ?_, ?_, ?_, fun j hj => ⟨?_, ?_⟩⟩
      · simpa [State.withFault, State.stateOf] using hstate
      · simp [State.withFault, Drive.off]
      · simp [State.withFault, State.remark]
      · simp [State.withFault]
      · simp [State.withFault]
      · simp [State.withFault, Ne.symm hj]
      · simp [State.withFault, Ne.symm hj]
  · have hinput : s.driveFaultInput st true = s.withFault st true := by
      unfold State.driveFaultInput
      simp only
      split
      · exact if_neg (by simpa using henable)
      · rfl
    rw [exec_driveFault, event, hinput]
    exact congrArg Host.Outcome.next (if_neg (lt_irrefl _))
  · have hinput : s.driveFaultInput st false = s.withFault st false := by
      unfold State.driveFaultInput
      exact if_neg (fun h => Bool.false_ne_true h.1)
    rw [exec_driveFault, event, hinput]
    exact congrArg Host.Outcome.next (if_neg (lt_irrefl _))

/-! ### Deposits (R13, R165 to R170) -/

/-- The store takes a closed record with its number (R13, R167). -/
theorem State.depositStation_takes {s : State} {st : Station} {n : Nat} {r : Record} {c : TestCtx} {v : Verdict}
    (hnext : s.store.next = some n) (hrecord : (s.ctx st).record = some r) (htest : (s.ctx st).test = some c)
    (hverdict : r.verdict = some v) : s.TakesRecord (s.depositStation st) st s.store.records n c r v := by
  have hv : r.verdict.getD .pass = v := by rw [hverdict]; rfl
  have hothers : s.OthersKept (s.depositStation st) st := fun j hj => ⟨by simp [hj.symm], by simp⟩
  unfold depositStation at hothers ⊢
  simp only [hnext, hrecord, htest, hv] at hothers ⊢
  constructor
  case others => exact hothers
  case counted =>
    simp only [countVerdict, giveNotice_counters_live_stations]
    simp
    cases v <;> rfl
  case entry =>
    intro i w e he hw
    have hw' : s.table[i.val][w.val] = some e := hw
    simp [he, settleRecipe, modEntry, hw', satAdd]
  case slot =>
    intro he
    simp [he, settleRecipe]
  case test => simp; exact ⟨c, htest, by simp⟩
  case state => simp [stateOf]
  all_goals simp [numberAfter]

/-- A deposit from the head of the queue, with the records `kept` in the store (R167, R170). -/
def State.depositing (s : State) (kept : List Record) (waiting : List Station) : State :=
  { s with store := { s.store with records := kept, deposit := waiting } }

/-- The records of the store replaced. -/
def State.withRecords (s : State) (kept : List Record) : State := { s with store := { s.store with records := kept } }

/-- A deposit does not look at the link. -/
theorem State.TakesRecord.link {s t u : State} {st : Station} {kept : List Record} {n : Nat} {c : TestCtx} {r : Record}
    {v : Verdict} (h : s.TakesRecord t st kept n c r v) (hu : { t with link := u.link } = u) :
    s.TakesRecord u st kept n c r v := by
  rw [← hu]
  exact ⟨h.records, h.next, h.state, h.record, h.test, h.changed, h.counted, h.entry, h.slot, h.others⟩

section

variable {s : State} {st : Station} {waiting : List Station} {kept : List Record} {n : Nat} {r : Record} {c : TestCtx}
  {v : Verdict}

/-- The head of the deposit queue deposits (R167). -/
theorem depositHead_eq (hdeposit : s.store.deposit = st :: waiting) (hnext : s.store.next = some n) :
    (s.withRecords kept).depositHead = (s.depositing kept waiting).depositStation st := by
  unfold State.depositHead
  simp only [State.withRecords, hdeposit, hnext, State.depositing]

/-- RLR that names the oldest record (R170). -/
theorem serveRlr_oldest {k : Word32} {oldest : Record} (hrecords : s.store.records = oldest :: kept)
    (holdest : oldest.number = some k.toNat) :
    serveRlr k s = answer (s.withRecords kept).depositHead
      (le32 k ++ (s.withRecords kept).depositHead.occupancy :: depositBytes s.store.deposit.head? s.store.next) := by
  unfold serveRlr
  rw [hrecords]
  exact if_neg (not_not.mpr holdest)

/-- What the deposit of the queue's head does (R13, R167). -/
theorem depositing_takes (hnext : s.store.next = some n) (hrecord : (s.ctx st).record = some r)
    (htest : (s.ctx st).test = some c) (hverdict : r.verdict = some v) :
    s.TakesRecord ((s.depositing kept waiting).depositStation st) st kept n c r v
      ∧ ((s.depositing kept waiting).depositStation st).store.deposit = waiting
      ∧ ((s.depositing kept waiting).depositStation st).drive = s.drive
      ∧ ((s.depositing kept waiting).depositStation st).mon = s.mon := by
  have h := State.depositStation_takes (s := s.depositing kept waiting) hnext hrecord htest hverdict
  refine ⟨⟨h.records, h.next, h.state, h.record, h.test, h.changed, h.counted, h.entry, h.slot, h.others⟩, ?_, ?_, ?_⟩
  · unfold State.depositStation
    simp only [State.depositing, State.ctx, Fin.getElem_fin] at hnext hrecord htest ⊢
    simp [hnext, hrecord, htest]
  · simp [State.depositing]
  · simp [State.depositing]

/-- The notice of a deposit from the queue (R13). -/
theorem depositing_notices {u : State} (hu : u.SameNotices s) (hnext : s.store.next = some n)
    (hrecord : (s.ctx st).record = some r) (htest : (s.ctx st).test = some c) (hverdict : r.verdict = some v) :
    (u.giveNotice (.nst st .done c.cause (some (v, n)))).SameNotices ((s.depositing kept waiting).depositStation st) := by
  have h := State.depositStation_notices (s.depositing kept waiting) st n r c hnext hrecord htest
  rw [show r.verdict.getD .pass = v by rw [hverdict]; rfl] at h
  exact (State.SameNotices.giveNotice (t := s.depositing kept waiting) ⟨hu.1, hu.2⟩ _).trans h

/-- DEPOSIT with the store's room, a waiting station and a number left (R166, R167). -/
theorem exec_deposit_taken (hroom : s.store.records.length < 48) (hdeposit : s.store.deposit = st :: waiting)
    (hnext : s.store.next = some n) :
    exec .deposit s = .next (s.afterNotices ((s.depositing s.store.records waiting).depositStation st)) := by
  rw [exec_deposit, eventWhen_taken _ _ s (decide_eq_true hroom)]
  exact congrArg (fun t => Host.Outcome.next (s.afterNotices t)) (depositHead_eq (kept := s.store.records) hdeposit hnext)

/-- RLR that names the oldest record, with a waiting station and a number left (R170). -/
theorem exec_rlr_deposits {tag : Byte} {k : Word32} {oldest : Record} (hslot : s.link.slot = none)
    (hrecords : s.store.records = oldest :: kept) (holdest : oldest.number = some k.toNat)
    (hdeposit : s.store.deposit = st :: waiting) (hnext : s.store.next = some n) :
    exec (.rlr tag k) s = .next (((s.received.depositing kept waiting).depositStation st).replies 0xC1 tag
      (0x00 :: (le32 k ++ byteOf ((s.received.depositing kept waiting).depositStation st).store.records.length
        :: stationCode st :: nat32 n))) := by
  have hserve : serveRlr k s.received = answer ((s.received.depositing kept waiting).depositStation st)
      (le32 k ++ byteOf ((s.received.depositing kept waiting).depositStation st).store.records.length
        :: stationCode st :: nat32 n) := by
    rw [serveRlr_oldest (s := s.received) hrecords holdest, depositHead_eq (s := s.received) hdeposit hnext,
      show s.received.store = s.store from rfl, hdeposit, hnext]
    rfl
  exact State.exec_served (c := .rlr tag k) rfl hslot hserve

end

/-- Nobody waits or no number is left: the queue makes no deposit (R167). -/
theorem depositHead_eq_self {s : State} (h : s.store.deposit = [] ∨ s.store.next = none) : s.depositHead = s := by
  unfold State.depositHead
  split
  · rename_i hdeposit hnext
    rcases h with h | h
    · exact absurd (h.symm.trans hdeposit) nofun
    · exact absurd (h.symm.trans hnext) nofun
  · rfl

/-- Settles O45. -/
theorem depositNumbersRecord : Obligations.DepositNumbersRecord := by
  refine ⟨fun st waiting n r c v s hdeposit hnext hrecord htest hverdict => ⟨fun kept t hexec => ?_, fun hroom => ?_,
    fun tag k oldest kept hslot hrecords holdest => ?_⟩, fun s hidle => ?_, fun tag k s hslot => ⟨fun hempty => ?_,
      fun oldest rest hrecords => ⟨fun hnot => ?_, fun holdest hidle => ?_⟩⟩⟩
  · rcases hexec with ⟨hroom, rfl, hexec⟩ | ⟨tag, k, oldest, hslot, hrecords, holdest, hexec⟩
    · rw [exec_deposit_taken hroom hdeposit hnext] at hexec
      obtain rfl := Host.Outcome.next.inj hexec
      obtain ⟨htakes, hqueue, hdrive, hmon⟩ :=
        depositing_takes (kept := s.store.records) (waiting := waiting) hnext hrecord htest hverdict
      exact ⟨htakes.link (State.afterNotices_only_link ..), by simpa using hqueue, by simpa using hdrive, by simpa using hmon⟩
    · rw [exec_rlr_deposits hslot hrecords holdest hdeposit hnext] at hexec
      obtain rfl := Host.Outcome.next.inj hexec
      obtain ⟨htakes, hqueue, hdrive, hmon⟩ :=
        depositing_takes (s := s.received) (kept := kept) (waiting := waiting) hnext hrecord htest hverdict
      exact ⟨⟨htakes.records, htakes.next, htakes.state, htakes.record, htakes.test, htakes.changed, htakes.counted,
        htakes.entry, htakes.slot, htakes.others⟩, hqueue, hdrive, hmon⟩
  · exact ⟨_, exec_deposit_taken hroom hdeposit hnext,
      State.SameNotices.gives (depositing_notices ⟨rfl, rfl⟩ hnext hrecord htest hverdict)⟩
  · have htakes := (depositing_takes (s := s.received) (kept := kept) (waiting := waiting) hnext hrecord htest hverdict).1
    have hlength : ((s.received.depositing kept waiting).depositStation st).store.records.length = kept.length + 1 := by
      rw [htakes.records, List.length_append]
      rfl
    have hanswers := (depositing_notices (u := s.received) (s := s.received) (kept := kept) (waiting := waiting) ⟨rfl, rfl⟩
      hnext hrecord htest hverdict)
    refine ⟨_, exec_rlr_deposits hslot hrecords holdest hdeposit hnext, ?_⟩
    rw [hlength]
    exact State.SameNotices.answers (s := s) (bs := [.nst st .done c.cause (some (v, n))]) hanswers ..
  · rw [exec_deposit]
    by_cases hroom : s.store.records.length < 48
    · have hself := depositHead_eq_self (s := s) (hidle.imp_right fun h => h.resolve_right (by omega))
      rw [State.eventWhen_sameLink (decide_eq_true hroom) (by rw [hself]), hself]
    · exact eventWhen_absent _ _ s (decide_eq_false hroom)
  · have hserve : serveRlr k s.received = refuse s.received .empty := by
      have hstore : s.received.store = s.store := rfl
      rw [serveRlr, hstore, hempty]
    exact State.exec_served (c := .rlr tag k) rfl hslot hserve
  · have hserve : serveRlr k s.received = refuse s.received .notOldest := by
      have hstore : s.received.store = s.store := rfl
      rw [serveRlr, hstore, hrecords]
      exact if_pos hnot
    exact State.exec_served (c := .rlr tag k) rfl hslot hserve
  · have hserve : serveRlr k s.received = answer (s.received.withRecords rest)
        (le32 k ++ byteOf rest.length :: 0x00 :: [0x00, 0x00, 0x00, 0x00]) := by
      have hself : (s.received.withRecords rest).depositHead = s.received.withRecords rest := depositHead_eq_self hidle
      have hbytes : depositBytes s.store.deposit.head? s.store.next = 0x00 :: [0x00, 0x00, 0x00, 0x00] := by
        rcases hidle with h | h
        · rw [h]; rfl
        · rw [h]; cases s.store.deposit.head? <;> rfl
      rw [serveRlr_oldest (s := s.received) hrecords holdest, hself, show s.received.store = s.store from rfl, hbytes]
      rfl
    exact State.exec_served (c := .rlr tag k) rfl hslot hserve

end Sys2Proof.Machine
end

section
/-! PROOFS. The wait for an engine and the end of a window: the wait limit (R102, R103), grants and deferred claims (R100,
R101), and a window's end at its duration (R109 to R111). -/

namespace Sys2Proof.Machine

open Sys2Proof

set_option Elab.async false

namespace State

variable {s t u : State} {st : Station} {x : StepCtx} {r : Record}

/-! ### The beginning of a step that is no window -/

/-- Engines, counters and the lists of the record in progress, but for its step outcomes, are as they were. -/
structure SameTest (s t : State) (st : Station) : Prop where
  noise : t.noise = s.noise
  counters : t.counters = s.counters
  remarks : t.remarks st = s.remarks st
  groups : (t.ctx st).record.map Record.groups = (s.ctx st).record.map Record.groups

/-- A step that is no window begins without the Noise Analyser (R52). -/
theorem beginStep_sameTest {spec : StepSpec} (hplain : ∀ d h b k, spec ≠ .dwell d (some h) b k) (i : Nat) :
    s.SameTest (s.beginStep st i spec) st := by
  cases spec with
  | dwell d w b k =>
    cases w with
    | none => constructor <;> simp [beginStep, State.remarks]
    | some g => exact absurd rfl (hplain d g b k)
  | _ => constructor <;> simp [beginStep, beginLeak, State.remarks]

/-- A step that ends with a next one that is no window (R52). -/
theorem endStep_sameTest {spec : StepSpec} (o : StepOutcome) (hx : (s.ctx st).step = some x)
    (hnext : s.nextIs st x.index spec) (hplain : ∀ d h b k, spec ≠ .dwell d (some h) b k) :
    s.SameTest (s.endStep st o) st := by
  have hnext' : (s.finishStep st o none).nextIs st x.index spec := by
    unfold nextIs at *
    rwa [recipe_of_test (s := s) (by simp)]
  rw [endStep_eq _ _ _ _ hx, nextStep_begins _ _ _ _ hnext']
  have h := beginStep_sameTest (s := s.finishStep st o none) (st := st) hplain (x.index + 1)
  refine ⟨h.noise.trans (by simp), h.counters.trans (by simp), h.remarks.trans ?_, h.groups.trans ?_⟩
  · rw [finishStep_eq _ _ _ _ _ hx]
    simp [State.remarks, addStepEntry, Function.comp_def]
  · rw [finishStep_eq _ _ _ _ _ hx]
    simp [addStepEntry, Function.comp_def]

/-- The end of a wait, seen after a step that is no window has begun. -/
theorem EndsWait.sameTest {index g : Nat} {l : GroupLine} (h : t.EndsWait st index g l r) (hu : t.SameTest u st) :
    u.EndsWait st index g l r := by
  have hline : u.line st g = t.line st g := line_congr st g (by rw [hu.noise])
  refine ⟨hu.remarks.trans h.remark, fun hi => ?_, fun hi => ?_⟩
  · exact ⟨hu.groups.trans (h.goesOn hi).1, hline.trans (h.goesOn hi).2⟩
  · exact ⟨hu.groups.trans (h.closes hi).1, hline.trans (h.closes hi).2⟩

/-- A step in EXTENDED ends DONE (R61). -/
theorem endExtended_eq {since : LineTime} (hx : (s.ctx st).step = some x) (hphase : x.phase = .extended since) :
    s.endExtended st = s.endStep st .done := by
  obtain ⟨i, spec, phase, start, unmeasured⟩ := x
  obtain rfl : phase = _ := hphase
  simp only [endExtended, hx]

/-- A step not in EXTENDED goes on (R61). -/
theorem endExtended_eq_self (hx : (s.ctx st).step = some x) (hphase : ∀ since, x.phase ≠ .extended since) :
    s.endExtended st = s := by
  unfold endExtended
  split
  · rename_i i spec since start unmeasured hstep
    obtain rfl := Option.some.inj (hx.symm.trans hstep)
    exact absurd rfl (hphase since)
  · rfl

/-! ### The wait limit (R102, R103) -/

/-- The end of a wait without an engine, before the window is marked: the station has left the queue, its claim is dropped and
the expiry counted. -/
def waitExpired (s : State) (st : Station) : State :=
  (s.dropWait st).countStation st (fun c => { c with engineWaitsExpired := satAdd c.engineWaitsExpired 1 })

theorem waitExpired_quiet (s : State) (st : Station) : s.Quiet (s.waitExpired st) st :=
  ⟨rfl, rfl, rfl, rfl, rfl, rfl, rfl, rfl, rfl, rfl, fun _ _ => rfl, rfl, rfl, rfl, rfl, rfl, rfl, rfl⟩

/-- The record of an unmeasured window before its group's last takes the remark alone (R103). -/
theorem unmeasured_record {g : Nat} {l : GroupLine} (hl : s.line st g = some l) (hx : (s.ctx st).step = some x)
    (hr : (s.ctx st).record = some r) (hi : x.index ≠ l.windows.last) :
    ((s.unmeasured st g).ctx st).record = some (r.addRemark .engineWait) := by
  have hl' : ((s.remark st .engineWait).modStep st (fun x => { x with unmeasured := true })).line st g = some l := by
    rw [line_congr (s := s) st g (by simp), hl]
  simp only [ctx, Fin.getElem_fin] at hx hr
  unfold unmeasured
  simp only [hl', ctx, Fin.getElem_fin]
  simp [hx, hr, hi, State.remark]

end State

/-- Settles O36. -/
theorem engineWaitExpires : Obligations.EngineWaitExpires := by
  intro st w x r l s hruns hqueue hlimit hline
  have hdue : s.engineWaitDue st = true := by simp [State.engineWaitDue, State.engineWaitOf, hqueue, hlimit]
  have hexpiry : s.engineWaitExpiry st = ((s.waitExpired st).unmeasured st w.group).endExtended st := by
    unfold State.engineWaitExpiry
    rw [State.engineWaitOf, hqueue]
    rfl
  have hstep : ((s.waitExpired st).ctx st).step = some x := hruns.step
  have hrecord : ((s.waitExpired st).ctx st).record = some r := hruns.record
  have hline' : (s.waitExpired st).line st w.group = some l := hline
  obtain ⟨hends, hmarked⟩ := State.unmeasured_endsWait (s.waitExpired st) st w.group l x r hline' hstep hrecord
  obtain ⟨-, hqueue', -⟩ := State.unmeasured_noise (s.waitExpired st) st w.group
  have hquiet : s.Quiet ((s.waitExpired st).unmeasured st w.group) st :=
    (s.waitExpired_quiet st).trans (State.unmeasured_quiet _ st w.group)
  have hcounted : ((s.waitExpired st).unmeasured st w.group).counters.live.stations[st] = { s.counters.live.stations[st] with
      engineWaitsExpired := min (s.counters.live.stations[st].engineWaitsExpired + 1) 65535 } := by
    simp [State.waitExpired, State.dropWait, satAdd]
  have hlink : ((s.waitExpired st).unmeasured st w.group).link = s.link := by simp [State.waitExpired, State.dropWait]
  rw [exec_engineWaitExpiry]
  refine ⟨fun hphase => ?_, fun since spec hphase hnext => ?_⟩
  · have hself := State.endExtended_eq_self hmarked hphase
    rw [State.eventWhen_sameLink hdue (by rw [hexpiry, hself, hlink]), hexpiry, hself]
    refine ⟨_, rfl, ⟨hqueue', hcounted, hends⟩, hmarked, State.unmeasured_record hline' hstep hrecord, ?_, hquiet.test,
      hquiet.othersKept, hlink⟩
    exact hquiet.state.trans hruns.running
  · have hstep' := State.endExtended_eq hmarked hphase
    have hnext' : ((s.waitExpired st).unmeasured st w.group).nextIs st x.index spec := by
      unfold State.nextIs at *
      rwa [State.recipe_of_test (s := s) hquiet.test]
    rw [State.eventWhen_sameLink hdue (by rw [hexpiry, hstep', State.endStep_link _ hmarked hnext', hlink]), hexpiry, hstep']
    refine ⟨_, rfl, ?_, fun hplain => ?_⟩
    · refine (State.endStep_stepsOn _ st .done _ spec (hquiet.state.trans hruns.running) hmarked hnext').after hquiet ?_
      simp [State.stepEntries, State.waitExpired, State.dropWait]
    · have hsame := State.endStep_sameTest .done hmarked hnext' hplain
      exact ⟨(congrArg Noise.queue hsame.noise).trans hqueue', by rw [hsame.counters]; exact hcounted, hends.sameTest hsame⟩

end Sys2Proof.Machine
end

section
/-! PROOFS. Grants: ENGINE_GRANT (R100), a deferred claim (R101), SUPPLY_GRANT (R128). -/

namespace Sys2Proof.Machine

open Sys2Proof

set_option Elab.async false

namespace State

variable {s t u : State} {st : Station} {x : StepCtx} {r : Record} {g : Nat} {l : GroupLine}

/-- An event that gives no notice is its effect. -/
theorem event_sameLink {f : State → State} (hlink : (f s).link = s.link) : event f s = .next (f s) := by
  rw [event, afterNotices, if_neg (by rw [hlink]; exact lt_irrefl _)]

/-- A FREE engine is granted to the head of the wait queue (R100). -/
theorem passEngine_eq {e : EngineId} {w : EngineWait} {rest : List EngineWait} (hfree : (s.engine e).state = .free)
    (hqueue : s.noise.queue = w :: rest) :
    s.passEngine e = ({ s with noise := { s.noise with queue := rest } } : State).grantEngine e w.station w.group := by
  unfold passEngine
  rw [hfree, hqueue]

/-! ### Deferred claims (R101) -/

/-- The claim that a deferred claim makes. -/
def claimed (s : State) (st : Station) (g : Nat) : State := (s.setDeferred st none).claimEngine st g

theorem deferredClaim_eq (hdeferred : s.noise.deferred[st] = some g) :
    s.deferredClaim st = if !(s.ctx st).step.any StepCtx.unmeasured ∧ ((s.claimed st g).ctx st).step.any StepCtx.unmeasured
      then (s.claimed st g).endExtended st else s.claimed st g := by
  unfold deferredClaim
  rw [hdeferred]
  rfl

/-- A claim that leaves the stations' contexts ends no step. -/
theorem deferredClaim_claimed (hdeferred : s.noise.deferred[st] = some g) (hseq : (s.claimed st g).seq = s.seq) :
    s.deferredClaim st = s.claimed st g := by
  rw [deferredClaim_eq hdeferred]
  refine if_neg ?_
  rw [ctx, ctx, hseq]
  cases s.seq[st].step.any StepCtx.unmeasured <;> simp

/-- What a claim does that finds an engine FREE (R99). -/
theorem claimed_grants {e : EngineId} (hheld : s.heldEngine st = none) (hline : s.line st g = some l)
    (hfree : (s.engine e).state = .free) (hfirst : e = .b → s.noise.engineA.state ≠ .free) :
    ((s.claimed st g).engine e).Granted st l.spec ∧ (∀ d, d ≠ e → (s.claimed st g).engine d = s.engine d)
      ∧ (s.claimed st g).noise.queue = s.noise.queue ∧ (s.claimed st g).noise.deferred[st] = none
      ∧ (s.claimed st g).line st g = some { l with engine := some e } ∧ (s.claimed st g).seq = s.seq := by
  have hfree' : ((s.setDeferred st none).engine e).state = .free := by rwa [setDeferred_engine]
  obtain ⟨hgranted, hothers, hqueue, hdeferred, hline', -⟩ :=
    grantEngine_grants (s.setDeferred st none) e st g l hline hheld
  rw [claimed, claimEngine_grants _ st g e hfree' hfirst]
  refine ⟨hgranted, fun d hd => (hothers d hd).trans (setDeferred_engine ..), hqueue.trans (by simp), ?_, hline', by simp⟩
  rw [hdeferred]
  simp

/-- The time of a deferred claim has come (R101). -/
theorem deferredClaimDue_of (hrunning : s.stateOf st = .running) (hdeferred : s.noise.deferred[st] = some g)
    (hheld : s.heldEngine st = none) : s.deferredClaimDue st = true := by
  simp only [Fin.getElem_fin] at hdeferred
  simp [deferredClaimDue, hrunning, hdeferred, hheld]

/-- A deferred claim that leaves the stations' contexts. -/
theorem exec_deferredClaim_claimed (hrunning : s.stateOf st = .running) (hdeferred : s.noise.deferred[st] = some g)
    (hheld : s.heldEngine st = none) (hseq : (s.claimed st g).seq = s.seq) :
    exec (.deferredClaim st) s = .next (s.claimed st g) := by
  have hself := deferredClaim_claimed hdeferred hseq
  have hlink : (s.deferredClaim st).link = s.link := by
    rw [hself]
    simp [claimed]
  rw [exec_deferredClaim, eventWhen_sameLink (deferredClaimDue_of hrunning hdeferred hheld) hlink, hself]

/-- A deferred claim that finds an engine FREE. -/
theorem exec_deferredClaim_grants {e : EngineId} (hrunning : s.stateOf st = .running)
    (hdeferred : s.noise.deferred[st] = some g) (hheld : s.heldEngine st = none) (hline : s.line st g = some l)
    (hfree : (s.engine e).state = .free) (hfirst : e = .b → s.noise.engineA.state ≠ .free) :
    exec (.deferredClaim st) s = .next (s.claimed st g) := by
  obtain ⟨-, -, -, -, -, hseq⟩ := claimed_grants hheld hline hfree hfirst
  exact exec_deferredClaim_claimed hrunning hdeferred hheld hseq

/-- A deferred claim that finds neither an engine nor a wait: it is dropped and the expiry counted. -/
def claimExpired (s : State) (st : Station) : State :=
  (s.setDeferred st none).countStation st (fun c => { c with engineWaitsExpired := satAdd c.engineWaitsExpired 1 })

theorem claimExpired_quiet (s : State) (st : Station) : s.Quiet (s.claimExpired st) st :=
  ⟨rfl, rfl, rfl, rfl, rfl, rfl, rfl, rfl, rfl, rfl, fun _ _ => rfl, rfl, rfl, rfl, rfl, rfl, rfl, rfl⟩

/-- A claim with no engine FREE and a wait limit of 0 (R102): the expiry counted, the window unmeasured. -/
theorem claimed_expires (hbusy : ∀ e, (s.engine e).state ≠ .free) (hlimit : s.config.waitLimit = 0) :
    s.claimed st g = (s.claimExpired st).unmeasured st g := by
  rw [claimed, claimEngine_waits _ st g (fun e => by rw [setDeferred_engine]; exact hbusy e)]
  exact if_pos hlimit

end State

/-- ENGINE_GRANT with a FREE engine and a waiting station (R100). -/
theorem engineGrant_head : ∀ (e : EngineId) (w : EngineWait) (rest : List EngineWait) (l : GroupLine) (s : State),
    (s.engine e).state = .free → s.noise.queue = w :: rest → s.line w.station w.group = some l →
    s.heldEngine w.station = none → ∃ t, exec (.engineGrant e) s = .next t ∧ t.noise.queue = rest
      ∧ (t.engine e).Granted w.station l.spec
      ∧ (∀ d, d ≠ e → t.engine d = s.engine d) ∧ t.seq = s.seq ∧ t.link = s.link ∧ t.counters = s.counters := by
  intro e w rest l s hfree hqueue hline hheld
  obtain ⟨hgranted, hothers, hqueue', -⟩ :=
    State.grantEngine_grants ({ s with noise := { s.noise with queue := rest } } : State) e w.station w.group l hline hheld
  rw [← State.passEngine_eq hfree hqueue] at hgranted hothers hqueue'
  refine ⟨s.passEngine e, (exec_engineGrant s e).trans (State.event_sameLink (by simp)), hqueue', hgranted, fun d hd => ?_,
    by simp, by simp, by simp⟩
  rw [hothers d hd]
  cases d <;> rfl

/-- The head of the supply queue is granted when nobody holds the supply and it is healthy (R128). -/
theorem examineSupply_grants {s : State} {st : Station} {rest : List Station} (hqueue : s.leak.queue = st :: rest)
    (hgrant : s.leak.grant = none) (hlow : s.mon.supply.current.lowAlarm = false) (hlost : s.mon.supply.current.lost = false) :
    s.examineSupply = (({ s with leak := { s.leak with grant := some st, queue := rest } } : State).countGlobal
      (fun c => { c with supplyGrants := satAdd c.supplyGrants 1 })).enterPhase st .fill := by
  have hhealthy : s.supplyHealthy = true := by simp [State.supplyHealthy, hlow, hlost]
  unfold State.examineSupply
  rw [hqueue, hgrant, hhealthy]

/-- The examination changes nothing otherwise (R128). -/
theorem examineSupply_eq_self {s : State} (h : s.leak.queue = [] ∨ s.leak.grant ≠ none ∨ s.mon.supply.current.lowAlarm = true
    ∨ s.mon.supply.current.lost = true) : s.examineSupply = s := by
  unfold State.examineSupply
  split
  · rename_i hqueue hgrant hhealthy
    simp [State.supplyHealthy] at hhealthy
    simp [hqueue, hgrant, hhealthy] at h
  · rfl

/-- Settles O35. -/
theorem grantsGoToHeadOfQueue : Obligations.GrantsGoToHeadOfQueue := by
  refine ⟨fun e w rest l s hfree hqueue hline hheld => ?_, fun st g l s hrunning hdeferred hheld hline =>
    ⟨fun hfree => ?_, fun hbusy hfree => ?_, fun x r hstep hrecord hbusyA hbusyB hlimit => ?_, fun hbusyA hbusyB hlimit => ?_⟩,
    fun s => ⟨fun st rest hqueue hgrant hlow hlost => ?_, fun h => ?_⟩⟩
  · obtain ⟨t, ht, hqueue', hg, hothers⟩ := engineGrant_head e w rest l s hfree hqueue hline hheld
    exact ⟨t, ht, hqueue', hg.state, hg.holder, hg.group, hg.k, hg.bins, hg.accepted, hg.discarded, hothers⟩
  · obtain ⟨hg, hothers, hqueue, hdropped, -, hseq⟩ := State.claimed_grants (e := .a) hheld hline hfree nofun
    exact ⟨_, State.exec_deferredClaim_grants (e := .a) hrunning hdeferred hheld hline hfree nofun, hdropped, hg.state,
      hg.holder, hg.group, hothers .b nofun, hqueue, hseq⟩
  · obtain ⟨hg, hothers, hqueue, hdropped, hline', hseq⟩ := State.claimed_grants (e := .b) hheld hline hfree fun _ => hbusy
    exact ⟨_, State.exec_deferredClaim_grants (e := .b) hrunning hdeferred hheld hline hfree fun _ => hbusy, hdropped, hg,
      hothers .a nofun, hline', hqueue, hseq⟩
  · have hstep' : ((s.claimExpired st).ctx st).step = some x := hstep
    have hrecord' : ((s.claimExpired st).ctx st).record = some r := hrecord
    have hline' : (s.claimExpired st).line st g = some l := hline
    obtain ⟨hends, hmarked⟩ := State.unmeasured_endsWait (s.claimExpired st) st g l x r hline' hstep' hrecord'
    obtain ⟨-, hqueue, hdropped⟩ := State.unmeasured_noise (s.claimExpired st) st g
    have hclaimed := State.claimed_expires (st := st) (g := g) (fun e => by cases e; exacts [hbusyA, hbusyB]) hlimit
    have hquiet : s.Quiet (s.claimed st g) st := by
      rw [hclaimed]
      exact (s.claimExpired_quiet st).trans (State.unmeasured_quiet _ st g)
    rw [← hclaimed] at hends hmarked hqueue hdropped
    have hcounted : (s.claimed st g).counters.live.stations[st].engineWaitsExpired =
        min (s.counters.live.stations[st].engineWaitsExpired + 1) 65535 := by
      rw [hclaimed]
      simp [State.claimExpired, satAdd]
    have hdropped' : (s.claimed st g).noise.deferred[st] = none := by
      rw [hdropped]
      simp [State.claimExpired]
    have hlink : (s.claimed st g).link = s.link := by simp [State.claimed]
    have hdue := State.deferredClaimDue_of hrunning hdeferred hheld
    rw [exec_deferredClaim]
    refine ⟨fun hphase => ?_, fun since spec hphase hmeasured hnext => ?_⟩
    · have hself : s.deferredClaim st = s.claimed st g := by
        rw [State.deferredClaim_eq hdeferred, State.endExtended_eq_self hmarked hphase, ite_self]
      refine ⟨_, State.eventWhen_sameLink hdue (by rw [hself, hlink]), ?_⟩
      rw [hself]
      exact ⟨⟨hdropped', hqueue, hcounted, hends⟩, hmarked, hquiet.state.trans hrunning, hquiet.othersKept, hlink⟩
    · have hnext' : (s.claimed st g).nextIs st x.index spec := by
        unfold State.nextIs at *
        rwa [State.recipe_of_test (s := s) hquiet.test]
      have hself : s.deferredClaim st = (s.claimed st g).endStep st .done := by
        rw [State.deferredClaim_eq hdeferred, State.endExtended_eq hmarked hphase]
        rw [hstep, hmarked]
        exact if_pos ⟨by simp [hmeasured], rfl⟩
      refine ⟨_, State.eventWhen_sameLink hdue (by rw [hself, State.endStep_link _ hmarked hnext', hlink]), ?_⟩
      rw [hself]
      refine ⟨?_, fun hplain => ?_⟩
      · refine (State.endStep_stepsOn _ st .done _ spec (hquiet.state.trans hrunning) hmarked hnext').after hquiet ?_
        simp [State.stepEntries, State.claimed]
      · have hsame := State.endStep_sameTest .done hmarked hnext' hplain
        exact ⟨by rw [hsame.noise]; exact hdropped', (congrArg Noise.queue hsame.noise).trans hqueue,
          by rw [hsame.counters]; exact hcounted, hends.sameTest hsame⟩
  · have hclaimed : s.claimed st g = { s with noise := { s.noise with
        deferred := s.noise.deferred.upd st (fun _ => none)
        queue := s.noise.queue ++ [⟨st, g, s.now, s.config.waitLimit⟩] } } := by
      rw [State.claimed, State.claimEngine_waits _ st g fun e => by cases e; exacts [hbusyA, hbusyB]]
      exact if_neg hlimit
    rw [State.exec_deferredClaim_claimed hrunning hdeferred hheld (by rw [hclaimed]), hclaimed]
  · have hgrants := examineSupply_grants hqueue hgrant hlow hlost
    refine ⟨s.examineSupply, (exec_supplyGrant s).trans (State.event_sameLink (by simp)), ?_⟩
    rw [hgrants]
    refine ⟨rfl, rfl, ?_, fun j hj => ?_, rfl, rfl, rfl, rfl, rfl⟩
    · simp [State.enterPhase, State.circuit, LeakCircuit.enter, LeakPhase.fillOpen, LeakPhase.ventOpen, State.now]
    · simp [State.enterPhase, State.circuit, Ne.symm hj]
  · have hself := examineSupply_eq_self h
    rw [exec_supplyGrant, State.event_sameLink (by simp), hself]

end Sys2Proof.Machine
end

section
/-! PROOFS. The end of a window at its duration (R103, R109 to R111). -/

namespace Sys2Proof.Machine

open Sys2Proof

set_option Elab.async false

namespace State

variable {s t u : State} {st : Station} {x : StepCtx} {r : Record} {g i : Nat} {l : GroupLine} {e : EngineId}

/-! ### Engines given up (R97, R100) -/

/-- A station that holds neither engine. -/
theorem heldEngine_eq_none (h : ∀ e, (s.engine e).holder ≠ some st) : s.heldEngine st = none := by
  unfold heldEngine
  exact (if_neg (h .a)).trans (if_neg (h .b))

/-- An engine given up is FREE or passes to the head of the queue (R100). -/
theorem freeEngine_passes (s : State) (e : EngineId) : s.PassesEngine (s.freeEngine e) e := by
  have h := passEngine_passes (s.modEngine e Engine.release) e (by simp [Engine.release]) (by simp [Engine.release])
  refine ⟨fun hqueue => h.free (by simpa using hqueue), fun w rest k hqueue hline hheld => ?_⟩
  refine h.head w rest k (by simpa using hqueue) ((line_modEngine ..).trans hline) (heldEngine_eq_none fun d => ?_)
  rw [engine_modEngine]
  split
  · exact nofun
  · exact holder_ne_of_heldEngine_eq_none hheld d

/-- What an engine given up leaves to a station that does not wait (R100). -/
theorem freeEngine_other (hqueue : ∀ w ∈ s.noise.queue, w.station ≠ st) (e : EngineId) :
    (s.freeEngine e).noise.groups[st.val] = s.noise.groups[st.val]
      ∧ ∀ d, d ≠ e → (s.freeEngine e).engine d = s.engine d := by
  obtain ⟨-, -, hgroups, hothers, -⟩ := passEngine_other (s.modEngine e Engine.release) e st (by simpa using hqueue)
  exact ⟨hgroups.trans (by simp), fun d hd => (hothers d hd).trans (by rw [engine_modEngine, if_neg hd])⟩

/-! ### The end of a window in which an engine accumulates (R109, R110) -/

section

variable (hwaits : s.waiting st = false) (hline : s.line st g = some l) (hopen : l.status = .opened)
  (hengine : l.engine = some e) (hacc : (s.engine e).state = .accumulating)

include hwaits hline hopen hengine hacc

/-- Before the group's last window the engine parks (R109). -/
theorem windowEnd_parks (hi : i ≠ l.windows.last) :
    s.windowEnd st g i = s.modEngine e (fun x => { x with state := .parked, revOpen := false }) := by
  unfold windowEnd
  simp [hwaits, hline, hengine, hopen, hacc, hi]

/-- At the group's last window, with 16 or more accepted revolutions, the engine computes (R110). -/
theorem windowEnd_computes (hi : i = l.windows.last) (haccepted : 16 ≤ (s.engine e).accepted) :
    s.windowEnd st g i = (s.modEngine e (fun x => { x with state := .computing s.now, revOpen := false })).modGroups st
      (modLine g (fun l => l.close .incomplete (some .short) (some e) false)) := by
  unfold windowEnd
  simp [hwaits, hline, hengine, hopen, hacc, hi, haccepted]

/-- At the group's last window, with fewer, the result is entered at once and the engine passes on (R110). -/
theorem windowEnd_short (hi : i = l.windows.last) (haccepted : (s.engine e).accepted < 16) :
    s.windowEnd st g i = ((s.modGroups st (modLine g (fun l => l.close .incomplete (some .short) none false))).enterGroup st
      ⟨g, .incomplete, some .short, (s.engine e).accepted, (s.engine e).discarded, none⟩).freeEngine e := by
  unfold windowEnd
  simp [hwaits, hline, hengine, hopen, hacc, hi, Nat.not_le.mpr haccepted]

end

/-- The line of a group closed and entered at once (R98, R118). -/
theorem line_closed_entered (hline : s.line st g = some l) (o : GroupOutcome) (c : Option GroupCause) (res : GroupResult)
    (hgroup : res.group = g) :
    ((s.modGroups st (modLine g (fun l => l.close o c none false))).enterGroup st res).line st g
      = some { l with status := .closed, outcome := some o, cause := c, engine := none, entered := true } := by
  subst hgroup
  rw [enterGroup_line, line_modGroups s st res.group (fun l => l.close o c none false) (fun _ => rfl), hline]
  rfl

/-- The results in the record after a group is closed and entered at once (R118). -/
theorem groups_closed_entered (hr : (s.ctx st).record = some r) (f : List GroupLine → List GroupLine) (res : GroupResult) :
    (((s.modGroups st f).enterGroup st res).ctx st).record = some { r with groups := r.groups ++ [res] } := by
  simp only [ctx, Fin.getElem_fin] at hr
  simp [enterGroup, addGroupResult, hr]

end State

/-- Settles O37. -/
theorem windowEndParksOrCloses : Obligations.WindowEndParksOrCloses := by
  intro st x r spec duration g ext l s hruns hnext hspec hphase helapsed hline hopen
  have hexpiry : s.dwellExpiry st = (s.windowEnd st g x.index).endStep st .done :=
    hruns.dwellExpiry_eq hspec fun _ _ h => absurd h nofun
  obtain ⟨hon, hlink⟩ := hruns.windowEnd_stepsOn hnext g
  rw [hspec] at hon
  obtain ⟨y, hy, hindex, -⟩ := hruns.windowEnd g x.index
  have hnext' : (s.windowEnd st g x.index).nextIs st y.index spec := by
    unfold State.nextIs at *
    rwa [State.recipe_of_test (s := s) (by simp), hindex]
  refine ⟨_, (exec_dwellDurationExpiry s st).trans (State.eventWhen_sameLink
    (dwellExpiryDue_of_elapsed hruns hspec hphase helapsed) (by rw [hexpiry, hlink])), ?_⟩
  rw [hexpiry]
  refine ⟨hon, fun hplain => ⟨fun e hwaits hengine hacc => ?_, fun hwaits => ?_⟩, ?_⟩
  · have hsame := State.endStep_sameTest .done hy hnext' hplain
    have hengines := fun d => State.engine_congr hsame.noise d
    have hlines := State.line_congr (s := s.windowEnd st g x.index) st g (by rw [hsame.noise])
    have hunqueued := (State.not_waiting hwaits).1
    have hrecord := hruns.record
    simp only [State.ctx, Fin.getElem_fin] at hrecord
    refine ⟨fun d hd => (hengines d).trans ?_, fun hi => ?_, fun hi haccepted => ?_, fun hi haccepted => ?_⟩
    · by_cases hi : x.index = l.windows.last
      · by_cases haccepted : 16 ≤ (s.engine e).accepted
        · rw [State.windowEnd_computes hwaits hline hopen hengine hacc hi haccepted, State.modGroups_engine,
            State.engine_modEngine, if_neg hd]
        · rw [State.windowEnd_short hwaits hline hopen hengine hacc hi (by omega),
            (State.freeEngine_other (st := st) (by simpa [State.enterGroup] using hunqueued) e).2 d hd]
          cases d <;> rfl
      · rw [State.windowEnd_parks hwaits hline hopen hengine hacc hi, State.engine_modEngine, if_neg hd]
    · have hends := State.windowEnd_parks hwaits hline hopen hengine hacc hi
      refine ⟨(hengines e).trans (by rw [hends, State.engine_modEngine, if_pos rfl]), ?_, ?_, hsame.groups.trans ?_⟩
      · rw [hsame.noise, hends, State.modEngine_groups]
      · rw [hsame.noise, hends, State.modEngine_queue]
      · simp [hends, hrecord]
    · have hends := State.windowEnd_computes hwaits hline hopen hengine hacc hi haccepted
      refine ⟨(hengines e).trans (by rw [hends, State.modGroups_engine, State.engine_modEngine, if_pos rfl]), hlines.trans ?_,
        ?_, hsame.groups.trans ?_⟩
      · rw [hends, State.line_modGroups _ st g (fun l => l.close .incomplete (some .short) (some e) false) (fun _ => rfl),
          State.line_modEngine, hline]
        rfl
      · rw [hsame.noise, hends]
        simp
      · simp [hends, hrecord]
    · have hends := State.windowEnd_short hwaits hline hopen hengine hacc hi haccepted
      have hpasses := State.freeEngine_passes ((s.modGroups st (modLine g (fun l =>
        l.close .incomplete (some .short) none false))).enterGroup st
          ⟨g, .incomplete, some .short, (s.engine e).accepted, (s.engine e).discarded, none⟩) e
      rw [← hends] at hpasses
      have hqueue : ((s.modGroups st (modLine g (fun l => l.close .incomplete (some .short) none false))).enterGroup st
          ⟨g, .incomplete, some .short, (s.engine e).accepted, (s.engine e).discarded, none⟩).noise.queue = s.noise.queue := rfl
      refine ⟨hsame.groups.trans ?_, hlines.trans ?_, fun hempty => ?_, fun w rest k hhead hwline hheld => ?_⟩
      · rw [hends]
        have := State.groups_closed_entered hruns.record (modLine g (fun l => l.close .incomplete (some .short) none false))
          ⟨g, .incomplete, some .short, (s.engine e).accepted, (s.engine e).discarded, none⟩
        simp only [State.ctx, Fin.getElem_fin, State.freeEngine_seq] at this ⊢
        rw [this]
        rfl
      · rw [hends, ← State.line_closed_entered hline .incomplete (some .short)
          ⟨g, .incomplete, some .short, (s.engine e).accepted, (s.engine e).discarded, none⟩ rfl]
        exact State.line_congr st g (State.freeEngine_other (by simpa [State.enterGroup] using hunqueued) e).1
      · obtain ⟨hfree, hnone, -⟩ := hpasses.free (hqueue.trans hempty)
        exact ⟨by rw [hengines]; exact hfree, by rw [hengines]; exact hnone⟩
      · have hother : w.station ≠ st := hunqueued w (hhead ▸ List.mem_cons_self)
        obtain ⟨hgranted, hrest⟩ := hpasses.head w rest k (hqueue.trans hhead)
          ((State.line_congr w.station w.group (by simp [State.enterGroup, Ne.symm hother])).trans hwline) hheld
        refine ⟨(congrArg Noise.queue hsame.noise).trans hrest, ?_⟩
        rw [hengines]
        exact ⟨hgranted.state, hgranted.holder, hgranted.accepted, hgranted.discarded⟩
  · have hsame := State.endStep_sameTest .done hy hnext' hplain
    have hends : s.windowEnd st g x.index = (s.dropWait st).unmeasured st g := if_pos hwaits
    obtain ⟨hwait, -⟩ := State.unmeasured_endsWait (s.dropWait st) st g l x r hline hruns.step hruns.record
    obtain ⟨-, hqueue, hdropped⟩ := State.unmeasured_noise (s.dropWait st) st g
    rw [← hends] at hwait hqueue hdropped
    have hwait' := hwait.sameTest hsame
    exact ⟨(congrArg Noise.queue hsame.noise).trans hqueue, by rw [hsame.noise, hdropped]; simp [State.dropWait],
      hwait'.remark, hwait'.goesOn, hwait'.closes⟩
  · intro e d b k hwindow hwaits hengine hacc hi
    subst hwindow
    have hends := State.windowEnd_parks hwaits hline hopen hengine hacc hi
    obtain ⟨rv, hrv, hgroups⟩ : ∃ rv, ((s.windowEnd st g x.index).ctx st).record = some rv ∧ rv.groups = r.groups :=
      ⟨r, by rw [hends]; simpa using hruns.record, rfl⟩
    have hstarts := (State.endStep_beginsStep _ st .done y _ rv hy hrv hnext').window d g b k l rfl
      (by rw [hends, State.line_modEngine, hline])
    have hclosed : l.status ≠ .closed := by rw [hopen]; exact nofun
    have hparked : (s.windowEnd st g x.index).engine e = { s.engine e with state := .parked, revOpen := false } := by
      rw [hends, State.engine_modEngine, if_pos rfl]
    obtain ⟨hresumed, -, hqueue, -⟩ := hstarts.resumes e hclosed hengine (by rw [hparked])
    obtain ⟨-, hkept, -⟩ := hstarts.kept (.inr (.inr (.inr (.inl ⟨e, hengine, .inl (by rw [hparked])⟩))))
    rw [hparked] at hresumed
    exact ⟨hresumed, hqueue.trans (by rw [hends, State.modEngine_queue]), hkept.trans (congrArg some hgroups)⟩

end Sys2Proof.Machine
end

section
/-! PROOFS. The exit from RUNNING (R10, R54, R119, R141): what it leaves in the record and of the engine. -/

namespace Sys2Proof.Machine

open Sys2Proof

set_option Elab.async false

/-- A remark depends on the remarks alone. -/
theorem Record.addRemark_remarks (r : Record) (m : Remark) (steps : List StepEntry) :
    ({ r with steps := steps }.addRemark m).remarks = (r.addRemark m).remarks := by
  unfold Record.addRemark; (repeat' split) <;> rfl

/-! ### Groups in the order of their first windows (R119) -/

namespace State

theorem insertLine_perm (l : GroupLine) (ls : List GroupLine) : (insertLine l ls).Perm (l :: ls) := by
  induction ls with
  | nil => exact .refl _
  | cons m rest ih =>
    rw [insertLine]
    split
    · exact .refl _
    · exact (ih.cons m).trans (.swap ..)

theorem insertLine_sorted {l : GroupLine} {ls : List GroupLine}
    (h : ls.Pairwise (fun a b => a.windows.first ≤ b.windows.first)) :
    (insertLine l ls).Pairwise (fun a b => a.windows.first ≤ b.windows.first) := by
  induction ls with
  | nil => exact List.pairwise_singleton ..
  | cons m rest ih =>
    obtain ⟨hm, hrest⟩ := List.pairwise_cons.mp h
    rw [insertLine]
    split
    · rename_i hle
      refine List.pairwise_cons.mpr ⟨fun a ha => ?_, h⟩
      rcases List.mem_cons.mp ha with rfl | ha
      · exact hle
      · exact hle.trans (hm a ha)
    · rename_i hlt
      refine List.pairwise_cons.mpr ⟨fun a ha => ?_, ih hrest⟩
      rcases List.mem_cons.mp ((insertLine_perm l rest).mem_iff.mp ha) with rfl | ha
      · omega
      · exact hm a ha

/-- A group table sorted by first window holds the same lines, in that order (R119). -/
theorem byFirstWindow_spec (ls : List GroupLine) : (byFirstWindow ls).Perm ls
    ∧ (byFirstWindow ls).Pairwise (fun a b => a.windows.first ≤ b.windows.first) := by
  induction ls with
  | nil => exact ⟨.refl _, .nil⟩
  | cons l rest ih => exact ⟨(insertLine_perm l _).trans (ih.1.cons l), insertLine_sorted ih.2⟩

variable {s t u : State} {st : Station} {x : StepCtx} {r : Record} {e : EngineId}

/-- The result a line is settled with is the one of R119. -/
theorem settlement_eq_exitResult (s : State) (l : GroupLine) : s.settlement l = s.exitResult l := by
  unfold settlement exitResult lineCounts
  cases l.status <;> cases l.engine <;> rfl

/-- The results of R119 depend on the engines alone. -/
theorem exitResult_congr (h : ∀ e, t.engine e = s.engine e) (l : GroupLine) : t.exitResult l = s.exitResult l := by
  unfold exitResult
  cases l.engine with
  | none => rfl
  | some e => simp only [h]

/-- The record after the exit from RUNNING has settled the station's wait and groups (R119). -/
def settledRecord (s : State) (st : Station) (r : Record) : Record :=
  { (if s.waiting st then r.addRemark .engineWait else r) with
    groups := r.groups ++ (byFirstWindow s.noise.groups[st]).filterMap s.exitResult }

theorem settledRecord_remarks (s : State) (st : Station) (r : Record) (steps : List StepEntry) :
    (s.settledRecord st { r with steps := steps }).remarks = (if s.waiting st then r.addRemark .engineWait else r).remarks := by
  unfold settledRecord
  split
  · exact Record.addRemark_remarks ..
  · rfl

theorem settledRecord_leaks (s : State) (st : Station) (r : Record) : (s.settledRecord st r).leaks = r.leaks := by
  unfold settledRecord
  split
  · exact Record.addRemark_leaks ..
  · rfl

theorem settledRecord_steps (s : State) (st : Station) (r : Record) : (s.settledRecord st r).steps = r.steps := by
  unfold settledRecord
  split
  · exact Record.addRemark_steps ..
  · rfl

/-- The state in which the groups are settled: a wait has ended with its remark (R119). -/
def waitEnded (s : State) (st : Station) : State :=
  if s.waiting st then (s.dropWait st).remark st .engineWait else s

theorem waitEnded_noise (s : State) (st : Station) :
    (∀ e, (s.waitEnded st).engine e = s.engine e) ∧ (s.waitEnded st).noise.groups = s.noise.groups
      ∧ (s.waitEnded st).noise.queue = s.noise.queue.filter (fun w => w.station != st)
      ∧ (s.waitEnded st).heldEngine st = s.heldEngine st := by
  unfold waitEnded
  split
  · exact ⟨fun e => by cases e <;> rfl, rfl, rfl, rfl⟩
  · rename_i hwaits
    refine ⟨fun _ => rfl, rfl, (List.filter_eq_self.mpr fun w hw => ?_).symm, rfl⟩
    simpa using (not_waiting (by simpa using hwaits)).1 w hw

/-- The exit from RUNNING, in its parts (R119). -/
theorem noiseExit_eq (s : State) (st : Station) : s.noiseExit st = (match s.heldEngine st with
    | none => (s.waitEnded st).settleGroups st
    | some e => if (s.engine e).isComputing
      then ((s.waitEnded st).settleGroups st).modEngine e (fun x => { x with abandoned := true })
      else ((s.waitEnded st).settleGroups st).freeEngine e) := by
  obtain ⟨hengines, -, -, hheld⟩ := waitEnded_noise s st
  have hcomputing : ∀ e, (((s.waitEnded st).settleGroups st).engine e).isComputing = (s.engine e).isComputing := fun e => by
    rw [settleGroups_engine, hengines]
  simp only [← hheld, ← hcomputing] <;> rfl

/-- The exit from RUNNING enters the station's groups (R119). -/
theorem noiseExit_record (hr : (s.ctx st).record = some r) :
    ((s.noiseExit st).ctx st).record = some (s.settledRecord st r) := by
  obtain ⟨hengines, hgroups, -, -⟩ := waitEnded_noise s st
  have hwait : ((s.waitEnded st).ctx st).record = some (if s.waiting st then r.addRemark .engineWait else r) := by
    simp only [ctx, Fin.getElem_fin] at hr
    unfold waitEnded
    split <;> simp [State.remark, dropWait, hr]
  have hsettled : (((s.waitEnded st).settleGroups st).ctx st).record = some (s.settledRecord st r) := by
    have hresults : (s.waitEnded st).settlement = s.exitResult :=
      funext fun l => (settlement_eq_exitResult _ l).trans (exitResult_congr hengines l)
    unfold settleGroups settledRecord
    simp only [hgroups, hresults]
    simp only [ctx, Fin.getElem_fin] at hwait
    simp only [modGroups_seq, modRecord_seq, ctx, Fin.getElem_fin]
    simp [hwait]
    split <;> simp
  have hseq : (s.noiseExit st).seq = ((s.waitEnded st).settleGroups st).seq := by
    rw [noiseExit_eq]
    split
    · rfl
    · split <;> simp
  rw [ctx, hseq]
  exact hsettled

/-- The exit from RUNNING closes the step in progress in the record (R54). -/
theorem closeStep_record (hx : (s.ctx st).step = some x) (hr : (s.ctx st).record = some r) :
    ((s.closeStep st).ctx st).record = some { r with steps := r.steps ++ [s.exitEntry st x] } := by
  simp only [ctx, Fin.getElem_fin] at hr
  unfold closeStep
  rw [hx]
  simp [addStepEntry, hr, exitEntry]

/-- The exit from RUNNING closes the leak step in the record (R141). -/
theorem leakExit_record (hr : (s.ctx st).record = some r) :
    ((s.leakExit st).ctx st).record = some { r with leaks := r.leaks ++ (s.circuit st).phase.exitResult } := by
  have hdecided : (s.decideLeak st (LeakResult.stopped .notCompleted)).seq[st.val].record
      = some { r with leaks := r.leaks ++ [LeakResult.stopped .notCompleted] } := by
    simp only [ctx, Fin.getElem_fin] at hr
    simp [decideLeak, addLeakResult, LeakResult.stopped, hr]
  unfold leakExit
  cases hphase : (s.circuit st).phase with
  | none => simpa [LeakPhase.exitResult] using hr
  | vent => simpa [LeakPhase.exitResult] using hr
  | _ => simpa [LeakPhase.exitResult, LeakResult.stopped] using hdecided

/-- The engine after the exit from RUNNING (R119): one that computes goes on, its result to be discarded; any other is given
up. -/
theorem noiseExit_engine (hheld : s.heldEngine st = some e) :
    ((s.engine e).isComputing = true → (s.noiseExit st).engine e = { s.engine e with abandoned := true })
      ∧ ((s.engine e).isComputing = false →
        s.noiseExit st = ((s.waitEnded st).settleGroups st).freeEngine e) := by
  obtain ⟨hengines, -, -, -⟩ := waitEnded_noise s st
  have hexit := noiseExit_eq s st
  simp only [hheld] at hexit
  refine ⟨fun h => ?_, fun h => ?_⟩
  · rw [hexit, if_pos h, engine_modEngine, if_pos rfl, settleGroups_engine, hengines]
  · exact hexit.trans (if_neg (by simp [h]))

/-- What the entry to STOPPING leaves in the record, whether or not a step is in progress. -/
theorem enterStopping_record {k : Record} (hk : ((s.leaveRunning st).ctx st).record = some k) (cause : Option AbortCause)
    (drop : Bool) : ((s.enterStopping st cause drop).ctx st).record
      = some { k with leaks := k.leaks ++ (s.circuit st).phase.exitResult, cause := cause } := by
  have hphase : (s.leaveRunning st).circuit st = s.circuit st := by simp [circuit]
  have hleak := leakExit_record hk
  rw [hphase] at hleak
  simp only [ctx, Fin.getElem_fin] at hleak
  unfold enterStopping
  dsimp only
  (repeat' split) <;> simp [hleak]

/-- The exit from RUNNING with a step in progress (R54, R119). -/
theorem leaveRunning_record (hx : (s.ctx st).step = some x) (hr : (s.ctx st).record = some r) :
    ((s.leaveRunning st).ctx st).record
      = some (s.settledRecord st { r with steps := r.steps ++ [s.exitEntry st x] }) := by
  have hnoise := s.closeStep_noise st
  have h := noiseExit_record (closeStep_record hx hr)
  have hsame : (s.closeStep st).settledRecord st { r with steps := r.steps ++ [s.exitEntry st x] }
      = s.settledRecord st { r with steps := r.steps ++ [s.exitEntry st x] } := by
    have hresult : (s.closeStep st).exitResult = s.exitResult := funext fun l => exitResult_congr (engine_congr hnoise) l
    unfold settledRecord waiting waitsForEngine
    rw [hnoise, hresult]
  rw [hsame] at h
  exact h

/-- The engine after the entry to STOPPING (R119). -/
theorem enterStopping_engine (cause : Option AbortCause) (drop : Bool) (hheld : s.heldEngine st = some e) :
    ((s.engine e).isComputing = true → (s.enterStopping st cause drop).engine e = { s.engine e with abandoned := true })
      ∧ ((s.engine e).isComputing = false → s.noise.queue.filter (fun w => w.station != st) = [] →
        ((s.enterStopping st cause drop).engine e).state = .free ∧ ((s.enterStopping st cause drop).engine e).holder = none)
      ∧ (∀ w rest k, (s.engine e).isComputing = false → s.noise.queue.filter (fun w => w.station != st) = w :: rest →
        s.line w.station w.group = some k → s.heldEngine w.station = none →
        ((s.enterStopping st cause drop).engine e).Granted w.station k.spec
          ∧ (s.enterStopping st cause drop).noise.queue = rest) := by
  have hnoise := s.closeStep_noise st
  have hheld' : (s.closeStep st).heldEngine st = some e := by rw [heldEngine, hnoise]; exact hheld
  have hself := engine_congr hnoise e
  have hlater := fun d => engine_congr (enterStopping_noise s st cause drop) d
  obtain ⟨hcomputes, hgives⟩ := noiseExit_engine hheld'
  obtain ⟨hengines, hgroups, hqueue, -⟩ := waitEnded_noise (s.closeStep st) st
  rw [hself] at hcomputes hgives
  rw [hnoise] at hqueue
  have hpasses : (s.engine e).isComputing = false → (((s.closeStep st).waitEnded st).settleGroups st).PassesEngine
      (s.leaveRunning st) e := fun h => by
    rw [State.leaveRunning, hgives h]
    exact freeEngine_passes _ e
  refine ⟨fun h => (hlater e).trans (hcomputes h), fun h hempty => ?_, fun w rest k h hhead hline hnone => ?_⟩
  · obtain ⟨hfree, hholder, -⟩ := (hpasses h).free ((settleGroups_queue ..).trans (hqueue.trans hempty))
    rw [hlater]
    exact ⟨hfree, hholder⟩
  · have hother : w.station ≠ st := by
      have hmem : w ∈ s.noise.queue.filter (fun w => w.station != st) := hhead ▸ List.mem_cons_self
      simpa using (List.mem_filter.mp hmem).2
    have hline' : (((s.closeStep st).waitEnded st).settleGroups st).line w.station w.group = some k := by
      refine (line_congr w.station w.group ?_).trans hline
      simp [settleGroups, hgroups, Ne.symm hother]
    have hnone' : (((s.closeStep st).waitEnded st).settleGroups st).heldEngine w.station = none := by
      refine heldEngine_eq_none fun d => ?_
      rw [settleGroups_engine, hengines, engine_congr hnoise]
      exact holder_ne_of_heldEngine_eq_none hnone d
    obtain ⟨hgranted, hrest⟩ := (hpasses h).head w rest k ((settleGroups_queue ..).trans (hqueue.trans hhead)) hline' hnone'
    rw [hlater, enterStopping_noise]
    exact ⟨hgranted, hrest⟩

end State

/-- Settles O38. -/
theorem exitFromRunningSettlesTest : Obligations.ExitFromRunningSettlesTest := by
  intro tag st x r s hslot hruns
  have hserve : serveAbt (stationCode st) s.received
      = answer (s.received.enterStopping st (some .hostAbort) false) [StationState.stopping.code] := by
    rw [serveAbt, withStation_stationCode]
    have : s.received.stateOf st = .running := hruns.running
    simp only [this, (State.enterStopping_entersStopping s.received st (some .hostAbort) false).state]
  have hrecord := State.enterStopping_record (State.leaveRunning_record (s := s.received) hruns.step hruns.record)
    (some .hostAbort) false
  have hengine := fun e => State.enterStopping_engine (s := s.received) (st := st) (e := e) (some .hostAbort) false
  generalize s.received.enterStopping st (some .hostAbort) false = t at hserve hrecord hengine
  refine ⟨_, State.exec_served (c := .abt tag (stationCode st)) rfl hslot hserve, ?_, ?_, fun e hheld => ?_, ?_, ?_⟩
  · obtain ⟨hperm, hsorted⟩ := State.byFirstWindow_spec s.noise.groups[st]
    exact ⟨_, hperm, hsorted, congrArg (Option.map Record.groups) hrecord⟩
  · exact (congrArg (Option.map Record.remarks) hrecord).trans (congrArg some (State.settledRecord_remarks ..))
  · obtain ⟨hcomputes, hfree, hhead⟩ := hengine e hheld
    refine ⟨hcomputes, hfree, fun w rest k hnot hqueue hline hnone => ?_⟩
    obtain ⟨hgranted, hrest⟩ := hhead w rest k hnot hqueue hline hnone
    exact ⟨hgranted.state, hgranted.holder, hrest⟩
  · exact (congrArg (Option.map Record.leaks) hrecord).trans
      (congrArg (fun l => some (l ++ (s.circuit st).phase.exitResult)) (State.settledRecord_leaks ..))
  · exact (congrArg (Option.map Record.steps) hrecord).trans (congrArg some (State.settledRecord_steps ..))

end Sys2Proof.Machine
end

section
/-! PROOFS. A monitor sample up to its latches (R80, R81), and the sample that latches nothing and is read by the step in
progress (R57, R62, R65, R66). -/

namespace Sys2Proof.Machine

open Sys2Proof

set_option Elab.async false

/-- An invalid sample keeps the held value and counts, saturating (R80). -/
theorem QuantityMon.sample_none (m : QuantityMon) (t : Thresholds) (w : Bool) :
    (m.sample none t w).held = m.held ∧ (m.sample none t w).lastValid = false
      ∧ (m.sample none t w).invalid = min (m.invalid + 1) 65535
      ∧ (m.sample none t w).current.lost = decide (10 ≤ (m.sample none t w).invalid) := ⟨rfl, rfl, rfl, rfl⟩

theorem allStQuantities_idx (q : StQuantity) : allStQuantities[q.idx.val]? = some q := by cases q <;> rfl

/-- The places of the station quantities tell them apart. -/
theorem StQuantity.idx_inj {p q : StQuantity} (h : p.idx = q.idx) : p = q :=
  Option.some.inj ((allStQuantities_idx p).symm.trans (h ▸ allStQuantities_idx q))

namespace State

variable {s t u : State} {st : Station} {x : StepCtx} {r : Record} {y : SensorInput} {q : StQuantity}

/-! ### What the Monitor holds after a sample -/

/-- What a sample of SUPPLY leaves of it (R80). -/
def judgedSupply (s : State) (y : SensorInput) : QuantityMon :=
  s.mon.supply.sample (((s.gather y).sampleValue y).map Quantity.supply.clamp) s.mon.globals[Quantity.supply.idx] true

/-- A sample of a station quantity changes that quantity alone, and what is gathered (R80). -/
theorem takeSample_mon_station (hy : y.target = some (st, q)) :
    (s.takeSample y).mon = ((s.gathered y).modQuantity st q (fun _ => s.judgedQuantity y st q)).mon := by
  rw [takeSample_station s y st q hy, foldl_handOn_mon]

/-- A sample of SUPPLY and the notices of its latches (R80, R87). -/
def supplyLatched (s : State) (y : SensorInput) : State :=
  (newLatches true (s.judgedSupply y).current s.mon.supply.latched).foldl
    (fun u k => u.flagNotice none .supply (s.judgedSupply y).held k)
    { s with mon := { s.mon with supply := s.judgedSupply y } }

/-- A sample of SUPPLY: its latches give their notices, a fault that begins is handed on, the grant is examined (R90). -/
theorem takeSample_supply (s : State) (r : Reading) : s.takeSample (.supply r) =
    (if supplyFaultBegins s.mon.supply.current (s.judgedSupply (.supply r)).current then (s.supplyLatched (.supply r)).supplyFault
      else s.supplyLatched (.supply r)).examineSupply := rfl

/-- A sample of SUPPLY changes SUPPLY alone (R80). -/
theorem takeSample_mon_supply (hy : y.target = none) :
    (s.takeSample y).mon = { s.mon with supply := s.judgedSupply y } := by
  cases y with
  | supply r =>
    rw [takeSample_supply, examineSupply_mon]
    split <;> simp [supplyLatched, foldl_flagNotice_mon]
  | _ => exact absurd hy nofun

theorem takeSample_quantity (hy : y.target = some (st, q)) :
    (s.takeSample y).quantity st q = s.judgedQuantity y st q := by
  simp [quantity, takeSample_mon_station hy]

/-- A sample leaves every other station quantity as it was (R80). -/
theorem takeSample_quantity_other (hy : y.target = some (st, q)) {j : Station} {p : StQuantity} (h : (j, p) ≠ (st, q)) :
    (s.takeSample y).quantity j p = s.quantity j p := by
  simp only [quantity, takeSample_mon_station hy, modQuantity_mon, (gathered_mon s y).1, Fin.getElem_fin]
  by_cases hj : st = j
  · subst hj
    have hp : q.idx.val ≠ p.idx.val := fun e => h (by rw [StQuantity.idx_inj (Fin.ext e)])
    simp [hp]
  · simp [hj]

@[simp] theorem sample_mon (s : State) (y : SensorInput) : (s.sample y).mon = (s.takeSample y).mon := by
  unfold sample
  exact readSample_mon ..

/-- A tenth invalid sample in a row makes LOST hold, with the held value kept (R81). -/
theorem sampled_lost (hcount : (s.sampled y).invalid = 9) (hinvalid : (s.gather y).sampleValue y = none) :
    ((s.sample y).sampled y).invalid = 10 ∧ ((s.sample y).sampled y).current.lost = true
      ∧ ((s.sample y).sampled y).lastValid = false ∧ ((s.sample y).sampled y).held = (s.sampled y).held := by
  have hsampled : ∃ t w, (s.sample y).sampled y = (s.sampled y).sample none t w := by
    unfold sampled
    cases hy : y.target with
    | none =>
      refine ⟨s.mon.globals[Quantity.supply.idx], true, ?_⟩
      simp [takeSample_mon_supply hy, judgedSupply, hinvalid]
    | some p =>
      obtain ⟨st, q⟩ := p
      refine ⟨s.reference st q, s.watched st q, ?_⟩
      have := takeSample_quantity (s := s) hy
      simp only [quantity, sample_mon, judgedQuantity, hinvalid, Option.map_none] at this ⊢
      exact this
  obtain ⟨t, w, h⟩ := hsampled
  obtain ⟨hheld, hvalid, hcounts, hlost⟩ := (s.sampled y).sample_none t w
  rw [h, hlost, hcounts, hcount, hheld]
  exact ⟨rfl, rfl, hvalid, rfl⟩

/-! ### A sample that latches nothing -/

theorem takeSample_onlyMon (hy : y.target = some (st, q)) (hl : s.latchesNothing st q ((s.gather y).sampleValue y)) :
    s.OnlyMon (s.takeSample y) := by
  rw [takeSample_quiet s y st q hy hl]
  obtain ⟨h₁, h₂, h₃, h₄, h₅, h₆, h₇, h₈, h₉, h₁₀, h₁₁, h₁₂, h₁₃, h₁₄⟩ := gathered_onlyMon s y
  exact ⟨h₁, h₂, h₃, h₄, h₅, h₆, h₇, h₈, h₉, h₁₀, h₁₁, h₁₂, h₁₃, h₁₄⟩

theorem OnlyMon.ctx (h : s.OnlyMon u) (st : Station) : u.ctx st = s.ctx st := by unfold State.ctx; rw [h.seq]
theorem OnlyMon.stateOf (h : s.OnlyMon u) (st : Station) : u.stateOf st = s.stateOf st := by unfold State.stateOf; rw [h.seq]
theorem OnlyMon.recipe (h : s.OnlyMon u) (st : Station) : u.recipe st = s.recipe st := by unfold State.recipe; rw [h.ctx]
theorem OnlyMon.circuit (h : s.OnlyMon u) (st : Station) : u.circuit st = s.circuit st := by
  unfold State.circuit; rw [h.leak]
theorem OnlyMon.now (h : s.OnlyMon u) : u.now = s.now := by unfold State.now; rw [h.clock]
theorem OnlyMon.nextIs (h : s.OnlyMon u) {i : Nat} {spec : StepSpec} (hn : s.nextIs st i spec) : u.nextIs st i spec := by
  unfold State.nextIs at *; rwa [h.recipe]
theorem OnlyMon.runsStep (h : s.OnlyMon u) (hruns : s.RunsStep st x r) : u.RunsStep st x r :=
  ⟨(h.stateOf st).trans hruns.running, (congrArg StationCtx.step (h.ctx st)).trans hruns.step,
    (congrArg StationCtx.record (h.ctx st)).trans hruns.record⟩
theorem OnlyMon.stopOnFail (h : s.OnlyMon u) (st : Station) : u.stopOnFail st = s.stopOnFail st := by
  unfold State.stopOnFail; rw [h.recipe]

theorem Quiet.stopOnFail (h : s.Quiet t st) : t.stopOnFail st = s.stopOnFail st := by
  unfold State.stopOnFail; rw [recipe_of_test h.test]

/-- A sample of a RUNNING station that latches nothing is judged by the step in progress. -/
theorem sample_running (hy : y.target = some (st, q)) (hrunning : s.stateOf st = .running)
    (hmon : s.OnlyMon (s.takeSample y)) : s.sample y = (s.takeSample y).judgeStep st q := by
  unfold sample readSample
  rw [hy]
  simp only [hmon.stateOf, hrunning]

/-- A sample that gives no notice is its effect. -/
theorem exec_sample_sameLink (hlink : (s.sample y).link = s.link) : exec (.monitorSample y) s = .next (s.sample y) :=
  (exec_monitorSample s y).trans (event_sameLink hlink)

/-- A SPEED sample is read by the RAMP in progress (R57). -/
theorem RunsStep.judgeStep_ramp (h : s.RunsStep st x r) {target : Int} {rate torque tolerance inBand timeout : Nat}
    (hspec : x.spec = .ramp target rate torque tolerance inBand timeout) :
    s.judgeStep st .speed = s.rampSample st x target tolerance inBand := by
  unfold State.judgeStep
  simp only [h.step, hspec, if_true]

/-- A sample of its quantity is read by the GATE in progress (R62). -/
theorem RunsStep.judgeStep_gate (h : s.RunsStep st x r) {rel : GateRelation} {value : Int} {hold timeout : Nat}
    {action : OnTimeout} (hspec : x.spec = .gate q rel value hold timeout action) :
    s.judgeStep st q = s.gateSample st x q rel value hold := by
  unfold State.judgeStep
  simp only [h.step, hspec, if_true]

/-- A sample of its quantity is read by the CHECK in progress (R65). -/
theorem RunsStep.judgeStep_check (h : s.RunsStep st x r) {averaging : Nat} {mode : CheckMode} {reference : Int}
    {tolerance : Nat} (hspec : x.spec = .check q averaging mode reference tolerance) {sum : Int} {count : Nat}
    (hphase : x.phase = .averaging sum count) :
    s.judgeStep st q = s.checkSample st x q averaging mode reference tolerance sum count := by
  unfold State.judgeStep
  simp only [h.step, hspec, hphase, if_true]

/-- A sample is read by the LEAK step in progress (R67). -/
theorem RunsStep.judgeStep_leak (h : s.RunsStep st x r) (hspec : x.spec = .leak) (q : StQuantity) :
    s.judgeStep st q = s.leakSample st q := by
  unfold State.judgeStep
  simp only [h.step, hspec]

/-- A sample of another quantity is not read by the step in progress. -/
theorem RunsStep.judgeStep_unread (h : s.RunsStep st x r) {q : StQuantity} (hunread : match x.spec with
      | .ramp .. => q ≠ .speed
      | .dwell .. => True
      | .gate p .. | .check p .. => q ≠ p
      | .leak => match (s.circuit st).phase with
        | .none | .waitSupply | .fill | .vent => True
        | .standstillWait => q ≠ .speed
        | .settle => q ≠ .leakPress
        | .measure => q ≠ .leakPress ∧ q ≠ .airTemp) : s.judgeStep st q = s := by
  have hstep := h.step
  obtain ⟨i, spec, phase, start, unmeasured⟩ := x
  unfold State.judgeStep
  rw [hstep]
  cases spec with
  | ramp => exact if_neg hunread
  | dwell => rfl
  | gate => exact if_neg hunread
  | check => exact if_neg hunread
  | leak =>
    show s.leakSample st q = s
    unfold leakSample
    split <;> simp_all

/-- The result a CHECK appends is seen neither by the Noise Analyser nor in remarks and groups. -/
theorem BeginsStep.of_check {k : CheckResult} {index : Nat} {spec : StepSpec}
    (h : (s.addCheckResult st k).BeginsStep t st index spec { r with checks := r.checks ++ [k] }) :
    s.BeginsStep t st index spec r := by
  have hremark : ∀ m, ({ r with checks := r.checks ++ [k] }.addRemark m).remarks = (r.addRemark m).remarks := fun m => by
    unfold Record.addRemark
    (repeat' split) <;> rfl
  refine ⟨fun d g b k l hspec hl => ?_, h.plain⟩
  obtain ⟨hclosed, hresumes, hcomputes, hdefers, hclaims, hwaits, hkept, hothers⟩ := h.window d g b k l hspec hl
  refine ⟨hclosed, hresumes, hcomputes, hdefers, hclaims, fun h₁ h₂ h₃ h₄ => ?_, hkept, hothers⟩
  obtain ⟨hengine, hdeferred, hqueued, hexpired⟩ := hwaits h₁ h₂ h₃ h₄
  refine ⟨hengine, hdeferred, hqueued, fun hzero => ?_⟩
  obtain ⟨hqueue, hunmeasured, hcounted, hends⟩ := hexpired hzero
  exact ⟨hqueue, hunmeasured, hcounted, hends.remark.trans (congrArg some (hremark _)), hends.goesOn, hends.closes⟩

/-- A step that a sample ends lets the next begin (R52, R57, R62). -/
theorem RunsStep.endStep_done (h : s.RunsStep st x r) {spec : StepSpec} (hnext : s.nextIs st x.index spec) :
    s.StepsOn (s.endStep st .done) st ⟨x.index, x.spec.kind, .done, none⟩ spec
      ∧ s.BeginsStep (s.endStep st .done) st (x.index + 1) spec r ∧ (s.endStep st .done).link = s.link :=
  ⟨endStep_stepsOn s st .done x spec h.running h.step hnext, endStep_beginsStep s st .done x spec r h.step h.record hnext,
    endStep_link .done h.step hnext⟩

/-- A step's end leaves the results of checks (R53). -/
theorem endStep_record_checks (o : StepOutcome) (hx : (s.ctx st).step = some x) {spec : StepSpec}
    (hnext : s.nextIs st x.index spec) :
    ((s.endStep st o).ctx st).record.map Record.checks = (s.ctx st).record.map Record.checks := by
  have hnext' : (s.finishStep st o none).nextIs st x.index spec := by
    unfold nextIs at *
    rwa [recipe_of_test (s := s) (by simp)]
  rw [endStep_eq _ _ _ _ hx, nextStep_begins _ _ _ _ hnext', finishStep_eq _ _ _ _ _ hx]
  simp [Function.comp_def]

theorem RunsStep.addCheckResult (h : s.RunsStep st x r) (k : CheckResult) :
    (s.addCheckResult st k).RunsStep st x { r with checks := r.checks ++ [k] } := by
  refine ⟨(addCheckResult_quiet s st k).state.trans h.running, ?_, ?_⟩
  · simpa [State.ctx] using h.step
  · have := h.record
    simp only [State.ctx, Fin.getElem_fin] at this
    simp [State.addCheckResult, this]

/-- A CHECK that ends lets the next step begin, its result appended (R65). -/
theorem RunsStep.checked_endStep (h : s.RunsStep st x r) (k : CheckResult) {spec : StepSpec}
    (hnext : s.nextIs st x.index spec) :
    s.StepsOn ((s.addCheckResult st k).endStep st .done) st ⟨x.index, x.spec.kind, .done, none⟩ spec
      ∧ s.BeginsStep ((s.addCheckResult st k).endStep st .done) st (x.index + 1) spec r
      ∧ (((s.addCheckResult st k).endStep st .done).ctx st).record.map Record.checks = some (r.checks ++ [k])
      ∧ ((s.addCheckResult st k).endStep st .done).link = s.link := by
  have hadded := addCheckResult_quiet s st k
  have hnext' : (s.addCheckResult st k).nextIs st x.index spec := by
    unfold State.nextIs at *
    rwa [recipe_of_test (s := s) hadded.test]
  obtain ⟨hon, hbegins, hlink⟩ := (h.addCheckResult k).endStep_done hnext'
  refine ⟨hon.after hadded (by simp [stepEntries, Function.comp_def]), hbegins.of_check, ?_, hlink.trans (by simp)⟩
  rw [endStep_record_checks .done (h.addCheckResult k).step hnext', (h.addCheckResult k).record]
  rfl

/-- A CHECK whose failure stops the test, its result appended and its step DONE (R7, R66). -/
theorem RunsStep.checked_enterStopping (h : s.RunsStep st x r) (k : CheckResult) :
    let t := ((s.addCheckResult st k).finishStep st .done none).enterStopping st none false
    s.EntersStopping t st none false ∧ t.stepEntries st = some (r.steps ++ [⟨x.index, x.spec.kind, .done, none⟩])
      ∧ (t.ctx st).record.map Record.checks = some (r.checks ++ [k]) ∧ t.link = s.link := by
  refine ⟨?_, (enterStopping_record_steps (finishStep_step _ st _ _) none false).trans ?_,
    (enterStopping_record_checks _ st none false).trans ?_, (enterStopping_link _ st false).trans (by simp)⟩
  · exact (enterStopping_entersStopping _ st none false).after
      ((addCheckResult_quiet s st k).trans (finishStep_quiet _ st .done none)) (by simp)
      fun e he => .inl (by simpa [State.heldEngine] using he)
  · exact (h.addCheckResult k).finishStep_entries ..
  · rw [finishStep_eq _ _ _ _ _ (h.addCheckResult k).step]
    have := congrArg (Option.map Record.checks) (h.addCheckResult k).record
    simpa [Function.comp_def] using this

end State

/-- Settles O25. -/
theorem tenthInvalidSampleLoses : Obligations.TenthInvalidSampleLoses := by
  intro y s hcount hinvalid
  have hdue : s.quantityLostDue y = true := by simp [State.quantityLostDue, hcount, hinvalid]
  have hmon : (s.afterNotices (s.sample y)).sampled y = (s.sample y).sampled y := by
    unfold State.sampled State.quantity
    rw [State.afterNotices_mon]
  refine ⟨_, (exec_quantityLost s y).trans (eventWhen_taken _ _ s hdue), exec_monitorSample s y, ?_⟩
  rw [hmon]
  exact State.sampled_lost hcount hinvalid

/-- The gate condition (R62). -/
theorem gateMet_iff (m : QuantityMon) (rel : GateRelation) (value : Int) : gateMet m rel value = true ↔
    m.lastValid = true ∧ (match rel with | .atLeast => value ≤ m.held | .atMost => m.held ≤ value) := by
  cases rel <;> simp [gateMet]

/-- Settles O27. -/
theorem sampleMovesStep : Obligations.SampleMovesStep := by
  rintro st x r y q s _ hruns hy hl rfl
  have hmon := State.takeSample_onlyMon hy hl
  have hsample := State.sample_running hy hruns.running hmon
  have hruns' := hmon.runsStep hruns
  have hexec : ∀ t : State, (s.takeSample y).judgeStep st q = t → t.link = (s.takeSample y).link →
      exec (.monitorSample y) s = .next t := fun t ht hlink => by
    rw [State.exec_sample_sameLink (by rw [hsample, ht, hlink, hmon.link]), hsample, ht]
  generalize hu : s.takeSample y = u at *
  refine ⟨fun target rate torque tolerance inBand timeout hspec hq => ?_,
    fun rel value hold timeout action hspec => ?_,
    fun averaging mode reference tolerance sum count hspec hphase hcount => ?_, fun hunread => ?_⟩
  · subst hq
    have hin : u.inBand st target tolerance = true ↔
        s.drive[st].setpoint = s.drive[st].target ∧ ((u.quantity st .speed).held - target).natAbs ≤ tolerance := by
      simp [State.inBand, hmon.drive]
    have hreads := (hruns'.judgeStep_ramp hspec).trans rfl
    unfold State.rampSample at hreads
    rw [hmon.now] at hreads
    refine ⟨fun hok => hexec _ (hreads.trans (if_pos (by simpa using mt hin.mp hok))) rfl, fun hok hheld => ?_,
      fun spec hok hheld hnext => ?_⟩
    · refine hexec _ (hreads.trans ?_) rfl
      exact (if_neg (by simp [hin.mpr hok])).trans (if_neg (Nat.not_le.mpr hheld))
    · obtain ⟨hon, hbegins, hlink⟩ := hruns'.endStep_done (hmon.nextIs hnext)
      rw [hspec] at hon
      refine ⟨_, hexec _ (hreads.trans ?_) hlink, hon, hbegins⟩
      exact (if_neg (by simp [hin.mpr hok])).trans (if_pos hheld)
  · have hmet := gateMet_iff (u.quantity st q) rel value
    have hreads := (hruns'.judgeStep_gate hspec).trans rfl
    unfold State.gateSample at hreads
    rw [hmon.now] at hreads
    refine ⟨fun hok => hexec _ (hreads.trans (if_pos (by simpa using mt hmet.mp hok))) rfl, fun hok hheld => ?_,
      fun spec hok hheld hnext => ?_⟩
    · refine hexec _ (hreads.trans ?_) rfl
      exact (if_neg (by rw [hmet.mpr hok]; exact Bool.false_ne_true)).trans (if_neg (Nat.not_le.mpr hheld))
    · obtain ⟨hon, hbegins, hlink⟩ := hruns'.endStep_done (hmon.nextIs hnext)
      rw [hspec] at hon
      refine ⟨_, hexec _ (hreads.trans ?_) hlink, hon, hbegins⟩
      exact (if_neg (by rw [hmet.mpr hok]; exact Bool.false_ne_true)).trans (if_pos hheld)
  · refine hexec _ ((hruns'.judgeStep_check hspec hphase).trans ?_) rfl
    unfold State.checkSample
    exact if_neg hcount
  · refine hexec _ (hruns'.judgeStep_unread ?_) rfl
    rw [hmon.circuit]
    exact hunread

/-- Settles O26. -/
theorem checkJudgesMean : Obligations.CheckJudgesMean := by
  intro st x r s y q averaging mode reference tolerance sum count hruns hy hspec hphase hcount hl
  have hmon := State.takeSample_onlyMon hy hl
  have hruns' := hmon.runsStep hruns
  have hsample := State.sample_running hy hruns.running hmon
  have hdue : s.checkAveragedDue y = true := by
    simp [State.checkAveragedDue, hy, hruns.running, hruns'.stepIs, hspec, hphase, checkSamples, hcount]
  have hmean : s.sample y = (s.takeSample y).checkAveraged st x q mode reference tolerance (averaging / 10)
      (sum + ((s.takeSample y).quantity st q).held) := by
    rw [hsample, hruns'.judgeStep_check hspec hphase, State.checkSample]
    exact if_pos hcount
  have hexec : ∀ t : State, s.sample y = t → t.link = s.link → exec (.checkAveraged y) s = .next t := fun t ht hlink => by
    rw [exec_checkAveraged, State.eventWhen_sameLink hdue (by rw [ht, hlink]), ht]
  have hlink := hmon.link
  have hnext : ∀ spec, s.nextIs st x.index spec → (s.takeSample y).nextIs st x.index spec := fun _ => hmon.nextIs
  have hstop : ∀ k, ((s.takeSample y).addCheckResult st k).stopOnFail st = s.stopOnFail st := fun k =>
    (State.addCheckResult_quiet _ st k).stopOnFail.trans (hmon.stopOnFail st)
  have hkind : x.spec.kind = .check := by rw [hspec]; rfl
  generalize s.takeSample y = u at *
  refine ⟨fun spec hn hgoes => ?_, fun hfails hstops => ?_⟩
  · have hends := hmean.trans (if_neg fun hstops => by
      obtain ⟨hfails, hstops⟩ := hstops
      exact hgoes.elim (fun h => Bool.false_ne_true ((congrArg not h).symm.trans hfails))
        fun h => Bool.false_ne_true (h.symm.trans ((hstop _).symm.trans hstops)))
    obtain ⟨hon, hbegins, hchecks, hquiet⟩ := hruns'.checked_endStep _ (hnext spec hn)
    rw [hkind] at hon
    exact ⟨_, hexec _ hends (hquiet.trans hlink), hon, hbegins, hchecks⟩
  · have hends := hmean.trans (if_pos ⟨congrArg not hfails, (hstop _).trans hstops⟩)
    obtain ⟨hstopping, hentries, hchecks, hquiet⟩ := hruns'.checked_enterStopping _
    rw [hkind] at hentries
    exact ⟨_, hexec _ hends (hquiet.trans hlink), hstopping, hquiet.trans hlink, hentries, hchecks⟩

end Sys2Proof.Machine
end

section
/-! PROOFS. Latches handed on (R87 to R91): their notices and remarks, and the alarm that cuts a test (R88). -/

namespace Sys2Proof.Machine

open Sys2Proof

set_option Elab.async false

/-! ### Remarks (R160, R161) -/

/-- What remarks a record holds, and whether REMARKS_FULL is set: all that a further remark depends on. -/
def Record.marks (r : Record) : List Remark × Bool := (r.remarks, r.remarksFull)

theorem Record.addRemark_marks {r r' : Record} (h : r.marks = r'.marks) (m : Remark) :
    (r.addRemark m).marks = (r'.addRemark m).marks := by
  obtain ⟨hremarks, hfull⟩ := Prod.mk.inj h
  unfold Record.addRemark Record.marks
  rw [hremarks]
  (repeat' split) <;> simp_all

/-- The remark a latch leaves in the record in progress of a station in this state that stays there (R9, R88, R89). -/
def latchRemark (x : StationState) (q : StQuantity) (r : Record) (k : FlagKind) : Record :=
  match x, k.isAlarm with
  | .stopping, true => r.addRemark (.alarm q k)
  | .running, false | .stopping, false => r.addRemark (.warning q k)
  | _, _ => r

theorem latchRemark_marks {r r' : Record} (h : r.marks = r'.marks) (x : StationState) (q : StQuantity) (k : FlagKind) :
    (latchRemark x q r k).marks = (latchRemark x q r' k).marks := by
  unfold latchRemark
  split
  · exact Record.addRemark_marks h _
  · exact Record.addRemark_marks h _
  · exact Record.addRemark_marks h _
  · exact h

theorem foldl_latchRemark_marks {r r' : Record} (h : r.marks = r'.marks) (x : StationState) (q : StQuantity)
    (ks : List FlagKind) : (ks.foldl (latchRemark x q) r).marks = (ks.foldl (latchRemark x q) r').marks := by
  induction ks generalizing r r' with
  | nil => exact h
  | cons k ks ih => exact ih (latchRemark_marks h x q k)

namespace State

variable {s t u : State} {st : Station} {x : StepCtx} {r : Record} {y : SensorInput} {q : StQuantity}

/-! ### Notices of latches (R91) -/

/-- The notice a latch gives (R91). -/
def latchNotices (s : State) (scope : Option Station) (q : Quantity) (held : Int) (k : FlagKind) : List NoticeBody :=
  if s.mon.masks[q.idx].has k then [] else [.nfl scope q k held s.now]

theorem flagNotice_eq (s : State) (scope : Option Station) (q : Quantity) (held : Int) (k : FlagKind) :
    s.flagNotice scope q held k = (s.latchNotices scope q held k).foldl State.giveNotice s := by
  unfold flagNotice latchNotices
  split <;> rfl

theorem latchNotices_congr (hmon : t.mon.masks = s.mon.masks) (hclock : t.clock = s.clock) (scope : Option Station)
    (q : Quantity) (held : Int) (k : FlagKind) : t.latchNotices scope q held k = s.latchNotices scope q held k := by
  unfold latchNotices now
  rw [hmon, hclock]

/-- A latch gives its notice, whatever else the state holds. -/
theorem SameNotices.flagNotice (h : s.SameNotices t) (hmon : t.mon.masks = s.mon.masks) (hclock : t.clock = s.clock)
    (scope : Option Station) (q : Quantity) (held : Int) (k : FlagKind) :
    ((s.latchNotices scope q held k).foldl State.giveNotice s).SameNotices (t.flagNotice scope q held k) := by
  rw [flagNotice_eq, latchNotices_congr hmon hclock]
  exact h.give _

theorem flagNotice_quiet (s : State) (scope : Option Station) (q : Quantity) (held : Int) (k : FlagKind) (st : Station) :
    s.Quiet (s.flagNotice scope q held k) st := by
  constructor <;> simp

/-! ### A latch that leaves its station in its state and step -/

/-- A change within a test that leaves the step in progress and gives these notices and, in turn, these kinds' remarks. -/
structure Latches (s t : State) (st : Station) (q : StQuantity) (bs : List NoticeBody) (ks : List FlagKind) : Prop where
  quiet : s.Quiet t st
  step : t.seq[st.val].step = s.seq[st.val].step
  notices : (bs.foldl State.giveNotice s).SameNotices t
  remarks : t.seq[st.val].record.map Record.marks =
    s.seq[st.val].record.map (fun r => (ks.foldl (latchRemark s.seq[st.val].state q) r).marks)

theorem Latches.refl (s : State) (st : Station) (q : StQuantity) : s.Latches s st q [] [] :=
  ⟨.refl s st, rfl, ⟨rfl, rfl⟩, rfl⟩

theorem Latches.trans {bs cs : List NoticeBody} {ks ls : List FlagKind} (h : s.Latches t st q bs ks)
    (k : t.Latches u st q cs ls) : s.Latches u st q (bs ++ cs) (ks ++ ls) := by
  refine ⟨h.quiet.trans k.quiet, k.step.trans h.step, ?_, ?_⟩
  · rw [List.foldl_append]
    exact (h.notices.give cs).trans k.notices
  · have hr := h.remarks
    rw [k.remarks, h.quiet.state]
    cases hs : s.seq[st.val].record with
    | none =>
      rw [hs] at hr
      rw [Option.map_eq_none_iff.mp hr]
      rfl
    | some r =>
      rw [hs] at hr
      obtain ⟨r', hr', hmarks⟩ := Option.map_eq_some_iff.mp hr
      rw [hr']
      simp only [Option.map_some, List.foldl_append]
      exact congrArg some (foldl_latchRemark_marks hmarks _ _ _)

/-- The Leak Tester's part of a latch decides a result and stops nothing (R134). -/
theorem leakAlarm_latches (s : State) (st : Station) (q : StQuantity) (k : FlagKind) :
    s.Latches (s.leakAlarm st q k) st q [] [] := by
  unfold leakAlarm
  split
  · show s.Latches ((s.decideLeak st (.stopped .sensor)).ventAfter st) st q [] []
    refine ⟨?_, by simp, ⟨by simp, by simp⟩, ?_⟩
    · constructor
      case others => intro j hj; simp [hj.symm]
      all_goals simp
    · simp [decideLeak, LeakResult.stopped, Function.comp_def, Record.marks]
  · exact .refl s st q

theorem flagNotice_latches (s : State) (st : Station) (q : StQuantity) (held : Int) (k : FlagKind) :
    s.Latches (s.flagNotice (some st) (.station q) held k) st q (s.latchNotices (some st) (.station q) held k) [] :=
  ⟨flagNotice_quiet .., by simp, by rw [← flagNotice_eq]; exact ⟨rfl, rfl⟩, by simp⟩

theorem remark_latches {m : Remark} {k : FlagKind} (hm : ∀ r, latchRemark (s.stateOf st) q r k = r.addRemark m) :
    s.Latches (s.remark st m) st q [] [k] := by
  simp only [stateOf, Fin.getElem_fin] at hm
  exact ⟨remark_quiet s st m, by simp, ⟨rfl, rfl⟩, by simp [hm, State.remark, Function.comp_def]⟩

theorem unmarked_latches {k : FlagKind} (hm : ∀ r, latchRemark (s.stateOf st) q r k = r) : s.Latches s st q [] [k] := by
  simp only [stateOf, Fin.getElem_fin] at hm
  exact ⟨.refl s st, rfl, ⟨rfl, rfl⟩, by simp [hm]⟩

/-- The Sequencer's part of an alarm latch, but in RUNNING (R9, R88). -/
theorem alarm_latches {k : FlagKind} (hk : k.isAlarm = true) (hstate : s.stateOf st ≠ .running) :
    s.Latches (s.alarm st q k) st q [] [k] := by
  unfold alarm
  split
  case h_1 h => exact absurd h hstate
  case h_2 h => exact remark_latches fun r => by simp only [latchRemark, h, hk]
  all_goals
    rename_i h
    exact unmarked_latches fun r => by simp only [latchRemark, h, hk]

/-- The Sequencer's part of a warning latch (R89). -/
theorem warn_latches {k : FlagKind} (hk : k.isAlarm = false) : s.Latches (s.warn st q k) st q [] [k] := by
  unfold warn
  split
  case h_1 h | h_2 h => exact remark_latches fun r => by simp only [latchRemark, h, hk]
  all_goals
    rename_i h
    exact unmarked_latches fun r => by simp only [latchRemark, h, hk]

/-- A latch that leaves its station in its state (R88 to R91). -/
theorem handOn_latches (held : Int) (k : FlagKind) (hstays : s.stateOf st = .running → k.isAlarm = false) :
    s.Latches (handOn st q held s k) st q (s.latchNotices (some st) (.station q) held k) [k] := by
  have hflag := s.flagNotice_latches st q held k
  have hleak := hflag.trans ((s.flagNotice (some st) (.station q) held k).leakAlarm_latches st q k)
  have hstate : ∀ {u : State} {bs ks}, s.Latches u st q bs ks → u.stateOf st = .running → k.isAlarm = false :=
    fun h hu => hstays (h.quiet.state.symm.trans hu)
  unfold handOn
  cases hk : k.isAlarm with
  | true => simpa using hleak.trans (alarm_latches hk fun hu => Bool.false_ne_true ((hstate hleak hu).symm.trans hk))
  | false => simpa using hflag.trans (warn_latches (q := q) hk)

/-- Latches handed on in turn, each leaving the station in its state. -/
theorem foldl_handOn_latches (held : Int) (ks : List FlagKind)
    (hstays : s.stateOf st = .running → ∀ k ∈ ks, k.isAlarm = false) :
    s.Latches (ks.foldl (handOn st q held) s) st q (ks.flatMap (s.latchNotices (some st) (.station q) held)) ks := by
  induction ks generalizing s with
  | nil => exact .refl s st q
  | cons k ks ih =>
    have h := handOn_latches (q := q) held k fun hs => hstays hs k List.mem_cons_self
    have hrest := ih (s := handOn st q held s k) fun hs j hj =>
      hstays (h.quiet.state.symm.trans hs) j (List.mem_cons_of_mem _ hj)
    have hnotices : (handOn st q held s k).latchNotices (some st) (.station q) held =
        s.latchNotices (some st) (.station q) held :=
      funext fun j => latchNotices_congr (by rw [h.quiet.mon]) h.quiet.clock ..
    rw [hnotices] at hrest
    exact h.trans hrest

/-- An alarm that latches on a RUNNING station stops its test, the Leak Tester's part of the latch done before (R88). -/
theorem handOn_alarm (held : Int) (k : FlagKind) (hk : k.isAlarm = true) (hrunning : s.stateOf st = .running) :
    ∃ u, s.Latches u st q (s.latchNotices (some st) (.station q) held k) []
      ∧ handOn st q held s k = u.enterStopping st (some (.monitorAlarm q k)) false := by
  have hflag := s.flagNotice_latches st q held k
  have hleak := hflag.trans ((s.flagNotice (some st) (.station q) held k).leakAlarm_latches st q k)
  rw [List.append_nil] at hleak
  refine ⟨_, hleak, ?_⟩
  have hstate := hleak.quiet.state.trans hrunning
  unfold handOn
  rw [if_pos hk]
  exact State.alarm.eq_def .. |>.trans (by simp [stateOf, hstate])

theorem afterNotices_ctx (s t : State) (st : Station) : (s.afterNotices t).ctx st = t.ctx st := by
  unfold ctx
  rw [afterNotices_seq]

/-- The state in which a sample's latches are handed on: the sample is held and judged. -/
def sampledAt (s : State) (y : SensorInput) (st : Station) (q : StQuantity) : State :=
  (s.gathered y).modQuantity st q (fun _ => s.judgedQuantity y st q)

theorem sampledAt_onlyMon (s : State) (y : SensorInput) (st : Station) (q : StQuantity) : s.OnlyMon (s.sampledAt y st q) := by
  obtain ⟨h₁, h₂, h₃, h₄, h₅, h₆, h₇, h₈, h₉, h₁₀, h₁₁, h₁₂, h₁₃, h₁₄⟩ := gathered_onlyMon s y
  exact ⟨h₁, h₂, h₃, h₄, h₅, h₆, h₇, h₈, h₉, h₁₀, h₁₁, h₁₂, h₁₃, h₁₄⟩

theorem sampledAt_masks (s : State) (y : SensorInput) (st : Station) (q : StQuantity) :
    (s.sampledAt y st q).mon.masks = s.mon.masks := (gathered_mon s y).2.2.2

theorem sampledAt_latchNotices (s : State) (y : SensorInput) (st : Station) (q : StQuantity) (scope : Option Station)
    (p : Quantity) (held : Int) : (s.sampledAt y st q).latchNotices scope p held = s.latchNotices scope p held :=
  funext fun _ => latchNotices_congr (s.sampledAt_masks y st q) (s.sampledAt_onlyMon y st q).clock ..

theorem OnlyMon.sameNotices (h : s.OnlyMon u) : s.SameNotices u := ⟨h.link, by rw [h.counters]⟩

/-- A sample of a RUNNING station whose first latch is an alarm (R87, R88): its notice, the entry to STOPPING, and then the
latches behind it, in a station already STOPPING. -/
theorem takeSample_alarm (hy : y.target = some (st, q)) (hrunning : s.stateOf st = .running) {k : FlagKind}
    (hk : k.isAlarm = true) {rest : List FlagKind}
    (hlatches : newLatches (s.watched st q) (s.judgedQuantity y st q).current (s.quantity st q).latched = k :: rest) :
    ∃ u, (s.sampledAt y st q).Latches u st q (s.latchNotices (some st) (.station q) (s.judgedQuantity y st q).held k) []
      ∧ (u.enterStopping st (some (.monitorAlarm q k)) false).Latches (s.takeSample y) st q
          (rest.flatMap (s.latchNotices (some st) (.station q) (s.judgedQuantity y st q).held)) rest := by
  obtain ⟨u, hu, hstops⟩ := handOn_alarm (q := q) (s.judgedQuantity y st q).held k hk
    (((s.sampledAt_onlyMon y st q).stateOf st).trans hrunning)
  rw [sampledAt_latchNotices] at hu
  refine ⟨u, hu, ?_⟩
  have hrest := foldl_handOn_latches (s := u.enterStopping st (some (.monitorAlarm q k)) false) (st := st) (q := q)
    (s.judgedQuantity y st q).held rest
    fun h => absurd ((u.enterStopping_entersStopping st _ false).state.symm.trans h) nofun
  have hnotices : (u.enterStopping st (some (.monitorAlarm q k)) false).latchNotices (some st) (.station q) =
      s.latchNotices (some st) (.station q) :=
    funext₂ fun _ _ => latchNotices_congr (by simp [hu.quiet.mon, sampledAt_masks])
      (by simp [hu.quiet.clock, (s.sampledAt_onlyMon y st q).clock]) ..
  rw [hnotices] at hrest
  rw [takeSample_station s y st q hy, hlatches, List.foldl_cons]
  exact hstops ▸ hrest

end State

/-- Settles O24. -/
theorem alarmLatchCutsTest : Obligations.AlarmLatchCutsTest := by
  intro st q y s k rest hy hrunning hk hlatches
  obtain ⟨u, hu, hrest⟩ := State.takeSample_alarm hy hrunning hk hlatches
  have hjudged := s.sampledAt_onlyMon y st q
  have hstops := u.enterStopping_entersStopping st (some (.monitorAlarm q k)) false
  have hnow : u.now = (s.sampledAt y st q).now := by simp [State.now, hu.quiet.clock]
  have hnst := u.enterStopping_notices st (some (.monitorAlarm q k)) false
  generalize u.enterStopping st (some (.monitorAlarm q k)) false = w at *
  have hstopping : (s.takeSample y).stateOf st = .stopping := hrest.quiet.state.trans hstops.state
  have hsample : s.sample y = s.takeSample y := by
    unfold State.sample State.readSample
    rw [hy]
    simp only [hrunning, hstopping]
  have hheld : (s.takeSample y).quantity st q = s.judgedQuantity y st q := State.takeSample_quantity hy
  refine ⟨s.afterNotices (s.takeSample y), by rw [← hsample]; exact exec_monitorSample s y, ?_, ?_, ?_, ?_, ?_, ?_, ?_, ?_⟩
  · simpa [State.stateOf] using hstopping
  · rw [State.afterNotices_ctx, ← State.OnlyMon.now hjudged, ← hnow]
    exact hrest.quiet.stopStart.trans hstops.start
  · rw [State.afterNotices_ctx]
    exact hrest.step.trans hstops.step
  · rw [State.afterNotices_ctx, ← hjudged.ctx st]
    exact hrest.quiet.test.trans (hstops.test.trans (congrArg _ hu.quiet.test))
  · rw [State.afterNotices_drive, hrest.quiet.drive, ← hjudged.drive, ← hjudged.config, ← hu.quiet.drive, ← hu.quiet.config]
    exact hstops.drive
  · intro j hj
    rw [State.afterNotices_seq, State.afterNotices_drive, ← hjudged.seq, ← hjudged.drive]
    exact (hu.quiet.othersKept.trans (hstops.others.trans hrest.quiet.othersKept)) j hj
  · rw [State.afterNotices_store, hrest.quiet.store, hstops.store, hu.quiet.store, hjudged.store]
  · have hheld' : ((s.afterNotices (s.takeSample y)).quantity st q).held = (s.judgedQuantity y st q).held := by
      rw [← hheld]
      simp
    rw [hheld']
    have hgiven := (((hjudged.sameNotices.give _).trans hu.notices).give _).trans hnst
    have hall := (hgiven.give _).trans hrest.notices
    rw [← List.foldl_append, ← List.foldl_append] at hall
    exact hall.gives

end Sys2Proof.Machine
end

section
/-! PROOFS. What every monitor sample does (R80, R85 to R91, R128). -/

namespace Sys2Proof.Machine

open Sys2Proof

set_option Elab.async false

theorem FlagSet.has_union (a b : FlagSet) (k : FlagKind) : (a.union b).has k = (a.has k || b.has k) := by
  cases k <;> rfl

/-- A valid sample is held and zeroes the invalid count, an invalid one counts; conditions compare strictly; a watched
quantity latches what holds (R80, R85, R86). -/
theorem QuantityMon.sample_spec (m : QuantityMon) (v : Option Int) (thr : Thresholds) (w : Bool) :
    let n := m.sample v thr w
    n.held = v.getD m.held ∧ n.lastValid = v.isSome ∧ n.invalid = (if v.isSome then 0 else min (m.invalid + 1) 65535)
      ∧ (n.current.highAlarm = true ↔ n.held > thr.highAlarm) ∧ (n.current.highWarn = true ↔ n.held > thr.highWarn)
      ∧ (n.current.lowWarn = true ↔ n.held < thr.lowWarn) ∧ (n.current.lowAlarm = true ↔ n.held < thr.lowAlarm)
      ∧ (n.current.lost = true ↔ 10 ≤ n.invalid)
      ∧ ∀ k : FlagKind, n.latched.has k = (m.latched.has k || (w && n.current.has k)) := by
  refine ⟨rfl, rfl, by cases v <;> rfl, ?_, ?_, ?_, ?_, ?_, fun k => ?_⟩
  iterate 5 exact decide_eq_true_iff
  cases w
  · simp [QuantityMon.sample]
  · simp [QuantityMon.sample, FlagSet.has_union]

/-- The kinds that latch (R86, R87). -/
theorem newLatches_eq (w : Bool) (current latched : FlagSet) : newLatches w current latched =
    [FlagKind.highAlarm, .lowAlarm, .lost, .highWarn, .lowWarn].filter
      (fun k => w && current.has k && !latched.has k) := by
  cases w
  · simp [newLatches]
  · simp [newLatches, latchOrder]

namespace State

variable {s t u : State} {st : Station} {x : StepCtx} {r : Record} {y : SensorInput} {q : StQuantity}

/-- The notices of unmasked latches (R91). -/
theorem flatMap_latchNotices (s : State) (scope : Option Station) (q : Quantity) (held : Int) (ks : List FlagKind) :
    ks.flatMap (s.latchNotices scope q held) =
      (ks.filter (fun k => !(s.mon.masks[q.idx]).has k)).map (fun k => .nfl scope q k held s.now) := by
  induction ks with
  | nil => rfl
  | cons k ks ih =>
    rw [List.flatMap_cons, ih, latchNotices, List.filter_cons]
    cases (s.mon.masks[q.idx]).has k <;> rfl

/-! ### A latch that takes its station out of RUNNING -/

/-- An alarm among the latches of a RUNNING station takes it to STOPPING (R88). -/
theorem foldl_handOn_stops (held : Int) (ks : List FlagKind) (hrunning : s.stateOf st = .running)
    (halarm : ∃ k ∈ ks, k.isAlarm = true) : (ks.foldl (handOn st q held) s).stateOf st = .stopping := by
  induction ks generalizing s with
  | nil => exact absurd halarm (by simp)
  | cons k ks ih =>
    rw [List.foldl_cons]
    cases hk : k.isAlarm with
    | true =>
      obtain ⟨u, -, hstops⟩ := handOn_alarm (q := q) held k hk hrunning
      have hstopping := (u.enterStopping_entersStopping st (some (.monitorAlarm q k)) false).state
      rw [← hstops] at hstopping
      exact (foldl_handOn_latches held ks fun h => absurd (hstopping.symm.trans h) nofun).quiet.state.trans hstopping
    | false =>
      refine ih ((handOn_latches (q := q) held k fun _ => hk).quiet.state.trans hrunning) ?_
      obtain ⟨j, hj, hjk⟩ := halarm
      rcases List.mem_cons.mp hj with rfl | hj
      · exact absurd (hk.symm.trans hjk) Bool.false_ne_true
      · exact ⟨j, hj, hjk⟩

theorem foldl_handOn_othersKept (held : Int) (ks : List FlagKind) : s.OthersKept (ks.foldl (handOn st q held) s) st := by
  induction ks generalizing s with
  | nil => exact .refl s st
  | cons k ks ih => exact .trans (fun j hj => ⟨by simp [hj.symm], by simp [hj.symm]⟩) ih

/-- A sample leaves the other stations' contexts and drives. -/
theorem sample_othersKept (hy : y.target = some (st, q)) : s.OthersKept (s.sample y) st := by
  have htaken : s.OthersKept (s.takeSample y) st := by
    rw [takeSample_station s y st q hy]
    exact (OthersKept.of_eq st (s.sampledAt_onlyMon y st q).seq (s.sampledAt_onlyMon y st q).drive).trans
      (foldl_handOn_othersKept _ _)
  refine htaken.trans ?_
  unfold sample readSample
  rw [hy]
  dsimp only
  split
  · exact fun j hj => ⟨by simp [hj.symm], by simp [hj.symm]⟩
  · split
    · exact fun j hj => ⟨by simp [hj.symm], by simp [hj.symm]⟩
    · exact .refl _ st
  · exact .refl _ st

/-! ### What reads a sample without moving the station -/

/-- No notice given, and the remarks of the record in progress as they were. -/
structure Unnoticed (s t : State) (st : Station) : Prop where
  notices : s.SameNotices t
  remarks : t.seq[st.val].record.map Record.remarks = s.seq[st.val].record.map Record.remarks

theorem Unnoticed.refl (s : State) (st : Station) : s.Unnoticed s st := ⟨⟨rfl, rfl⟩, rfl⟩

theorem Unnoticed.trans (h : s.Unnoticed t st) (k : t.Unnoticed u st) : s.Unnoticed u st :=
  ⟨h.notices.trans k.notices, k.remarks.trans h.remarks⟩

/-- The chain's end leaves RUNNING (R6). -/
theorem chainEnd_leaves (s : State) (st : Station) : (s.chainEnd st).stateOf st ≠ .running := by
  intro h
  unfold chainEnd at h
  split at h
  · rcases ((s.leaveRunning st).complete_entersCompleting st).state with hs | hs <;> exact absurd (hs.symm.trans h) nofun
  · exact absurd ((s.enterStopping_entersStopping st none false).state.symm.trans h) nofun

/-- A step's end takes the station to another step or out of RUNNING (R52). -/
theorem endStep_moves (o : StepOutcome) (hx : (s.ctx st).step = some x) (hrunning : (s.endStep st o).stateOf st = .running) :
    (s.endStep st o).stepIndex st ≠ some x.index := by
  rw [endStep_eq _ _ _ _ hx] at hrunning ⊢
  unfold nextStep at hrunning ⊢
  split
  · rename_i spec hspec
    obtain ⟨z, hz, hindex, -⟩ := beginStep_step (s.finishStep st o none) st (x.index + 1) spec
    intro h
    simp only [stepIndex, ctx, Fin.getElem_fin, hz, Option.map_some, Option.some.injEq] at h
    omega
  · rename_i hnone
    simp only [hnone] at hrunning
    exact absurd hrunning (chainEnd_leaves _ st)

theorem decideLeak_record_remarks (s : State) (st : Station) (r : LeakResult) :
    (s.decideLeak st r).seq[st.val].record.map Record.remarks = s.seq[st.val].record.map Record.remarks := by
  unfold decideLeak
  dsimp only
  split <;> simp [Function.comp_def, addLeakResult]

/-- A decided leak result is noticed by nobody while the station stays in RUNNING (R7, R139). -/
theorem decideAndVent_unnoticed (r : LeakResult)
    (hstays : (s.decideAndVent st r).stateOf st = .running) : s.Unnoticed (s.decideAndVent st r) st := by
  have hvented : s.Unnoticed ((s.decideLeak st r).ventAfter st) st := ⟨⟨by simp, by simp⟩, by simp [decideLeak_record_remarks]⟩
  unfold decideAndVent failedOutcome at hstays ⊢
  dsimp only at hstays ⊢
  split
  · rename_i hfailed
    rw [if_pos hfailed] at hstays
    split
    · rename_i hstops
      rw [if_pos hstops] at hstays
      exact absurd ((enterStopping_entersStopping _ st none false).state.symm.trans hstays) nofun
    · exact hvented
  · exact hvented

/-- A station still RUNNING the same step has noticed nothing. -/
def Unmoved (s t : State) (st : Station) : Prop :=
  t.stateOf st = .running → t.stepIndex st = s.stepIndex st → s.Unnoticed t st

theorem Unmoved.of_unnoticed (h : s.Unnoticed t st) : s.Unmoved t st := fun _ _ => h

theorem modStep_unmoved (f : StepCtx → StepCtx) : s.Unmoved (s.modStep st f) st := .of_unnoticed ⟨⟨rfl, rfl⟩, by simp⟩

theorem endStep_unmoved (o : StepOutcome) (hx : (s.ctx st).step = some x) (hindex : t.stepIndex st = some x.index) :
    t.Unmoved (s.endStep st o) st := fun hrunning hstep => absurd (hstep.trans hindex) (endStep_moves o hx hrunning)

theorem enterStopping_unmoved (cause : Option AbortCause) (drop : Bool) : t.Unmoved (s.enterStopping st cause drop) st :=
  fun hrunning _ => absurd ((s.enterStopping_entersStopping st cause drop).state.symm.trans hrunning) nofun

theorem stepIndex_of_step (hx : (s.ctx st).step = some x) : s.stepIndex st = some x.index := by
  unfold stepIndex; rw [hx]; rfl

theorem endStep_or_modStep_unmoved (hx : (s.ctx st).step = some x) {c : Prop} [Decidable c] (f : StepCtx → StepCtx) :
    s.Unmoved (if c then s.endStep st .done else s.modStep st f) st := by
  split
  · exact endStep_unmoved .done hx (stepIndex_of_step hx)
  · exact modStep_unmoved f

theorem rampSample_unmoved (hx : (s.ctx st).step = some x) (target : Int) (tolerance inBand : Nat) :
    s.Unmoved (s.rampSample st x target tolerance inBand) st := by
  unfold rampSample
  split
  · exact modStep_unmoved _
  · exact endStep_or_modStep_unmoved hx _

theorem gateSample_unmoved (hx : (s.ctx st).step = some x) (rel : GateRelation) (value : Int) (hold : Nat) :
    s.Unmoved (s.gateSample st x q rel value hold) st := by
  unfold gateSample
  split
  · exact modStep_unmoved _
  · exact endStep_or_modStep_unmoved hx _

theorem checkSample_unmoved (hx : (s.ctx st).step = some x) (averaging : Nat) (mode : CheckMode) (reference : Int)
    (tolerance : Nat) (sum : Int) (count : Nat) :
    s.Unmoved (s.checkSample st x q averaging mode reference tolerance sum count) st := by
  unfold checkSample
  dsimp only
  split
  · unfold checkAveraged
    dsimp only
    split
    · exact enterStopping_unmoved _ _
    · exact endStep_unmoved .done (by simpa [ctx] using hx) (stepIndex_of_step hx)
  · exact modStep_unmoved _

theorem decideAndVent_unmoved (r : LeakResult) (h : t.Unnoticed s st) : t.Unmoved (s.decideAndVent st r) st :=
  fun hrunning _ => h.trans (decideAndVent_unnoticed r hrunning)

theorem leakSample_unmoved (s : State) (st : Station) (q : StQuantity) : s.Unmoved (s.leakSample st q) st := by
  have hmeasure : ∀ l p, s.Unmoved (s.measureSample st l p) st := fun l p => by
    unfold measureSample
    dsimp only
    split
    · exact decideAndVent_unmoved _ ⟨⟨rfl, rfl⟩, rfl⟩
    · exact .of_unnoticed ⟨⟨rfl, rfl⟩, rfl⟩
  unfold leakSample
  split
  · unfold standstillWaitSample
    split
    · exact .of_unnoticed ⟨⟨by simp, by simp [enterPhase]⟩, by simp⟩
    · exact .of_unnoticed (.refl s st)
  · unfold settleSample
    split
    · exact decideAndVent_unmoved _ (.refl s st)
    · exact .of_unnoticed (.refl s st)
  · exact hmeasure _ _
  · exact hmeasure _ _
  · exact .of_unnoticed (.refl s st)

/-- The step in progress reads a sample without notice while it goes on. -/
theorem judgeStep_unmoved (s : State) (st : Station) (q : StQuantity) : s.Unmoved (s.judgeStep st q) st := by
  have hself : s.Unmoved s st := .of_unnoticed (.refl s st)
  unfold judgeStep
  split
  · exact hself
  rename_i x hx
  split
  case h_1 => split; exacts [rampSample_unmoved hx _ _ _, hself]
  case h_2 => exact hself
  case h_3 => split; exacts [gateSample_unmoved hx _ _ _, hself]
  case h_4 =>
    split
    · split
      · exact checkSample_unmoved hx _ _ _ _ _ _
      all_goals exact hself
    · exact hself
  case h_5 => exact leakSample_unmoved s st q

/-- A STOPPING station reads a sample without notice while it stays STOPPING. -/
theorem stoppingSample_unnoticed (hstays : (s.stoppingSample st).stateOf st = .stopping) :
    s.Unnoticed (s.stoppingSample st) st := by
  unfold stoppingSample at hstays ⊢
  dsimp only at hstays ⊢
  split
  · split
    · rename_i hstands hdone
      rw [if_pos hstands, if_pos hdone] at hstays
      rcases (complete_entersCompleting _ st).state with hs | hs <;> exact absurd (hs.symm.trans hstays) nofun
    · exact ⟨⟨rfl, rfl⟩, rfl⟩
  · exact ⟨⟨rfl, rfl⟩, rfl⟩

/-- The latches of a sample (R86). -/
def latchedBy (s : State) (y : SensorInput) (st : Station) (q : StQuantity) : List FlagKind :=
  newLatches (s.watched st q) (s.judgedQuantity y st q).current (s.quantity st q).latched

theorem takeSample_stateOf (hy : y.target = some (st, q)) (hrunning : s.stateOf st = .running)
    (halarm : ∃ k ∈ s.latchedBy y st q, k.isAlarm = true) : (s.takeSample y).stateOf st = .stopping := by
  rw [takeSample_station s y st q hy]
  exact foldl_handOn_stops _ _ (((s.sampledAt_onlyMon y st q).stateOf st).trans hrunning) halarm

/-- The readers of a sample leave a station that stays RUNNING its step, or STOPPING, unnoticed. -/
theorem readSample_unnoticed (hy : y.target = some (st, q)) (hbefore : t.stateOf st = s.stateOf st)
    (hstate : (readSample s t y).stateOf st = s.stateOf st) (hstep : (readSample s t y).stepIndex st = t.stepIndex st) :
    t.Unnoticed (readSample s t y) st := by
  unfold readSample at hstate hstep ⊢
  rw [hy] at hstate hstep ⊢
  dsimp only at hstate hstep ⊢
  rw [hbefore] at hstate hstep ⊢
  cases hs : s.stateOf st <;> simp only [hs] at hstate hstep ⊢
  case running => exact judgeStep_unmoved t st q hstate hstep
  case stopping =>
    split
    · rename_i hq
      rw [if_pos hq] at hstate
      exact stoppingSample_unnoticed hstate
    · exact .refl t st
  all_goals exact .refl t st

/-- A sample whose station keeps its state and step gives the notices of its latches and leaves their remarks (R87 to R91). -/
theorem sample_latches (hy : y.target = some (st, q)) (hstate : (s.sample y).stateOf st = s.stateOf st)
    (hstep : (s.sample y).stepIndex st = s.stepIndex st) :
    (((s.latchedBy y st q).flatMap (s.latchNotices (some st) (.station q) (s.judgedQuantity y st q).held)).foldl
        State.giveNotice s).SameNotices (s.sample y)
      ∧ (s.sample y).seq[st.val].record.map Record.remarks = s.seq[st.val].record.map
          (fun r => ((s.latchedBy y st q).foldl (latchRemark s.seq[st.val].state q) r).remarks) := by
  have hmon := s.sampledAt_onlyMon y st q
  have hwarns : s.stateOf st = .running → ∀ k ∈ s.latchedBy y st q, k.isAlarm = false := by
    intro hrunning k hk
    by_contra halarm
    have hstopping := takeSample_stateOf hy hrunning ⟨k, hk, by simpa using halarm⟩
    have hsample : s.sample y = s.takeSample y := by
      unfold sample readSample
      rw [hy]
      simp only [hrunning, hstopping]
    exact absurd ((hsample ▸ hstopping).symm.trans (hstate.trans hrunning)) nofun
  have hlatches := foldl_handOn_latches (q := q) (s.judgedQuantity y st q).held (s.latchedBy y st q)
    fun h => hwarns ((hmon.stateOf st).symm.trans h)
  rw [sampledAt_latchNotices] at hlatches
  have htaken := takeSample_station s y st q hy
  change s.takeSample y = (s.latchedBy y st q).foldl (handOn st q (s.judgedQuantity y st q).held) (s.sampledAt y st q) at htaken
  rw [← htaken] at hlatches
  have hread : (s.takeSample y).Unnoticed (s.sample y) st := by
    refine readSample_unnoticed hy (hlatches.quiet.state.trans (hmon.stateOf st)) hstate (hstep.trans ?_)
    have hseq := hlatches.step
    rw [hmon.seq] at hseq
    simp only [stepIndex, ctx, Fin.getElem_fin, hseq]
  refine ⟨((hmon.sameNotices.give _).trans hlatches.notices).trans hread.notices, hread.remarks.trans ?_⟩
  have hremarks := congrArg (Option.map Prod.fst) hlatches.remarks
  rw [hmon.seq] at hremarks
  rw [Option.map_map, Option.map_map] at hremarks
  exact hremarks

/-! ### A sample of SUPPLY (R87, R90, R128) -/

/-- A supply fault gives no notice and leaves what no station's test owns. -/
theorem supplyFault_kept (s : State) : s.SameNotices s.supplyFault ∧ s.supplyFault.drive = s.drive
    ∧ (s.leak.grant = none → s.supplyFault = s) := by
  unfold supplyFault
  split
  · rename_i st hgrant
    refine ⟨?_, ?_, fun h => absurd (hgrant.symm.trans h) nofun⟩
    · split
      · show s.SameNotices ((s.decideLeak st (.stopped .supply)).ventAfter st)
        exact ⟨by simp, by simp⟩
      · exact ⟨rfl, rfl⟩
    · split
      · show ((s.decideLeak st (.stopped .supply)).ventAfter st).drive = s.drive
        simp
      · rfl
  · exact ⟨⟨rfl, rfl⟩, rfl, fun _ => rfl⟩

/-- The latches of a SUPPLY sample give their notices and do nothing else (R91). -/
theorem foldl_flagNotice_eq (scope : Option Station) (q : Quantity) (held : Int) (ks : List FlagKind) :
    ks.foldl (fun u k => u.flagNotice scope q held k) s = (ks.flatMap (s.latchNotices scope q held)).foldl State.giveNotice s := by
  induction ks generalizing s with
  | nil => rfl
  | cons k ks ih =>
    have hnotices : (s.flagNotice scope q held k).latchNotices scope q held = s.latchNotices scope q held :=
      funext fun _ => latchNotices_congr (by simp) (by simp) ..
    rw [List.foldl_cons, ih, hnotices, List.flatMap_cons, List.foldl_append, ← flagNotice_eq]

/-- The state in which a SUPPLY sample's latches are handed on. -/
def supplyHeld (s : State) (y : SensorInput) : State := { s with mon := { s.mon with supply := s.judgedSupply y } }

theorem supplyHeld_onlyMon (s : State) (y : SensorInput) : s.OnlyMon (s.supplyHeld y) := by constructor <;> rfl

theorem supplyLatched_kept (s : State) (y : SensorInput) : (s.supplyLatched y).mon = { s.mon with supply := s.judgedSupply y }
    ∧ (s.supplyLatched y).leak = s.leak ∧ (s.supplyLatched y).seq = s.seq ∧ (s.supplyLatched y).drive = s.drive
    ∧ s.SameLine (s.supplyLatched y) ∧ (s.supplyLatched y).store = s.store ∧ (s.supplyLatched y).table = s.table := by
  unfold supplyLatched
  exact ⟨foldl_flagNotice_mon .., foldl_flagNotice_leak .., foldl_flagNotice_seq .., foldl_flagNotice_drive ..,
    ⟨foldl_flagNotice_clock .., foldl_flagNotice_pins .., foldl_flagNotice_config .., foldl_flagNotice_enc ..,
      foldl_flagNotice_cond ..⟩, foldl_flagNotice_store .., foldl_flagNotice_table ..⟩

theorem supplyLatched_notices (s : State) (y : SensorInput) :
    (((newLatches true (s.judgedSupply y).current s.mon.supply.latched).flatMap
      (s.latchNotices none .supply (s.judgedSupply y).held)).foldl State.giveNotice s).SameNotices (s.supplyLatched y) := by
  have hnotices : (s.supplyHeld y).latchNotices none .supply = s.latchNotices none .supply :=
    funext₂ fun _ _ => latchNotices_congr rfl rfl ..
  have heq := foldl_flagNotice_eq (s := s.supplyHeld y) none .supply (s.judgedSupply y).held
    (newLatches true (s.judgedSupply y).current s.mon.supply.latched)
  rw [hnotices] at heq
  unfold supplyLatched
  exact heq ▸ (s.supplyHeld_onlyMon y).sameNotices.give _

/-- A SUPPLY sample up to the examination of the grant: its latches, and a fault that begins (R90). -/
def supplyTaken (s : State) (y : SensorInput) : State :=
  if supplyFaultBegins s.mon.supply.current (s.judgedSupply y).current then (s.supplyLatched y).supplyFault
  else s.supplyLatched y

theorem supplyTaken_kept (s : State) (y : SensorInput) : (s.supplyLatched y).SameNotices (s.supplyTaken y)
    ∧ (s.supplyTaken y).drive = s.drive ∧ s.SameLine (s.supplyTaken y) ∧ (s.supplyTaken y).store = s.store
    ∧ (s.supplyTaken y).table = s.table ∧ (s.supplyTaken y).mon = { s.mon with supply := s.judgedSupply y }
    ∧ (s.leak.grant = none → (s.supplyTaken y).leak = s.leak ∧ (s.supplyTaken y).seq = s.seq) := by
  obtain ⟨hmon, hleak, hseq, hdrive, hline, hstore, htable⟩ := s.supplyLatched_kept y
  obtain ⟨hnotices, hdrive', hfree⟩ := (s.supplyLatched y).supplyFault_kept
  unfold supplyTaken
  split
  · refine ⟨hnotices, hdrive'.trans hdrive, hline.trans ⟨?_, ?_, ?_, ?_, ?_⟩, ?_, ?_, ?_, fun hgrant => ?_⟩
    iterate 5 simp
    · rw [supplyFault_store, hstore]
    · rw [supplyFault_table, htable]
    · rw [supplyFault_mon, hmon]
    · rw [hfree (by rw [hleak, hgrant])]
      exact ⟨hleak, hseq⟩
  · exact ⟨⟨rfl, rfl⟩, hdrive, hline, hstore, htable, hmon, fun _ => ⟨hleak, hseq⟩⟩

theorem sample_supply (s : State) (r : Reading) : s.sample (.supply r) = (s.supplyTaken (.supply r)).examineSupply := rfl

end State

/-- Settles O23. -/
theorem sampleHoldsAndJudges : Obligations.SampleHoldsAndJudges := by
  refine ⟨fun st q y s hy => ⟨_, exec_monitorSample s y, ?_, fun j p hjp => ?_, ?_, ?_, ?_, ?_, ?_, fun hstate hstep => ?_⟩,
    fun r s => ⟨_, exec_monitorSample s (.supply r), ?_, ?_, ?_, ?_, ?_, ?_, ?_, ?_, ?_, ?_⟩⟩
  · have hquantity : (s.afterNotices (s.sample y)).quantity st q = s.judgedQuantity y st q := by
      rw [← State.takeSample_quantity hy]
      simp
    simp only [hquantity]
    exact QuantityMon.sample_spec ..
  · have hquantity : (s.afterNotices (s.sample y)).quantity j p = (s.takeSample y).quantity j p := by simp
    exact hquantity.trans (State.takeSample_quantity_other hy hjp)
  · simp [State.takeSample_mon_station hy, (State.gathered_mon s y).2.1]
  · simp [State.takeSample_mon_station hy, (State.gathered_mon s y).2.2.1]
  · simp [State.takeSample_mon_station hy, (State.gathered_mon s y).2.2.2]
  · constructor <;> simp
  · exact (State.sample_othersKept hy).trans (State.OthersKept.of_eq st (by simp) (by simp))
  · have hquantity : ((s.afterNotices (s.sample y)).quantity st q) = s.judgedQuantity y st q := by
      rw [← State.takeSample_quantity hy]
      simp
    have hseq : (s.afterNotices (s.sample y)).seq = (s.sample y).seq := State.afterNotices_seq ..
    have hlatched := newLatches_eq (s.watched st q) (s.judgedQuantity y st q).current (s.quantity st q).latched
    obtain ⟨hnotices, hremarks⟩ := State.sample_latches hy (by simpa [State.stateOf, hseq] using hstate)
      (by simpa [State.stepIndex, State.ctx, hseq] using hstep)
    simp only [State.latchedBy, hlatched, State.flatMap_latchNotices] at hnotices hremarks
    refine ⟨?_, ?_⟩
    · simp only [hquantity]
      exact hnotices.gives
    · simp only [hquantity, State.remarks, State.afterNotices_ctx]
      exact hremarks
  · obtain ⟨hnotices, -, -, -, -, hmon, hfree⟩ := s.supplyTaken_kept (.supply r)
    have hsupply : (s.afterNotices (s.sample (.supply r))).mon.supply = s.judgedSupply (.supply r) := by
      simp [State.sample_supply, hmon]
    have hleak : (s.afterNotices (s.sample (.supply r))).leak = ((s.supplyTaken (.supply r)).examineSupply).leak := by
      simp [State.sample_supply]
    have hlatched := newLatches_eq true (s.judgedSupply (.supply r)).current s.mon.supply.latched
    obtain ⟨hheld, hvalid, hinvalid, h₁, h₂, h₃, h₄, h₅, hlatches⟩ := QuantityMon.sample_spec s.mon.supply
      (((s.gather (.supply r)).sampleValue (.supply r)).map Quantity.supply.clamp) s.mon.globals[Quantity.supply.idx] true
    simp only [hsupply, State.circuit]
    generalize (s.afterNotices (s.sample (.supply r))).leak = w at hleak ⊢
    refine ⟨hheld, hvalid, hinvalid, h₁, h₂, h₃, h₄, h₅, hlatches, ?_, fun st rest hqueue hgrant hlow hlost => ?_,
      fun hkept hgrant => ?_⟩
    · have hgiven := ((s.supplyLatched_notices (.supply r)).trans hnotices).trans
        (u := (s.supplyTaken (.supply r)).examineSupply) ⟨by simp, by simp⟩
      rw [hlatched, State.flatMap_latchNotices, List.filter_filter] at hgiven
      simp only [Bool.true_and, fun k => Bool.and_comm (!(s.mon.masks[Quantity.supply.idx]).has k)] at hgiven
      exact hgiven.gives
    · obtain ⟨hleak', -⟩ := hfree hgrant
      have hgrants := examineSupply_grants (s := s.supplyTaken (.supply r)) (by rw [hleak', hqueue]) (by rw [hleak', hgrant])
        (by rw [hmon]; exact hlow) (by rw [hmon]; exact hlost)
      rw [hgrants] at hleak
      subst hleak
      refine ⟨rfl, rfl, ?_, fun j hj => ?_⟩
      · simp [State.enterPhase, LeakCircuit.enter]
      · simp [State.enterPhase, Ne.symm hj, hleak']
    · obtain ⟨hleak', -⟩ := hfree hgrant
      rw [hleak, examineSupply_eq_self (s := s.supplyTaken (.supply r)), hleak']
      rw [hleak', hmon]
      exact hkept.imp_right .inr
  all_goals
    obtain ⟨-, hdrive, hline, hstore, htable, hmon, hfree⟩ := s.supplyTaken_kept (.supply r)
    simp only [State.sample_supply]
  · simp [hmon]
  · simp [hmon]
  · simp [hmon]
  · simp [hmon]
  · refine hline.trans ?_
    constructor <;> simp
  · simp [hdrive]
  · simp [hstore]
  · simp [htable]
  · intro hgrant
    simp [(hfree hgrant).2]

end Sys2Proof.Machine
end

section
/-! PROOFS. The end of STOPPING (R11, R12, R71, R72, R166). -/

namespace Sys2Proof.Machine

open Sys2Proof

set_option Elab.async false

namespace State

variable {s t u : State} {st : Station} {c : TestCtx} {r : Record}

/-- The record of a test whose leak step is decided, closed at the entry to COMPLETING (R12, R162). -/
def closedRecord (s : State) (r : Record) : Record := { r with endTime := some s.now, verdict := some r.compose }

/-- Entry to COMPLETING with no leak phase but VENT: the circuit at rest, the record closed (R12, R141, R162). -/
theorem enterCompleting_rested (hphase : (s.circuit st).phase = .none ∨ (s.circuit st).phase = .vent)
    (hr : (s.ctx st).record = some r) :
    ((s.enterCompleting st).circuit st).phase = .none
      ∧ ((s.enterCompleting st).ctx st).record = some (s.closedRecord r) := by
  simp only [ctx, Fin.getElem_fin] at hr
  unfold enterCompleting closeRecord leakClose
  rcases hphase with hphase | hphase <;> simp only [hphase]
  · exact ⟨hphase, by simp [ctx, hr, closedRecord, now]⟩
  · exact ⟨by simp [leakRest, circuit, LeakCircuit.rest], by simp [ctx, hr, closedRecord, now]⟩

/-- The offer of a closed record gives the NST of a deposit at once, and nothing otherwise (R13, R166). -/
theorem offerRecord_notices (hc : (s.ctx st).test = some c) (hr : (s.ctx st).record = some r) (hv : r.verdict = some r.compose) :
    (∀ n, s.store.next = some n → s.store.records.length < 48 → s.store.deposit = [] →
      ([NoticeBody.nst st .done c.cause (some (r.compose, n))].foldl State.giveNotice s).SameNotices (s.offerRecord st))
    ∧ (s.store.next = none ∨ 48 ≤ s.store.records.length ∨ s.store.deposit ≠ [] → s.SameNotices (s.offerRecord st)) := by
  refine ⟨fun n hn hroom hnobody => ?_, fun hfull => ?_⟩
  · have hdeposits : s.offerRecord st = s.depositStation st := by
      unfold offerRecord
      rw [if_pos ⟨hroom, hnobody, by simp [hn]⟩]
    have h := s.depositStation_notices st n r c hn hr hc
    rw [hv] at h
    exact hdeposits ▸ h
  · have hwaits : s.offerRecord st = { s with store := { s.store with deposit := s.store.deposit ++ [st] } } := by
      unfold offerRecord
      rw [if_neg]
      rintro ⟨hroom, hnobody, hnumber⟩
      rcases hfull with h | h | h
      · simp [h] at hnumber
      · omega
      · exact h hnobody
    rw [hwaits]
    exact ⟨rfl, rfl⟩

/-- A test that completes with no leak phase but VENT: what its record and circuit become, and what it gives (R12, R166). -/
structure Completed (s t : State) (st : Station) (c : TestCtx) (k : Record) : Prop where
  offers : s.OffersRecord t st c k
  phase : (t.circuit st).phase = .none
  drive : t.drive[st] = Drive.off
  given : ∀ n, s.store.next = some n → s.store.records.length < 48 → s.store.deposit = [] →
    ([NoticeBody.nst st .done c.cause (some (k.compose, n))].foldl State.giveNotice s).SameNotices t
  nothing : s.store.next = none ∨ 48 ≤ s.store.records.length ∨ s.store.deposit ≠ [] → s.SameNotices t

theorem complete_completed (hphase : (s.circuit st).phase = .none ∨ (s.circuit st).phase = .vent)
    (hc : (s.ctx st).test = some c) (hr : (s.ctx st).record = some r) :
    s.Completed ((s.enterCompleting st).offerRecord st) st c (s.closedRecord r) := by
  obtain ⟨hrest, hrecord⟩ := enterCompleting_rested hphase hr
  have htest : ((s.enterCompleting st).ctx st).test = some c := by
    simpa [ctx, enterCompleting, closeRecord] using hc
  have hstate : (s.enterCompleting st).stateOf st = .completing := by simp [stateOf, enterCompleting]
  have hstore : (s.enterCompleting st).store = s.store := by simp
  have hsame : s.SameNotices (s.enterCompleting st) := ⟨by simp, by simp⟩
  obtain ⟨hgiven, hnothing⟩ := offerRecord_notices htest hrecord rfl
  rw [hstore] at hgiven hnothing
  refine ⟨?_, ?_, ?_, fun n hn hroom hnobody => (hsame.give _).trans (hgiven n hn hroom hnobody),
    fun hfull => hsame.trans (hnothing hfull)⟩
  · refine ((s.enterCompleting st).offerRecord_offers st c _ hstate htest hrecord rfl).before hstore (by simp) ?_ ?_ fun j hj => ?_
    · simp [enterCompleting, closeRecord]
    · simpa [enterCompleting, closeRecord] using s.leakClose_live_stations st
    · exact ⟨by simp [hj.symm], by simp [hj.symm]⟩
  · have : ((s.enterCompleting st).offerRecord st).leak = (s.enterCompleting st).leak := by simp
    simpa only [circuit, this] using hrest
  · exact (s.complete_entersCompleting st).drive

/-- Seen from before a change of the station's own drive, record and Monitor. -/
theorem Completed.before {k : Record} (h : t.Completed u st c k) (store : t.store = s.store) (table : t.table = s.table)
    (slot : t.seq[st.val].privateSlot = s.seq[st.val].privateSlot)
    (stations : t.counters.live.stations = s.counters.live.stations) (others : s.OthersKept t st) (same : s.SameNotices t) :
    s.Completed u st c k where
  offers := h.offers.before store table slot stations others
  phase := h.phase
  drive := h.drive
  given n hn hroom hnobody := (same.give _).trans (h.given n (store ▸ hn) (store ▸ hroom) (store ▸ hnobody))
  nothing hfull := same.trans (h.nothing (store ▸ hfull))

/-- The entry to COMPLETING seen from before a change of the station's own drive. -/
theorem EntersCompleting.after_drive {f : Drive → Drive} (h : (s.modDrive st f).EntersCompleting t st) :
    s.EntersCompleting t st where
  state := h.state
  step := h.step
  drive := h.drive
  changed := h.changed
  others j hj := by
    have := h.others j hj
    simpa [Ne.symm hj] using this
  line := ⟨h.line.clock, h.line.pins, h.line.config, h.line.enc, h.line.cond⟩
  monitor := h.monitor
  filed c r hc hr := by
    obtain ⟨k, hk, hoffers⟩ := h.filed c r hc hr
    exact ⟨k, hk, hoffers.before (s := s) (t := s.modDrive st f) rfl rfl rfl rfl fun j hj => ⟨rfl, by simp [Ne.symm hj]⟩⟩

/-- The stop timeout (R11, R72). -/
theorem stopTimeout_completed (hphase : (s.circuit st).phase = .none ∨ (s.circuit st).phase = .vent)
    (hc : (s.ctx st).test = some c) (hr : (s.ctx st).record = some r) :
    s.EntersCompleting (s.stopTimeout st) st
      ∧ s.Completed (s.stopTimeout st) st c (s.closedRecord (r.addRemark .stopTimeout)) := by
  have hquiet := remark_quiet (s.modDrive st (fun _ => Drive.off)) st .stopTimeout
  have hr' : (((s.modDrive st (fun _ => Drive.off)).remark st .stopTimeout).ctx st).record =
      some (r.addRemark .stopTimeout) := by
    simp only [ctx, Fin.getElem_fin] at hr
    simp [State.remark, hr]
  refine ⟨((complete_entersCompleting _ st).after hquiet rfl).after_drive, ?_⟩
  refine (complete_completed (c := c) (s := (s.modDrive st (fun _ => Drive.off)).remark st .stopTimeout) hphase ?_ hr').before
    rfl rfl ?_ rfl (fun j hj => ?_) ⟨rfl, rfl⟩
  · simpa [ctx] using hc
  · simp
  · simp [Ne.symm hj]

/-- The twentieth SPEED sample in a row that counts toward the standstill (R11, R71). -/
theorem stoppingSample_completed (hphase : (s.circuit st).phase = .none ∨ (s.circuit st).phase = .vent)
    (hc : (s.ctx st).test = some c) (hr : (s.ctx st).record = some r) (hset : s.drive[st].setpoint = 0)
    (hstands : s.atStandstill st = true) (hcount : s.drive[st].standstill = 19) :
    s.EntersCompleting (s.stoppingSample st) st ∧ s.Completed (s.stoppingSample st) st c (s.closedRecord r) := by
  have hends : s.stoppingSample st =
      (((s.modDrive st (fun d => { d with standstill := d.standstill + 1 })).enterCompleting st).offerRecord st) := by
    unfold stoppingSample
    rw [if_pos ⟨hset, hstands⟩]
    simp only [Fin.getElem_fin] at hcount
    exact if_pos (by simp [hcount])
  rw [hends]
  refine ⟨(complete_entersCompleting _ st).after_drive, ?_⟩
  exact (complete_completed (c := c) (s := s.modDrive st (fun d => { d with standstill := d.standstill + 1 })) hphase hc hr).before
    rfl rfl rfl rfl (fun j hj => by simp [Ne.symm hj]) ⟨rfl, rfl⟩

/-- What an event that completes a test leaves. -/
theorem Completed.ends {k : Record} (h : s.Completed t st c k) :
    s.OffersRecord (s.afterNotices t) st c k ∧ ((s.afterNotices t).circuit st).phase = .none
      ∧ (s.afterNotices t).drive[st] = Drive.off
      ∧ (∀ n, s.store.next = some n → s.store.records.length < 48 → s.store.deposit = [] →
          s.GivesNotices (s.afterNotices t) [.nst st .done c.cause (some (k.compose, n))])
      ∧ (s.store.next = none ∨ 48 ≤ s.store.records.length ∨ s.store.deposit ≠ [] → s.GivesNotices (s.afterNotices t) []) := by
  refine ⟨h.offers.link (afterNotices_only_link s t), ?_, ?_, fun n hn hroom hnobody => (h.given n hn hroom hnobody).gives,
    fun hfull => SameNotices.gives (bs := []) (h.nothing hfull)⟩
  · simpa [circuit] using h.phase
  · simpa using h.drive

end State

/-- Settles O28. -/
theorem stoppingEndsAtStandstillOrTimeout : Obligations.StoppingEndsAtStandstillOrTimeout := by
  intro st c r s hstopping hc hr hphase
  refine ⟨fun since hsince helapsed => ?_, fun fault hset hcount hl hstands => ?_⟩
  · have hdue : s.stopTimeoutDue st = true := by
      unfold State.stopTimeoutDue
      rw [hstopping, hsince]
      simpa using helapsed
    obtain ⟨henters, hcompleted⟩ := State.stopTimeout_completed hphase hc hr
    exact ⟨_, (exec_stopTimeout s st).trans (eventWhen_taken _ _ s hdue), henters.link (State.afterNotices_only_link s _),
      hcompleted.ends⟩
  · have hmon := State.takeSample_onlyMon (y := .speed st fault) rfl hl
    have hsample : s.sample (.speed st fault) = (s.takeSample (.speed st fault)).stoppingSample st := by
      unfold State.sample State.readSample
      simp only [SensorInput.target, hmon.stateOf, hstopping, if_true]
    have hdue : s.standstillConfirmedDue st fault = true := by
      unfold State.standstillConfirmedDue
      simp only [hmon.stateOf, hmon.drive, hstopping, hset, hstands, hcount]
      rfl
    rw [exec_standstillConfirmed, exec_monitorSample, eventWhen_taken _ _ s hdue]
    have hctx := hmon.ctx st
    obtain ⟨henters, hcompleted⟩ := State.stoppingSample_completed (s := s.takeSample (.speed st fault))
      (by rwa [hmon.circuit]) (by rwa [hctx]) (by rwa [hctx]) (by rwa [hmon.drive]) hstands (by rwa [hmon.drive])
    rw [← hsample] at henters hcompleted
    have hbefore := hcompleted.before hmon.store hmon.table (by rw [hmon.seq]) (by rw [hmon.counters])
      (State.OthersKept.of_eq st hmon.seq hmon.drive) hmon.sameNotices
    rw [State.closedRecord, hmon.now] at hbefore
    exact ⟨_, rfl, rfl, henters.link (State.afterNotices_only_link s _), hbefore.ends⟩

end Sys2Proof.Machine
end

section
/-! PROOFS. The LEAK step (R122 to R140): the step's return, a decided result and the VENT it leads to, the leak timers. -/

namespace Sys2Proof.Machine

open Sys2Proof

set_option Elab.async false

namespace State

variable {s t u : State} {st : Station} {x : StepCtx} {r : Record} {res : LeakResult}

/-! ### The step returned to the Sequencer (R67, R140) -/

theorem leakRest_quiet (s : State) (st : Station) : s.Quiet (s.leakRest st) st :=
  ⟨rfl, rfl, rfl, rfl, rfl, rfl, rfl, rfl, rfl, rfl, fun _ _ => rfl, rfl, rfl, rfl, rfl, rfl, rfl, rfl⟩

/-- The end of a step with a next one leaves leak results, and leak circuits unless the next is a LEAK step (R52). -/
theorem endStep_leaks (o : StepOutcome) (hx : (s.ctx st).step = some x) {spec : StepSpec} (hnext : s.nextIs st x.index spec) :
    ((s.endStep st o).ctx st).record.map Record.leaks = (s.ctx st).record.map Record.leaks
      ∧ (spec ≠ .leak → (s.endStep st o).leak = s.leak) := by
  have hnext' : (s.finishStep st o none).nextIs st x.index spec := by
    unfold nextIs at *
    rwa [recipe_of_test (s := s) (by simp)]
  rw [endStep_eq _ _ _ _ hx, nextStep_begins _ _ _ _ hnext', finishStep_eq _ _ _ _ _ hx]
  refine ⟨by simp [Function.comp_def], fun hspec => ?_⟩
  rw [beginStep_leak_of_ne _ _ _ hspec]
  simp

/-- A LEAK step returned by the Leak Tester ends DONE, and the next begins (R67, R140). -/
theorem RunsStep.returnLeak (h : s.RunsStep st x r) (hspec : x.spec = .leak) {spec : StepSpec}
    (hnext : s.nextIs st x.index spec) :
    s.StepsOn (s.returnLeak st) st ⟨x.index, .leak, .done, none⟩ spec
      ∧ ((s.returnLeak st).ctx st).record.map Record.leaks = some r.leaks
      ∧ (spec ≠ .leak → (s.returnLeak st).circuit st = .rest) ∧ (s.returnLeak st).link = s.link := by
  have hends : s.returnLeak st = (s.leakRest st).endStep st .done := if_pos h.running
  have hruns : (s.leakRest st).RunsStep st x r := ⟨h.running, h.step, h.record⟩
  have hnext' : (s.leakRest st).nextIs st x.index spec := hnext
  obtain ⟨hon, -, hlink⟩ := hruns.endStep_done hnext'
  obtain ⟨hleaks, hleak⟩ := endStep_leaks .done hruns.step hnext'
  rw [hspec] at hon
  rw [hends]
  refine ⟨hon.after (leakRest_quiet s st) rfl, ?_, fun hne => ?_, hlink⟩
  · rw [hleaks, hruns.record]
    rfl
  · rw [circuit, hleak hne]
    simp [leakRest]

/-! ### A decided result (R139) -/

theorem decideLeak_record (hr : (s.ctx st).record = some r) (res : LeakResult) :
    ((s.decideLeak st res).ctx st).record = some { r with leaks := r.leaks ++ [res] } := by
  simp only [ctx, Fin.getElem_fin] at hr
  unfold decideLeak
  dsimp only
  split <;> simp [addLeakResult, hr]

theorem RunsStep.decideLeak (h : s.RunsStep st x r) (res : LeakResult) :
    (s.decideLeak st res).RunsStep st x { r with leaks := r.leaks ++ [res] } :=
  ⟨(decideLeak_quiet s st res).state.trans h.running, by simpa [ctx] using h.step, decideLeak_record h.record res⟩

/-- FAIL_FILL and FAIL_GROSS count a fill fault (R130, R132). -/
theorem decideLeak_fillFaults (s : State) (st : Station) (res : LeakResult) :
    (s.decideLeak st res).counters.live.stations[st].fillFaults =
      if res.outcome = .failFill ∨ res.outcome = .failGross then min (s.counters.live.stations[st].fillFaults + 1) 65535
      else s.counters.live.stations[st].fillFaults := by
  unfold decideLeak
  dsimp only
  split <;> rename_i h <;> simp [h, satAdd]

/-- The state of a station whose result is decided, gone to VENT (R129, R139, R140). -/
def vented (s : State) (st : Station) (res : LeakResult) : State := (s.decideLeak st res).ventAfter st

theorem vented_quiet (s : State) (st : Station) (res : LeakResult) : s.Quiet (s.vented st res) st := by
  unfold vented
  constructor
  case others => intro j hj; simp [hj.symm]
  all_goals simp

theorem RunsStep.vented (h : s.RunsStep st x r) (res : LeakResult) :
    (s.vented st res).RunsStep st x { r with leaks := r.leaks ++ [res] } := by
  obtain ⟨hrunning, hstep, hrecord⟩ := h.decideLeak res
  have hseq : (s.vented st res).seq = (s.decideLeak st res).seq := ventAfter_seq ..
  refine ⟨?_, ?_, ?_⟩
  · rwa [stateOf, hseq]
  · rwa [ctx, hseq]
  · rwa [ctx, hseq]

/-- What a decided result leaves of its station and enters in its record (R139). -/
theorem vented_kept (hr : (s.ctx st).record = some r) (res : LeakResult) :
    ((s.vented st res).ctx st).record = some { r with leaks := r.leaks ++ [res] }
      ∧ (s.vented st res).stateOf st = s.stateOf st ∧ ((s.vented st res).ctx st).step = (s.ctx st).step
      ∧ (s.vented st res).link = s.link ∧ (s.vented st res).counters.live.stations[st].fillFaults =
        (if res.outcome = .failFill ∨ res.outcome = .failGross then min (s.counters.live.stations[st].fillFaults + 1) 65535
          else s.counters.live.stations[st].fillFaults) := by
  have hseq : (s.vented st res).seq = (s.decideLeak st res).seq := ventAfter_seq ..
  have hrecord := decideLeak_record hr res
  refine ⟨?_, (s.vented_quiet st res).state, ?_, by simp [vented], ?_⟩
  · rwa [ctx, hseq]
  · simp [ctx, hseq]
  · rw [← decideLeak_fillFaults]
    simp [vented]

/-- A decided step is in VENT with its valves, its grant given up (R123, R129, R140). -/
theorem vented_circuit (hplace : s.leak.grant ≠ some st ∨ st ∉ s.leak.queue) (res : LeakResult) :
    ((s.vented st res).circuit st).phase = .vent ∧ ((s.vented st res).circuit st).fillOpen = false
      ∧ ((s.vented st res).circuit st).ventOpen = true ∧ ((s.vented st res).circuit st).phaseStart = some s.now
      ∧ (s.vented st res).leak.grant ≠ some st ∧ (st ∉ s.leak.queue → st ∉ (s.vented st res).leak.queue) := by
  have hnow : (s.decideLeak st res).now = s.now := by simp [now]
  have hentered : (s.vented st res).leak.circuits[st.val] = ((s.decideLeak st res).leak.circuits[st.val]).enter .vent s.now
      ∧ (s.vented st res).leak.grant ≠ some st ∧ (st ∉ s.leak.queue → st ∉ (s.vented st res).leak.queue) := by
    rcases hplace with hgrant | hqueue
    · have hself : s.vented st res = (s.decideLeak st res).enterPhase st .vent := by
        unfold vented ventAfter releaseGrant
        exact if_neg (by simpa [enterPhase] using hgrant)
      rw [hself, ← hnow]
      exact ⟨by simp [enterPhase], by simpa [enterPhase] using hgrant, fun h => by simpa [enterPhase] using h⟩
    · obtain ⟨hgrant', hqueue', hcircuit⟩ := (s.decideLeak st res).ventAfter_givenUp st (by simpa using hqueue)
      rw [hnow] at hcircuit
      exact ⟨hcircuit, hgrant', fun _ => hqueue'⟩
  obtain ⟨hcircuit, hgrant, hqueue⟩ := hentered
  simp only [circuit, Fin.getElem_fin, hcircuit]
  exact ⟨rfl, rfl, rfl, rfl, hgrant, hqueue⟩

/-- A decided result of a station that is not to be stopped (R7, R139). -/
theorem decideAndVent_vented (h : ¬(res.outcome.failed = true ∧ s.stateOf st = .running ∧ s.stopOnFail st = true)) :
    s.decideAndVent st res = s.vented st res := by
  have hquiet := s.vented_quiet st res
  unfold decideAndVent failedOutcome
  dsimp only
  change (if res.outcome.failed = true then if (s.vented st res).stateOf st = .running ∧ (s.vented st res).stopOnFail st = true
    then (s.vented st res).enterStopping st none false else s.vented st res else s.vented st res) = s.vented st res
  rw [hquiet.stopOnFail, show (s.vented st res).stateOf st = s.stateOf st from hquiet.state]
  split
  · rename_i hfailed
    exact if_neg fun hstops => h ⟨hfailed, hstops⟩
  · rfl

/-- A failed result under stop-on-fail stops the test (R7, R139). -/
theorem decideAndVent_stops (hfailed : res.outcome.failed = true) (hrunning : s.stateOf st = .running)
    (hstops : s.stopOnFail st = true) : s.decideAndVent st res = (s.vented st res).enterStopping st none false := by
  have hquiet := s.vented_quiet st res
  unfold decideAndVent failedOutcome
  rw [if_pos hfailed]
  exact if_pos ⟨hquiet.state.trans hrunning, hquiet.stopOnFail.trans hstops⟩

/-- The entry to STOPPING seen from before a change within the test, with what it leaves of the supply said anew. -/
theorem EntersStopping.after_leak {cause : Option AbortCause} {drop : Bool} (h : t.EntersStopping u st cause drop)
    (q : s.Quiet t st) (held : ∀ e, s.heldEngine st = some e → t.heldEngine st = some e ∨ (u.engine e).holder ≠ some st)
    (supply : (s.leak.grant = some st → (s.circuit st).phase = .fill) →
      (st ∈ s.leak.queue → (s.circuit st).phase = .waitSupply) →
      u.leak.grant ≠ some st ∧ st ∉ u.leak.queue
      ∧ (u.circuit st).phase = (match (s.circuit st).phase with
        | .none | .standstillWait | .waitSupply => .none
        | .fill | .settle | .measure | .vent => .vent)
      ∧ ((s.circuit st).phase ≠ .none → (s.circuit st).phase ≠ .vent →
          (u.circuit st).fillOpen = false ∧ (u.circuit st).ventOpen = true)) : s.EntersStopping u st cause drop :=
  { h with
    start := h.start.trans (by simp only [now]; rw [q.clock])
    test := h.test.trans (by simp only [ctx, Fin.getElem_fin]; rw [q.test])
    cause := h.cause.trans (map_const_of_map q.cause _)
    drive := h.drive.trans (by rw [q.drive, q.config])
    others := q.othersKept.trans h.others
    line := q.sameLine.trans h.line
    store := h.store.trans q.store
    table := h.table.trans q.table
    monitor := h.monitor.trans q.mon
    engine := fun e he hu => (held e he).elim (fun ht => h.engine e ht hu) (fun hn => absurd hu hn)
    supply := supply }

/-- The stop of a test whose step has gone to VENT: the VENT goes on (R7). -/
theorem vented_stops (hr : (s.ctx st).record = some r) (hplace : s.leak.grant ≠ some st ∨ st ∉ s.leak.queue)
    (res : LeakResult) (cause : Option AbortCause) :
    let t := (s.vented st res).enterStopping st cause false
    t.leak = (s.vented st res).leak ∧ (t.ctx st).record.map Record.leaks = some (r.leaks ++ [res])
      ∧ (cause = none → t.link = s.link) ∧ (LeakPhase.measuring (s.circuit st).phase → s.EntersStopping t st cause false) := by
  obtain ⟨hphase, hfill, hvent, hstart, hgrant, hqueue⟩ := vented_circuit hplace res
  have hleak : ((s.vented st res).enterStopping st cause false).leak = (s.vented st res).leak := by
    rw [enterStopping_leak]
    unfold leakExit
    rw [show ((s.vented st res).leaveRunning st).circuit st = (s.vented st res).circuit st by simp [circuit], hphase]
    exact leaveRunning_leak ..
  have hleaks : (((s.vented st res).leaveRunning st).ctx st).record.map Record.leaks = some (r.leaks ++ [res]) := by
    have hdecided := congrArg (Option.map Record.leaks) (decideLeak_record hr res)
    have hseq : (s.vented st res).seq = (s.decideLeak st res).seq := ventAfter_seq ..
    simp only [ctx, Fin.getElem_fin, Option.map_some] at hdecided
    simp [hseq, hdecided]
  obtain ⟨k, hk, hkleaks⟩ := Option.map_eq_some_iff.mp hleaks
  have hrecord := enterStopping_record hk cause false
  have hstopping := (s.vented st res).enterStopping_entersStopping st cause false
  have hlink : cause = none → ((s.vented st res).enterStopping st cause false).link = s.link := by
    rintro rfl
    exact ((s.vented st res).enterStopping_link st false).trans (by simp [vented])
  generalize (s.vented st res).enterStopping st cause false = t at *
  refine ⟨hleak, ?_, hlink, fun hmeasuring => ?_⟩
  · rw [hrecord, hphase]
    exact congrArg some ((List.append_nil _).trans hkleaks)
  · refine hstopping.after_leak (s.vented_quiet st res) (fun e he => .inl (by simpa [heldEngine, vented] using he)) fun _ hq => ?_
    have hout : st ∉ s.leak.queue := fun hmem => by
      have hwait := hq hmem
      rcases hmeasuring with hm | hm | hm <;> exact absurd (hm.symm.trans hwait) nofun
    simp only [circuit, hleak] at hphase hfill hvent hmeasuring ⊢
    refine ⟨hgrant, hqueue hout, ?_, fun _ _ => ⟨hfill, hvent⟩⟩
    rw [hphase]
    rcases hmeasuring with hm | hm | hm <;> rw [hm]

/-- The step stopped in VENT is DONE (R54). -/
theorem RunsStep.vented_entries (h : s.RunsStep st x r) (hspec : x.spec = .leak)
    (hplace : s.leak.grant ≠ some st ∨ st ∉ s.leak.queue) (res : LeakResult) (cause : Option AbortCause) :
    ((s.vented st res).enterStopping st cause false).stepEntries st = some (r.steps ++ [⟨x.index, .leak, .done, none⟩]) := by
  have hrecord := enterStopping_record (leaveRunning_record (h.vented res).step (h.vented res).record) cause false
  have hentry : (s.vented st res).exitEntry st x = ⟨x.index, .leak, .done, none⟩ :=
    if_pos ⟨hspec, (vented_circuit hplace res).1⟩
  rw [hentry] at hrecord
  rw [stepEntries, hrecord]
  exact congrArg some (settledRecord_steps ..)

/-- The entry to STOPPING counts nothing for a station. -/
theorem enterStopping_live_stations (cause : Option AbortCause) (drop : Bool) :
    (s.enterStopping st cause drop).counters.live.stations = s.counters.live.stations := by
  have hleak : ∀ w : State, (w.leakExit st).counters.live.stations = w.counters.live.stations := fun w => by
    unfold leakExit
    dsimp only
    split <;> simp [decideLeak, LeakResult.stopped, leakRest]
  have hexit := (hleak (s.leaveRunning st)).trans (leaveRunning_live_stations s st)
  unfold enterStopping
  dsimp only
  (repeat' split) <;> simpa using hexit

/-- A leak phase has lasted its time. -/
theorem phaseExpired_of {p : LeakPhase} {since : LineTime} {ms : Nat} (hphase : (s.circuit st).phase = p)
    (hstart : (s.circuit st).phaseStart = some since) (helapsed : ms ≤ elapsed since s.now) : s.phaseExpired st p ms = true := by
  unfold phaseExpired
  rw [hphase, hstart]
  simpa using helapsed

/-- The fill is within its band (R130). -/
theorem fillExpiry_settles {l : LeakSpec} (hl : s.leakSpec st = some l) (hgrant : s.leak.grant = some st)
    (hqueue : st ∉ s.leak.queue)
    (hlow : ¬((s.quantity st .leakPress).held < (l.testPressure : Int) - l.fillTolerance))
    (hhigh : ¬((s.quantity st .leakPress).held > (l.testPressure : Int) + l.fillTolerance)) :
    let t := s.fillExpiry st
    (t.circuit st).phase = .settle ∧ (t.circuit st).settleStart = some s.now ∧ (t.circuit st).ventOpen = false
      ∧ (t.circuit st).fillOpen = false ∧ (t.circuit st).phaseStart = some s.now ∧ t.leak.grant ≠ some st
      ∧ t.seq = s.seq ∧ t.drive = s.drive ∧ t.mon = s.mon ∧ t.link = s.link
      ∧ t.counters.live.stations = s.counters.live.stations := by
  have hends : s.fillExpiry st = (s.enterPhase st .settle).releaseGrant st := by
    unfold fillExpiry
    rw [hl]
    exact (if_neg hlow).trans (if_neg hhigh)
  have hreleases : (s.enterPhase st .settle).releaseGrant st =
      ({ s.enterPhase st .settle with leak := { (s.enterPhase st .settle).leak with grant := none } } : State).examineSupply :=
    if_pos hgrant
  obtain ⟨-, hgrant', hcircuit⟩ := examineSupply_other
    ({ s.enterPhase st .settle with leak := { (s.enterPhase st .settle).leak with grant := none } }) st hqueue
  have hentered : (s.fillExpiry st).leak.circuits[st.val] = (s.leak.circuits[st.val]).enter .settle s.now := by
    rw [hends, hreleases, hcircuit]
    simp [enterPhase]
  simp only [circuit, Fin.getElem_fin, hentered]
  refine ⟨rfl, rfl, rfl, rfl, rfl, ?_, ?_, ?_, ?_, ?_, ?_⟩
  · rw [hends, hreleases]
    exact hgrant' nofun
  all_goals
    rw [hends]
    simp [enterPhase]

end State

/-- Settles O40. -/
theorem leakTimersMoveThePhase : Obligations.LeakTimersMoveThePhase := by
  refine ⟨fun st x r spec since s hruns hspec hnext hstart => ⟨fun hphase helapsed => ?_, fun l hl hphase helapsed => ?_⟩,
    fun st l since s hl hstart => ⟨fun hphase helapsed => ?_, fun hphase hstopping helapsed => ?_⟩,
    fun st l since r s hl hphase hstart helapsed hgrant hqueue hr => ?_⟩
  · have hdue : s.standstillExpiryDue st = true := State.phaseExpired_of hphase hstart helapsed
    have hquiet := State.decideLeak_quiet s st (.stopped .notStandstill)
    have hnext' : (s.decideLeak st (.stopped .notStandstill)).nextIs st x.index spec := by
      unfold State.nextIs at *
      rwa [State.recipe_of_test (s := s) hquiet.test]
    obtain ⟨hon, hleaks, hrest, hlink⟩ := (hruns.decideLeak (.stopped .notStandstill)).returnLeak hspec hnext'
    refine ⟨_, (exec_standstillTimerExpiry s st).trans (State.eventWhen_sameLink hdue (hlink.trans (by simp))),
      hon.after hquiet ?_, hleaks, hrest⟩
    rw [State.stepEntries, State.decideLeak_record hruns.record, State.stepEntries, hruns.record]
    rfl
  · have hdue : s.ventExpiryDue st = true := by
      unfold State.ventExpiryDue
      rw [hl]
      exact State.phaseExpired_of hphase hstart helapsed
    obtain ⟨hon, hleaks, hrest, hlink⟩ := hruns.returnLeak hspec hnext
    exact ⟨_, (exec_ventTimerExpiry s st).trans (State.eventWhen_sameLink hdue hlink), hon, hleaks, hrest⟩
  · have hdue : s.settleExpiryDue st = true := by
      unfold State.settleExpiryDue
      rw [hl]
      exact State.phaseExpired_of hphase hstart helapsed
    exact (exec_settleTimerExpiry s st).trans (State.eventWhen_sameLink hdue rfl)
  · have hdue : s.ventExpiryDue st = true := by
      unfold State.ventExpiryDue
      rw [hl]
      exact State.phaseExpired_of hphase hstart helapsed
    have hends : s.returnLeak st = s.leakRest st := if_neg fun h : s.stateOf st = .running =>
      absurd (hstopping.symm.trans h) nofun
    rw [exec_ventTimerExpiry, State.eventWhen_sameLink hdue (by rw [hends]; rfl), hends]
    rfl
  · have hdue : s.fillExpiryDue st = true := by
      unfold State.fillExpiryDue
      rw [hl]
      exact State.phaseExpired_of hphase hstart helapsed
    rw [exec_fillTimerExpiry]
    by_cases hlow : (s.quantity st .leakPress).held < (l.testPressure : Int) - l.fillTolerance
    · have hdecides : s.fillExpiry st = s.decideAndVent st ⟨.failFill, none, none⟩ := by
        unfold State.fillExpiry
        rw [hl]
        exact if_pos hlow
      obtain ⟨hvent, hfill, hopen, hentered, hgrant', -⟩ := State.vented_circuit (.inr hqueue) ⟨.failFill, none, none⟩
      have hfaults := (s.decideLeak_fillFaults st ⟨.failFill, none, none⟩).trans (if_pos (.inl rfl))
      by_cases hstops : s.stateOf st = .running ∧ s.stopOnFail st = true
      · have hend := hdecides.trans (State.decideAndVent_stops rfl hstops.1 hstops.2)
        obtain ⟨hleak, hleaks, hlink, hstopping⟩ := State.vented_stops hr (.inr hqueue) ⟨.failFill, none, none⟩ none
        replace hlink := hlink rfl
        have henters := hstopping (.inl hphase)
        have hentries := fun x (hruns : s.RunsStep st x r) (hspec : x.spec = .leak) =>
          hruns.vented_entries hspec (.inr hqueue) ⟨.failFill, none, none⟩ none
        have hcounted := State.enterStopping_live_stations (s := s.vented st ⟨.failFill, none, none⟩) (st := st) none false
        generalize (s.vented st ⟨.failFill, none, none⟩).enterStopping st none false = t at *
        simp only [State.circuit, ← hleak] at hvent hfill hopen hentered
        refine ⟨t, by rw [State.eventWhen_sameLink hdue (by rw [hend, hlink]), hend], hfill, by rwa [hleak], hentered,
          henters.others, henters.monitor, ?_, fun hno => absurd ⟨hlow, hstops.2, hstops.1⟩ hno,
          fun x _ _ hruns hspec => ⟨henters, hlink, hentries x hruns hspec⟩⟩
        rw [if_pos hlow]
        refine ⟨⟨hvent, hopen, hleaks, fun hno => absurd ⟨hlow, hstops.2, hstops.1⟩ hno⟩, ?_⟩
        rw [hcounted, ← hfaults]
        simp [State.vented]
      · have hend := hdecides.trans (State.decideAndVent_vented fun h => hstops h.2)
        obtain ⟨hrecord, hstate, hstep, hlink, hfaults⟩ := State.vented_kept hr ⟨.failFill, none, none⟩
        have hquiet := s.vented_quiet st ⟨.failFill, none, none⟩
        generalize s.vented st ⟨.failFill, none, none⟩ = t at *
        refine ⟨t, by rw [State.eventWhen_sameLink hdue (by rw [hend, hlink]), hend], hfill, hgrant', hentered,
          hquiet.othersKept, hquiet.mon, ?_, fun _ => ⟨hstate, hstep⟩, fun x _ hstop hruns _ => absurd ⟨hruns.running, hstop⟩ hstops⟩
        rw [if_pos hlow, hrecord]
        exact ⟨⟨hvent, hopen, rfl, fun _ => rfl⟩, hfaults⟩
    · by_cases hhigh : (s.quantity st .leakPress).held > (l.testPressure : Int) + l.fillTolerance
      · have hend : s.fillExpiry st = s.vented st ⟨.incomplete, some .overpressure, none⟩ := by
          refine Eq.trans ?_ (State.decideAndVent_vented fun h => Bool.false_ne_true h.1)
          unfold State.fillExpiry
          rw [hl]
          exact (if_neg hlow).trans (if_pos hhigh)
        obtain ⟨hvent, hfill, hopen, hentered, hgrant', -⟩ :=
          State.vented_circuit (.inr hqueue) ⟨.incomplete, some .overpressure, none⟩
        obtain ⟨hrecord, hstate, hstep, hlink, hfaults⟩ := State.vented_kept hr ⟨.incomplete, some .overpressure, none⟩
        have hquiet := s.vented_quiet st ⟨.incomplete, some .overpressure, none⟩
        generalize s.vented st ⟨.incomplete, some .overpressure, none⟩ = t at *
        refine ⟨t, by rw [State.eventWhen_sameLink hdue (by rw [hend, hlink]), hend], hfill, hgrant', hentered,
          hquiet.othersKept, hquiet.mon, ?_, fun _ => ⟨hstate, hstep⟩, fun x h => absurd h hlow⟩
        rw [if_neg hlow, if_pos hhigh, hrecord]
        exact ⟨⟨hvent, hopen, rfl, fun _ => rfl⟩, hfaults⟩
      · obtain ⟨hsettle, hstarted, hvent, hfill, hentered, hgrant', hseq, hdrive, hmon, hlink, hcounted⟩ :=
          State.fillExpiry_settles hl hgrant hqueue hlow hhigh
        have hexec : eventWhen (fun s => s.fillExpiryDue st) (fun s => s.fillExpiry st) s = .next (s.fillExpiry st) :=
          State.eventWhen_sameLink hdue hlink
        generalize s.fillExpiry st = t at *
        refine ⟨t, hexec, hfill, hgrant', hentered,
          State.OthersKept.of_eq st hseq hdrive, hmon, ?_, fun _ => ?_, fun x h => absurd h hlow⟩
        · rw [if_neg hlow, if_neg hhigh, hcounted]
          exact ⟨hsettle, hstarted, hvent, by rwa [State.ctx, hseq], rfl⟩
        · exact ⟨by rw [State.stateOf, hseq], by rw [State.ctx, hseq]⟩

end Sys2Proof.Machine
end

section
/-! PROOFS. What samples do to a LEAK step (R125, R131 to R138). -/

namespace Sys2Proof.Machine

open Sys2Proof

set_option Elab.async false

/-- The figures of a measurement written out (R135 to R137). -/
theorem leakFigures_eq (l : LeakSpec) (patm : Nat) (pStart pEnd tStart tEnd : Int) :
    let p1 := roundDiv pStart 16
    let p2 := roundDiv pEnd 16
    let t1 := roundDiv tStart 16
    let t2 := roundDiv tEnd 16
    let pa2c := roundDiv ((p2 + patm) * (t1 + 27315)) (t2 + 27315).toNat
    let dp := p1 + patm - pa2c
    let dt := (l.measureTime / 10 - 16) * 10
    let q0 := roundDiv (l.volume * dp * 6000000) (101325 * dt)
    leakFigures l patm pStart pEnd tStart tEnd =
      { p1 := p1, p2 := p2, t1 := t1, t2 := t2, pa2c := pa2c, dp := dp, dt := dt
        q := max (-999999) (min 999999 q0)
        clamped := decide (q0 < -999999 ∨ 999999 < q0) } := by
  simp only [leakFigures, decay, leakRate, LeakSpec.samples, clampInt]
  congr 1
  exact (Bool.decide_or ..).symm

/-- The outcome of a measurement that fails is one for which stop-on-fail stops (R7, R138). -/
theorem leakOutcome_failed (l : LeakSpec) (q : Int) : (leakOutcome l q).failed = true ↔ leakOutcome l q ≠ .pass := by
  unfold leakOutcome
  (repeat' split) <;> simp [LeakOutcome.failed]

namespace State

variable {s t u : State} {st : Station} {x : StepCtx} {r : Record} {l : LeakSpec} {q : StQuantity} {y : SensorInput}

theorem OnlyMon.leakSpec (h : s.OnlyMon u) (st : Station) : u.leakSpec st = s.leakSpec st := by
  unfold State.leakSpec; rw [h.recipe]

/-- A pressure or temperature sample in MEASURE is counted (R133). -/
theorem leakSample_measure (hphase : (s.circuit st).phase = .measure) (hl : s.leakSpec st = some l)
    (hq : q = .leakPress ∨ q = .airTemp) : s.leakSample st q = s.measureSample st l q := by
  unfold leakSample
  rw [hphase, hl]
  rcases hq with rfl | rfl <;> rfl

/-- The circuit with a sample counted (R133). -/
def counted (s : State) (st : Station) (l : LeakSpec) (q : StQuantity) : State :=
  s.modCircuit st (fun c => c.measured l.samples q (s.quantity st q).held)

theorem measureSample_eq (s : State) (st : Station) (l : LeakSpec) (q : StQuantity) : s.measureSample st l q =
    (let c := (s.circuit st).measured l.samples q (s.quantity st q).held
     if l.samples ≤ c.pCount ∧ l.samples ≤ c.tCount then (s.counted st l q).measureEnd st l else s.counted st l q) := by
  have hcounts : (s.counted st l q).circuit st = (s.circuit st).measured l.samples q (s.quantity st q).held := by
    simp [counted, circuit]
  have hsame : s.modCircuit st (fun c => takeLeakSample c l.samples q (s.quantity st q).held) = s.counted st l q := by
    unfold counted
    simp only [takeLeakSample_measured]
  unfold measureSample
  simp only [hsame, hcounts]

theorem counted_quiet (s : State) (st : Station) (l : LeakSpec) (q : StQuantity) : s.Quiet (s.counted st l q) st :=
  ⟨rfl, rfl, rfl, rfl, rfl, rfl, rfl, rfl, rfl, rfl, fun _ _ => rfl, rfl, rfl, rfl, rfl, rfl, rfl, rfl⟩

theorem measured_phase (c : LeakCircuit) (n : Nat) (q : StQuantity) (v : Int) : (c.measured n q v).phase = c.phase := by
  cases q <;> rfl

/-- A RUNNING station's leak result decided in FILL, SETTLE or MEASURE: the step in VENT, the result in the record, and the
test stopped when the result fails under stop-on-fail (R7, R54, R139, R140). -/
structure Decides (s t : State) (st : Station) (x : StepCtx) (r : Record) (res : LeakResult) : Prop where
  phase : (t.circuit st).phase = .vent
  fill : (t.circuit st).fillOpen = false
  vent : (t.circuit st).ventOpen = true
  leaks : (t.ctx st).record.map Record.leaks = some (r.leaks ++ [res])
  link : t.link = s.link
  leak : t.leak = (s.vented st res).leak
  counted : t.counters.live.stations = (s.vented st res).counters.live.stations
  others : s.OthersKept t st
  goesOn : ¬(res.outcome.failed = true ∧ s.stopOnFail st = true) → t.stateOf st = .running ∧ (t.ctx st).step = some x
    ∧ (t.ctx st).record = some { r with leaks := r.leaks ++ [res] }
  stops : res.outcome.failed = true → s.stopOnFail st = true → s.EntersStopping t st none false
    ∧ t.stepEntries st = some (r.steps ++ [⟨x.index, .leak, .done, none⟩])

theorem RunsStep.decides (h : s.RunsStep st x r) (hspec : x.spec = .leak) (hmeasuring : LeakPhase.measuring (s.circuit st).phase)
    (hplace : s.leak.grant ≠ some st ∨ st ∉ s.leak.queue) (res : LeakResult) :
    s.Decides (s.decideAndVent st res) st x r res := by
  obtain ⟨hvent, hfill, hopen, -⟩ := vented_circuit hplace res
  by_cases hstops : res.outcome.failed = true ∧ s.stopOnFail st = true
  · rw [decideAndVent_stops hstops.1 h.running hstops.2]
    obtain ⟨hleak, hleaks, hlink, henters⟩ := vented_stops h.record hplace res none
    have hentries := h.vented_entries hspec hplace res none
    simp only [circuit, ← hleak] at hvent hfill hopen
    exact ⟨hvent, hfill, hopen, hleaks, hlink rfl, hleak, enterStopping_live_stations .., (henters hmeasuring).others, fun hno => absurd hstops hno, fun _ _ => ⟨henters hmeasuring, hentries⟩⟩
  · rw [decideAndVent_vented fun hno => hstops ⟨hno.1, hno.2.2⟩]
    obtain ⟨hrecord, hstate, hstep, hlink, -⟩ := vented_kept h.record res
    exact ⟨hvent, hfill, hopen, by rw [hrecord]; rfl, hlink, rfl, rfl, (s.vented_quiet st res).othersKept, fun _ => ⟨hstate.trans h.running, hstep.trans h.step, hrecord⟩,
      fun hf hs => absurd ⟨hf, hs⟩ hstops⟩

/-- A station without the grant goes to VENT without the supply (R129). -/
theorem vented_supply (hgrant : s.leak.grant ≠ some st) (res : LeakResult) :
    (s.vented st res).leak.grant = s.leak.grant ∧ (s.vented st res).leak.queue = s.leak.queue := by
  have hself : s.vented st res = (s.decideLeak st res).enterPhase st .vent := by
    unfold vented ventAfter releaseGrant
    exact if_neg (by simpa [enterPhase] using hgrant)
  rw [hself]
  simp [enterPhase]

/-- The entry to STOPPING seen from before a sample of MEASURE is counted. -/
theorem EntersStopping.of_counted {cause : Option AbortCause} {drop : Bool}
    (h : (s.counted st l q).EntersStopping t st cause drop) : s.EntersStopping t st cause drop := by
  refine h.after_leak (s.counted_quiet st l q) (fun e he => .inl he) fun hg hq => ?_
  have hphase : ((s.counted st l q).circuit st).phase = (s.circuit st).phase := by
    simp [counted, circuit, measured_phase]
  have hsupply := h.supply
  rw [hphase] at hsupply
  exact hsupply hg hq

end State

/-- Settles O41. -/
theorem measureEndComputesLeakRate : Obligations.MeasureEndComputesLeakRate := by
  intro st x r l y q s hruns hspec hl hy hq hphase hnone hgrant
  have hmon := State.takeSample_onlyMon hy hnone
  have hruns' := hmon.runsStep hruns
  have hsample := State.sample_running hy hruns.running hmon
  have hphase' : ((s.takeSample y).circuit st).phase = .measure := by rw [hmon.circuit, hphase]
  have hl' : (s.takeSample y).leakSpec st = some l := by rw [hmon.leakSpec, hl]
  rw [hruns'.judgeStep_leak hspec, State.leakSample_measure hphase' hl' hq, State.measureSample_eq] at hsample
  intro c p1 p2 t1 t2 pa2c dp dt q0 q1 hp ht o
  have hcounts : ((s.takeSample y).circuit st).measured l.samples q ((s.takeSample y).quantity st q).held = c := by
    rw [hmon.circuit]
    rfl
  rw [hcounts, if_pos ⟨hp, ht⟩] at hsample
  have hdue : s.measureEndDue y = true := by
    have hq' : (q == .leakPress || q == .airTemp) = true := by simpa using hq
    have htaken : State.takeLeakSample ((s.takeSample y).circuit st) l.samples q ((s.takeSample y).quantity st q).held = c := by
      rw [State.takeLeakSample_measured, hcounts]
    unfold State.measureEndDue
    simp only [hy, hruns.running, hruns'.stepIs, hspec, hphase', hl', hq', Option.any_some, htaken]
    simpa using ⟨hp, ht⟩
  rw [exec_measureEnd, exec_monitorSample]
  have hcircuit : ((s.takeSample y).counted st l q).circuit st = c := by
    rw [← hcounts]
    simp [State.counted, State.circuit]
  have hcounted := (s.takeSample y).counted_quiet st l q
  have hends : s.sample y = ((s.takeSample y).counted st l q).decideAndVent st
      ⟨o, none, some ⟨p1, p2, t1, t2, pa2c, dp, dt, q1, decide (q0 < -999999 ∨ 999999 < q0)⟩⟩ := by
    have hconfig : ((s.takeSample y).counted st l q).config = s.config := hmon.config
    rw [hsample, State.measureEnd, hcircuit, hconfig, leakFigures_eq]
    rfl
  have hstop : ((s.takeSample y).counted st l q).stopOnFail st = s.stopOnFail st :=
    hcounted.stopOnFail.trans (hmon.stopOnFail st)
  have hruns'' : ((s.takeSample y).counted st l q).RunsStep st x r := ⟨hruns'.running, hruns'.step, hruns'.record⟩
  have hgrant' : ((s.takeSample y).counted st l q).leak.grant ≠ some st := by
    simpa [State.counted, hmon.leak] using hgrant
  have hfailed : o.failed = true ↔ o ≠ .pass := leakOutcome_failed l q1
  have hmeasures : (((s.takeSample y).counted st l q).circuit st).phase = .measure := by
    rw [hcircuit, ← hcounts, State.measured_phase, hphase']
  have hdecides := hruns''.decides hspec (.inr (.inr hmeasures)) (.inl hgrant')
    ⟨o, none, some ⟨p1, p2, t1, t2, pa2c, dp, dt, q1, decide (q0 < -999999 ∨ 999999 < q0)⟩⟩
  rw [← hends] at hdecides
  have hlink : (s.sample y).link = s.link := hdecides.link.trans hmon.link
  refine ⟨_, State.eventWhen_sameLink hdue hlink, State.event_sameLink hlink, hdecides.phase, hdecides.vent, hdecides.leaks,
    fun hpass => ?_, fun hfails hstops => ?_⟩
  · obtain ⟨hrunning, hstep, hrecord⟩ := hdecides.goesOn fun hno =>
      hpass.elim (hfailed.mp hno.1) fun h => Bool.false_ne_true ((h.symm.trans hstop.symm).trans hno.2)
    exact ⟨hrunning, hstep, by rw [hrecord]; rfl⟩
  · obtain ⟨henters, hentries⟩ := hdecides.stops (hfailed.mpr hfails) (hstop.trans hstops)
    exact ⟨henters.of_counted, hlink, hentries⟩

namespace State

variable {s t u : State} {st : Station} {x : StepCtx} {r : Record} {l : LeakSpec} {q : StQuantity} {y : SensorInput}

/-- The station at the tail of the supply queue, before the grant is examined (R125, R127). -/
def waitingSupply (s : State) (st : Station) : State :=
  { s.enterPhase st .waitSupply with leak := { (s.enterPhase st .waitSupply).leak with queue := s.leak.queue ++ [st] } }

theorem standstillWaitSample_eq (hstands : s.atStandstill st = true) :
    s.standstillWaitSample st = (s.waitingSupply st).examineSupply := if_pos hstands

/-- The examination leaves a circuit, or begins its FILL at this event (R128). -/
theorem examineSupply_circuit (s : State) (st : Station) :
    s.examineSupply.circuit st = s.circuit st ∨ s.examineSupply.circuit st = (s.circuit st).enter .fill s.now := by
  unfold examineSupply
  split
  · rename_i j rest _ _ _
    by_cases hj : j = st
    · subst hj
      exact .inr (by simp [enterPhase, circuit, now])
    · exact .inl (by simp [enterPhase, circuit, hj])
  · exact .inl rfl

/-- A notice counts nothing for a station. -/
theorem giveNotices_live_stations (bs : List NoticeBody) :
    (bs.foldl State.giveNotice s).counters.live.stations = s.counters.live.stations := by
  induction bs generalizing s with
  | nil => rfl
  | cons b bs ih => exact ih.trans (giveNotice_counters_live_stations ..)

/-- The Leak Tester's part of LOST in MEASURE (R134). -/
theorem leakAlarm_lost (hq : q = .leakPress ∨ q = .airTemp) (hphase : (s.circuit st).phase = .measure) :
    s.leakAlarm st q .lost = s.vented st (.stopped .sensor) := by
  unfold leakAlarm
  rw [if_pos ⟨hq, rfl, hphase⟩]
  rfl

/-- Latches handed on in a station that is STOPPING, its step in VENT, leave leak circuits and every list of the record but
the remarks. -/
theorem foldl_handOn_venting (held : Int) (ks : List FlagKind) (hstopping : s.stateOf st = .stopping)
    (hvent : (s.circuit st).phase = .vent) : let t := ks.foldl (handOn st q held) s
    t.leak = s.leak ∧ (t.ctx st).record.map Record.leaks = (s.ctx st).record.map Record.leaks
      ∧ t.stepEntries st = s.stepEntries st := by
  induction ks generalizing s with
  | nil => exact ⟨rfl, rfl, rfl⟩
  | cons k ks ih =>
    have hone : (handOn st q held s k).leak = s.leak
        ∧ ((handOn st q held s k).ctx st).record.map Record.leaks = (s.ctx st).record.map Record.leaks
        ∧ (handOn st q held s k).stepEntries st = s.stepEntries st := by
      have hleak : (s.flagNotice (some st) (.station q) held k).leakAlarm st q k = s.flagNotice (some st) (.station q) held k := by
        unfold leakAlarm
        refine if_neg fun h => ?_
        have hmeasures : (s.circuit st).phase = .measure := by simpa [circuit] using h.2.2
        exact absurd (hvent.symm.trans hmeasures) nofun
      have hremark : ∀ m, ((s.flagNotice (some st) (.station q) held k).remark st m).leak = s.leak
          ∧ (((s.flagNotice (some st) (.station q) held k).remark st m).ctx st).record.map Record.leaks =
            (s.ctx st).record.map Record.leaks
          ∧ ((s.flagNotice (some st) (.station q) held k).remark st m).stepEntries st = s.stepEntries st := fun m =>
        ⟨by simp, by simp [Function.comp_def], by simp [stepEntries, Function.comp_def]⟩
      have hstate : (s.flagNotice (some st) (.station q) held k).stateOf st = .stopping := by
        simpa [stateOf] using hstopping
      unfold handOn
      simp only [hleak]
      split
      · unfold alarm
        rw [hstate]
        exact hremark _
      · unfold warn
        rw [hstate]
        exact hremark _
    have hstate := (handOn_latches (q := q) held k fun h => absurd (hstopping.symm.trans h) nofun).quiet.state.trans hstopping
    obtain ⟨hleak, hleaks, hentries⟩ := ih (s := handOn st q held s k) hstate (by rw [circuit, hone.1]; exact hvent)
    exact ⟨hleak.trans hone.1, hleaks.trans hone.2.1, hentries.trans hone.2.2⟩

/-- LOST the first to latch in MEASURE: the Leak Tester decides SENSOR before the alarm stops the test (R134). -/
theorem takeSample_lost (hruns : s.RunsStep st x r) (hphase : (s.circuit st).phase = .measure)
    (hy : y.target = some (st, q)) (hq : q = .leakPress ∨ q = .airTemp) {rest : List FlagKind}
    (hlatches : s.latchedBy y st q = .lost :: rest) :
    ∃ f : State, f.RunsStep st x r ∧ f.leak = s.leak ∧ s.takeSample y = rest.foldl (handOn st q (s.judgedQuantity y st q).held)
      ((f.vented st (.stopped .sensor)).enterStopping st (some (.monitorAlarm q .lost)) false) := by
  have hmon := s.sampledAt_onlyMon y st q
  have hflag := flagNotice_quiet (s.sampledAt y st q) (some st) (.station q) (s.judgedQuantity y st q).held .lost st
  have hleak : ((s.sampledAt y st q).flagNotice (some st) (.station q) (s.judgedQuantity y st q).held .lost).leak = s.leak := by
    rw [flagNotice_leak, hmon.leak]
  have hseq : ((s.sampledAt y st q).flagNotice (some st) (.station q) (s.judgedQuantity y st q).held .lost).seq = s.seq := by
    rw [flagNotice_seq, hmon.seq]
  have htaken := takeSample_station s y st q hy
  change s.takeSample y = (s.latchedBy y st q).foldl (handOn st q (s.judgedQuantity y st q).held) (s.sampledAt y st q) at htaken
  rw [hlatches, List.foldl_cons] at htaken
  have hfirst : handOn st q (s.judgedQuantity y st q).held (s.sampledAt y st q) .lost =
      (((s.sampledAt y st q).flagNotice (some st) (.station q) (s.judgedQuantity y st q).held .lost).vented st
        (.stopped .sensor)).enterStopping st (some (.monitorAlarm q .lost)) false := by
    generalize hf : (s.sampledAt y st q).flagNotice (some st) (.station q) (s.judgedQuantity y st q).held .lost = f at *
    have hrunning : (f.vented st (.stopped .sensor)).stateOf st = .running := by
      refine (vented_quiet f st _).state.trans ?_
      rw [hseq]
      exact hruns.running
    unfold handOn
    simp only [hf, FlagKind.isAlarm, if_true]
    rw [leakAlarm_lost hq (by rw [circuit, hleak]; exact hphase), alarm, hrunning]
  rw [hfirst] at htaken
  exact ⟨_, ⟨by rw [stateOf, hseq]; exact hruns.running, by rw [ctx, hseq]; exact hruns.step, by rw [ctx, hseq]; exact hruns.record⟩,
    hleak, htaken⟩

/-- The notices of a SUPPLY sample count nothing for a station. -/
theorem supplyLatched_live_stations (s : State) (y : SensorInput) :
    (s.supplyLatched y).counters.live.stations = s.counters.live.stations := by
  unfold supplyLatched
  rw [foldl_flagNotice_eq]
  exact giveNotices_live_stations _

/-- A result INCOMPLETE counts nothing for a station (R139). -/
theorem vented_stopped_live_stations (s : State) (st : Station) (c : LeakCause) :
    (s.vented st (.stopped c)).counters.live.stations = s.counters.live.stations := by
  simp [vented, decideLeak, LeakResult.stopped]

/-- A SUPPLY sample that begins a fault decides INCOMPLETE SUPPLY of the station in FILL (R90, R131). -/
theorem supplyTaken_fault (hgrant : s.leak.grant = some st) (hphase : (s.circuit st).phase = .fill)
    (hbegins : supplyFaultBegins s.mon.supply.current (s.judgedSupply y).current = true) :
    s.supplyTaken y = (s.supplyLatched y).vented st (.stopped .supply) := by
  obtain ⟨-, hleak, -⟩ := s.supplyLatched_kept y
  unfold supplyTaken
  rw [if_pos hbegins]
  unfold supplyFault
  rw [hleak, hgrant]
  dsimp only
  rw [if_pos (by rw [circuit, hleak]; exact hphase)]
  rfl

/-- With SUPPLY unhealthy a grant given up goes to nobody (R128, R131). -/
theorem vented_unhealthy (hgrant : s.leak.grant = some st) (res : LeakResult)
    (hlow : s.mon.supply.current.lowAlarm = true ∨ s.mon.supply.current.lost = true) :
    (s.vented st res).leak.grant = none ∧ (s.vented st res).leak.queue = s.leak.queue := by
  have hgranted : ((s.decideLeak st res).enterPhase st .vent).leak.grant = some st := by simpa [enterPhase] using hgrant
  unfold vented ventAfter releaseGrant
  rw [if_pos hgranted, examineSupply_eq_self]
  · exact ⟨rfl, by simp [enterPhase]⟩
  · have hmon : (s.decideLeak st res).mon = s.mon := by simp
    exact .inr (.inr (by simpa [enterPhase, hmon] using hlow))

end State

/-- Settles O42. -/
theorem sampleMovesLeakStep : Obligations.SampleMovesLeakStep := by
  intro st x r l s hruns hspec hl hgrant hqueue
  refine ⟨fun fault hnone hphase => ⟨fun hmoves => ?_, fun hstands => ?_⟩, fun reading hphase hnone => ⟨fun hholds => ?_, fun hdrops => ?_⟩,
    fun y q hphase hy hq hnone hshort => ?_, fun y q rest hphase hy hq hlost => ?_, fun reading hphase hbegins => ?_⟩
  · have hmon := State.takeSample_onlyMon (y := .speed st fault) rfl hnone
    have hsample := State.sample_running (y := .speed st fault) rfl hruns.running hmon
    have hself : s.sample (.speed st fault) = s.takeSample (.speed st fault) := by
      rw [hsample, (hmon.runsStep hruns).judgeStep_leak hspec]
      unfold State.leakSample
      rw [hmon.circuit, hphase]
      refine if_neg fun h => ?_
      simp [State.atStandstill] at h hmoves
      omega
    rw [← hself]
    exact State.exec_sample_sameLink (by rw [hself, hmon.link])
  · have hmon := State.takeSample_onlyMon (y := .speed st fault) rfl hnone
    have hsample := State.sample_running (y := .speed st fault) rfl hruns.running hmon
    have hwaits : s.sample (.speed st fault) = ((s.takeSample (.speed st fault)).waitingSupply st).examineSupply := by
      rw [hsample, (hmon.runsStep hruns).judgeStep_leak hspec]
      unfold State.leakSample
      rw [hmon.circuit, hphase]
      refine State.standstillWaitSample_eq ?_
      simp [State.atStandstill] at hstands ⊢
      exact hstands
    have hlink : (s.sample (.speed st fault)).link = s.link := by
      rw [hwaits]
      simpa [State.waitingSupply] using hmon.link
    have hsupply : (s.takeSample (.speed st fault)).mon.supply = s.mon.supply := by
      rw [State.takeSample_mon_station (st := st) (q := .speed) rfl]
      exact (State.gathered_mon s (.speed st fault)).2.1
    rw [exec_monitorSample, State.event_sameLink hlink, hwaits]
    generalize s.takeSample (.speed st fault) = u at *
    have hcircuit : (u.waitingSupply st).circuit st = (s.circuit st).enter .waitSupply s.now := by
      rw [← hmon.now, ← hmon.circuit]
      simp [State.waitingSupply, State.enterPhase, State.circuit]
    have hqueued : (u.waitingSupply st).leak.queue = s.leak.queue ++ [st] := by
      show u.leak.queue ++ [st] = _
      rw [hmon.leak]
    have hgranted : (u.waitingSupply st).leak.grant = s.leak.grant := by
      show u.leak.grant = _
      rw [hmon.leak]
    have hmonitor : (u.waitingSupply st).mon = u.mon := rfl
    have hnow : (u.waitingSupply st).now = s.now := hmon.now
    refine ⟨_, rfl, (State.examineSupply_seq _).trans hmon.seq, (State.examineSupply_drive _).trans hmon.drive,
      State.examineSupply_mon _, (State.examineSupply_link _).trans hmon.link, ?_, fun hhealthy hfree hempty => ?_, fun hkept => ?_⟩
    · rcases (u.waitingSupply st).examineSupply_circuit st with h | h
      · rw [h, hcircuit]
        rfl
      · rw [h, hnow]
        rfl
    · have hgrants := examineSupply_grants (s := u.waitingSupply st) (st := st) (rest := []) (by rw [hqueued, hempty]; rfl)
        (by rw [hgranted, hfree]) (by rw [hmonitor, hsupply]; exact hhealthy.1) (by rw [hmonitor, hsupply]; exact hhealthy.2)
      have hcounters : (u.waitingSupply st).counters = s.counters := hmon.counters
      rw [hgrants]
      refine ⟨rfl, rfl, ?_, ?_, ?_, ?_⟩
      · simp [State.enterPhase, LeakCircuit.enter]
      · simp [State.enterPhase, LeakCircuit.enter, LeakPhase.fillOpen]
      · simp [State.enterPhase, LeakCircuit.enter, LeakPhase.ventOpen]
      · simp [State.enterPhase, hcounters, satAdd]
    · rw [examineSupply_eq_self (s := u.waitingSupply st), hcircuit]
      · exact ⟨hgranted, hqueued, rfl, rfl, rfl, hmon.counters⟩
      · rw [hgranted, hmonitor, hsupply]
        rcases hkept with h | h
        · by_cases hlow : s.mon.supply.current.lowAlarm = true
          · exact .inr (.inr (.inl hlow))
          · exact .inr (.inr (.inr (by simpa using mt (And.intro (by simpa using hlow)) h)))
        · exact .inr (.inl h)
  · have hmon := State.takeSample_onlyMon (y := .leakPress st reading) rfl hnone
    have hsample := State.sample_running (y := .leakPress st reading) rfl hruns.running hmon
    have hself : s.sample (.leakPress st reading) = s.takeSample (.leakPress st reading) := by
      rw [hsample, (hmon.runsStep hruns).judgeStep_leak hspec]
      unfold State.leakSample
      rw [hmon.circuit, hphase, hmon.leakSpec, hl]
      exact if_neg (not_lt.mpr hholds)
    rw [← hself]
    exact State.exec_sample_sameLink (by rw [hself, hmon.link])
  · have hmon := State.takeSample_onlyMon (y := .leakPress st reading) rfl hnone
    have hsample := State.sample_running (y := .leakPress st reading) rfl hruns.running hmon
    have hends : s.sample (.leakPress st reading) =
        (s.takeSample (.leakPress st reading)).decideAndVent st ⟨.failGross, none, none⟩ := by
      rw [hsample, (hmon.runsStep hruns).judgeStep_leak hspec]
      unfold State.leakSample
      rw [hmon.circuit, hphase, hmon.leakSpec, hl]
      exact if_pos hdrops
    have hruns' := hmon.runsStep hruns
    have hgrant' : s.leak.grant ≠ some st := fun h => absurd (hphase.symm.trans (hgrant.mp h)) nofun
    have hgranted : (s.takeSample (.leakPress st reading)).leak.grant ≠ some st := by rwa [hmon.leak]
    have hdecides := hruns'.decides hspec (.inr (.inl (by rw [hmon.circuit, hphase]))) (.inl hgranted) ⟨.failGross, none, none⟩
    have hfaults := (State.vented_kept hruns'.record ⟨.failGross, none, none⟩).2.2.2.2
    obtain ⟨hsupply, hwaiting⟩ := State.vented_supply hgranted ⟨.failGross, none, none⟩
    have hcounters := hmon.counters
    have hstop := hmon.stopOnFail st
    have hbefore : s.OthersKept (s.takeSample (.leakPress st reading)) st := .of_eq st hmon.seq hmon.drive
    rw [← hends] at hdecides
    have hlink : (s.sample (.leakPress st reading)).link = s.link := hdecides.link.trans hmon.link
    refine ⟨_, State.exec_sample_sameLink hlink, hdecides.phase, hdecides.fill, hdecides.vent, hdecides.leaks, ?_, ?_, ?_,
      hlink, hbefore.trans hdecides.others, fun hgoes => ?_, fun hstops => ?_⟩
    · rw [hdecides.counted, hfaults, hcounters]
      rfl
    · rw [hdecides.leak, hsupply, hmon.leak]
    · rw [hdecides.leak, hwaiting, hmon.leak]
    · obtain ⟨hrunning, hstep, hrecord⟩ := hdecides.goesOn fun hno =>
        Bool.false_ne_true ((hgoes.symm.trans hstop.symm).trans hno.2)
      exact ⟨hrunning, hstep, by rw [State.stepEntries, hrecord]; rfl⟩
    · obtain ⟨henters, hentries⟩ := hdecides.stops rfl (hstop.trans hstops)
      refine ⟨henters.state, ?_, hentries⟩
      rw [henters.test]
      cases ((s.takeSample (.leakPress st reading)).ctx st).test <;> rfl
  · have hmon := State.takeSample_onlyMon hy hnone
    have hsample := State.sample_running hy hruns.running hmon
    have hself : s.sample y = (s.takeSample y).counted st l q := by
      have hphase' : ((s.takeSample y).circuit st).phase = .measure := by rw [hmon.circuit, hphase]
      have hl' : (s.takeSample y).leakSpec st = some l := by rw [hmon.leakSpec, hl]
      rw [hsample, (hmon.runsStep hruns).judgeStep_leak hspec, State.leakSample_measure hphase' hl' hq, State.measureSample_eq,
        hmon.circuit]
      exact if_neg fun h => hshort.elim (not_lt.mpr h.1) (not_lt.mpr h.2)
    have hcounted : (s.takeSample y).counted st l q = (s.takeSample y).modCircuit st (fun _ =>
        (s.circuit st).measured (l.measureTime / 10) q ((s.takeSample y).quantity st q).held) := by
      rw [← hmon.circuit]
      rfl
    rw [← hcounted, ← hself]
    exact State.exec_sample_sameLink (by rw [hself]; exact hmon.link)
  · have hwatched : s.watched st q = true := by
      rcases hq with rfl | rfl <;> simp only [State.watched, hphase] <;> rfl
    have hlatches : newLatches (s.watched st q) (s.judgedQuantity y st q).current (s.quantity st q).latched = .lost :: rest := by
      rw [State.judgedQuantity, hwatched]
      exact hlost
    obtain ⟨f, hf, hleak, htaken⟩ := State.takeSample_lost hruns hphase hy hq hlatches
    have hplace : f.leak.grant ≠ some st ∨ st ∉ f.leak.queue := .inr (by rwa [hleak])
    obtain ⟨hleak', hleaks, -, henters⟩ := State.vented_stops hf.record hplace (.stopped .sensor) (some (.monitorAlarm q .lost))
    have hentries := hf.vented_entries hspec hplace (.stopped .sensor) (some (.monitorAlarm q .lost))
    have hvent := (State.vented_circuit hplace (.stopped .sensor)).1
    replace henters := henters (.inr (.inr (by rw [State.circuit, hleak]; exact hphase)))
    generalize (f.vented st (.stopped .sensor)).enterStopping st (some (.monitorAlarm q .lost)) false = w at *
    rw [State.circuit, ← hleak'] at hvent
    have hquiet := (State.foldl_handOn_latches (q := q) (s.judgedQuantity y st q).held rest
      fun h => absurd (henters.state.symm.trans h) nofun).quiet
    obtain ⟨hkept, hkeptLeaks, hkeptEntries⟩ := State.foldl_handOn_venting (q := q) (s.judgedQuantity y st q).held rest
      henters.state hvent
    rw [← htaken] at hquiet hkept hkeptLeaks hkeptEntries
    have hstopping : (s.takeSample y).stateOf st = .stopping := hquiet.state.trans henters.state
    have hsample : s.sample y = s.takeSample y := by
      unfold State.sample State.readSample
      rw [hy]
      simp only [hruns.running, hstopping]
    have hcause : ((s.takeSample y).ctx st).record.map Record.cause = some (some (.monitorAlarm q .lost)) := by
      refine hquiet.cause.trans (henters.cause.trans ?_)
      rw [hf.record]
      rfl
    refine ⟨_, exec_monitorSample s y, ?_⟩
    simp only [State.circuit, State.stateOf, State.stepEntries, State.ctx, State.afterNotices_leak, State.afterNotices_seq, hsample]
    refine ⟨?_, hstopping, hcause, hkeptLeaks.trans hleaks, hkeptEntries.trans hentries, ?_⟩
    · exact (congrArg (fun k => k.circuits[st].phase) hkept).trans hvent
    · rw [← hsample]
      exact (State.sample_othersKept hy).trans (State.OthersKept.of_eq st (by simp) (by simp))
  · have hgranted := hgrant.mpr hphase
    have hfault : State.supplyFaultBegins s.mon.supply.current (s.judgedSupply (.supply reading)).current = true := by
      unfold State.supplyFaultBegins
      rcases hbegins with ⟨hafter, hbefore⟩ | ⟨hafter, hbefore⟩
      · exact Bool.or_eq_true_iff.mpr (.inl (by rw [hbefore]; exact Bool.and_eq_true_iff.mpr ⟨hafter, rfl⟩))
      · exact Bool.or_eq_true_iff.mpr (.inr (by rw [hbefore]; exact Bool.and_eq_true_iff.mpr ⟨hafter, rfl⟩))
    have htaken := State.supplyTaken_fault (y := .supply reading) hgranted hphase hfault
    obtain ⟨hmon, hleak, hseq, hdrive, hline, hstore, htable⟩ := s.supplyLatched_kept (.supply reading)
    have hcounted := s.supplyLatched_live_stations (.supply reading)
    have hunhealthy : (s.supplyLatched (.supply reading)).mon.supply.current.lowAlarm = true
        ∨ (s.supplyLatched (.supply reading)).mon.supply.current.lost = true := by
      rw [hmon]
      exact hbegins.imp And.left And.left
    have hsample := s.sample_supply reading
    rw [htaken] at hsample
    generalize s.supplyLatched (.supply reading) = f at *
    have hf : f.RunsStep st x r :=
      ⟨by rw [State.stateOf, hseq]; exact hruns.running, by rw [State.ctx, hseq]; exact hruns.step,
        by rw [State.ctx, hseq]; exact hruns.record⟩
    have hout : st ∉ f.leak.queue := by rwa [hleak]
    obtain ⟨hvent, hfill, hopen, hentered, -⟩ := State.vented_circuit (.inr hout) (.stopped .supply)
    obtain ⟨hnone, hwaiting⟩ := State.vented_unhealthy (by rwa [hleak]) (.stopped .supply) hunhealthy
    obtain ⟨hrecord, hstate, hstep, -, -⟩ := State.vented_kept hf.record (.stopped .supply)
    have hquiet := f.vented_quiet st (.stopped .supply)
    have hstations := f.vented_stopped_live_stations st .supply
    have hself : (f.vented st (.stopped .supply)).examineSupply = f.vented st (.stopped .supply) :=
      examineSupply_eq_self (by rw [hquiet.mon]; exact .inr (.inr hunhealthy))
    rw [hself] at hsample
    refine ⟨_, exec_monitorSample s (.supply reading), ?_⟩
    simp only [State.circuit, State.stateOf, State.ctx, State.afterNotices_leak, State.afterNotices_seq,
      State.afterNotices_counters, hsample]
    refine ⟨hvent, hfill, hopen, ?_, hnone, hwaiting.trans (by rw [hleak]), hrecord, hstep.trans hf.step, hstate.trans hf.running,
      hstations.trans hcounted, ?_⟩
    · exact hentered.trans (by rw [State.now, hline.clock])
    · exact ((State.OthersKept.of_eq st hseq hdrive).trans hquiet.othersKept).trans
        (State.OthersKept.of_eq st (by simp) (by simp))

end Sys2Proof.Machine
end

section
/-! PROOFS. The encoder (R77, R78, R104, R105): what an index and a line do to the shaft, to what VIB gathers and to an open
revolution. -/

namespace Sys2Proof.Machine

open Sys2Proof

set_option Elab.async false

/-- Reading back a station's changed value. -/
theorem PerStation.upd_eq_const {α : Type} (v : PerStation α) (st : Station) (f : α → α) :
    v.upd st f = v.upd st (fun _ => (v.upd st f)[st]) := by
  have hread : (v.upd st f)[st] = f v[st] := by simp
  rw [hread]
  rfl

namespace State

variable {s t u : State} {st : Station} {e : EngineId}

/-! ### The index event (R104) -/

/-- What VIB gathers at an instant (R78). -/
theorem seeAccel_vib (s : State) (st : Station) (r : AccelReading) : (s.seeAccel st r).mon.vib =
    s.mon.vib.upd st (fun g => ⟨max g.peak (s.accelValue st r).natAbs, g.fault || AccelReading.faulty r⟩) := rfl

theorem faulty_eq (r : AccelReading) : AccelReading.faulty r =
    (match r with | .value _ => false | .openCircuit | .shortCircuit | .noData => true) := by
  cases r <;> rfl

/-- The conditioned accelerometer value at an index: the shaft stands at bin 0 (R105, R149). -/
theorem takeIndex_accelValue (s : State) (st : Station) (us : Fin 1000) (r : AccelReading) :
    (s.takeIndex st us r).accelValue st r = s.cond[st].accelValue 0 r := by
  have hbin : (s.takeIndex st us r).enc[st].bin = 0 := by
    simp [takeIndex, seeAccel, modVib, Encoder.bin, Encoder.index]
  unfold accelValue
  rw [hbin]
  rfl

/-- A state that differs in clock, encoders, engines and what VIB gathers of the station alone. -/
theorem onlyShaft_of {f : VibGather → VibGather} (hmon : t.mon = { s.mon with vib := s.mon.vib.upd st f })
    (hrest : t = { s with clock := t.clock, enc := t.enc, noise := t.noise, mon := t.mon }) : s.OnlyShaft t st := by
  have hvib : t.mon = { s.mon with vib := s.mon.vib.upd st (fun _ => t.mon.vib[st]) } := by
    rw [hmon]
    exact congrArg (fun v => { s.mon with vib := v }) (PerStation.upd_eq_const ..)
  unfold OnlyShaft
  rw [← hvib]
  exact hrest

/-- What VIB gathers at an index (R78). -/
theorem takeIndex_mon (s : State) (st : Station) (us : Fin 1000) (r : AccelReading) : (s.takeIndex st us r).mon =
    { s.mon with vib := s.mon.vib.upd st (fun g =>
        ⟨max g.peak (s.cond[st].accelValue 0 r).natAbs, g.fault || AccelReading.faulty r⟩) } := by
  rw [← takeIndex_accelValue s st us r]
  rfl

theorem takeIndex_onlyShaft (s : State) (st : Station) (us : Fin 1000) (r : AccelReading) :
    s.OnlyShaft (s.takeIndex st us r) st := onlyShaft_of rfl rfl

/-- A change of the engines keeps a change of the shaft one. -/
theorem OnlyShaft.modEngine (h : s.OnlyShaft t st) (f : Engine → Engine) : s.OnlyShaft (t.modEngine e f) st := by
  unfold OnlyShaft at *
  cases e with
  | a => exact congrArg (fun u : State => u.modEngine .a f) h
  | b => exact congrArg (fun u : State => u.modEngine .b f) h

theorem judged_eq_none {us : Fin 1000} (h : s.accumulating st = none ∨ ∃ e, s.accumulating st = some e ∧ (s.engine e).revOpen = false) :
    s.judged st us = none := by
  unfold judged
  rcases h with h | ⟨e, h, hclosed⟩
  · rw [h]
  · rw [h]
    simp only [hclosed]

/-- An index of an encoder for which no engine accumulates touches the shaft alone. -/
theorem index_unheard (h : s.accumulating st = none) (us : Fin 1000) (r : AccelReading) :
    s.index st us r = s.takeIndex st us r := by
  unfold index
  rw [judged_eq_none (.inl h), h]

/-- An index that closes no revolution opens the first (R104). -/
theorem index_opens (h : s.accumulating st = some e) (hclosed : (s.engine e).revOpen = false) (us : Fin 1000) (r : AccelReading) :
    s.index st us r = (s.takeIndex st us r).modEngine e (fun x => x.openRevolution (s.cond[st].accelValue 0 r)) := by
  unfold index
  simp only [judged_eq_none (.inr ⟨e, h, hclosed⟩), h, takeIndex_accelValue]

/-- What every index event does to the encoder, the clock and the Monitor (R77, R78). -/
theorem index_shaft (s : State) (st : Station) (us : Fin 1000) (r : AccelReading) :
    (s.index st us r).enc = (s.takeIndex st us r).enc ∧ (s.index st us r).clock = (s.takeIndex st us r).clock
      ∧ (s.index st us r).mon = (s.takeIndex st us r).mon := by
  unfold index
  dsimp only
  split
  · split <;> exact ⟨by simp, by simp, by simp⟩
  · split <;> exact ⟨by simp, by simp, by simp⟩

/-! ### The line event (R105) -/

/-- The shaft, and what VIB gathers, at a line. -/
def takeLine (s : State) (st : Station) (forward : Bool) (r : AccelReading) : State :=
  ({ s with enc := s.enc.upd st (fun e => e.line forward) } : State).seeAccel st r

theorem encoderLine_eq (s : State) (st : Station) (forward : Bool) (r : AccelReading) : s.encoderLine st forward r =
    (match s.accumulating st with
      | some e => if (s.engine e).revOpen then (s.takeLine st forward r).modEngine e (fun x =>
          x.cross (s.takeLine st forward r).enc[st].pos ((s.takeLine st forward r).accelValue st r)) else s.takeLine st forward r
      | none => s.takeLine st forward r) := by
  rfl

theorem takeLine_onlyShaft (s : State) (st : Station) (forward : Bool) (r : AccelReading) :
    s.OnlyShaft (s.takeLine st forward r) st := onlyShaft_of rfl rfl

theorem encoderLine_onlyShaft (s : State) (st : Station) (forward : Bool) (r : AccelReading) :
    s.OnlyShaft (s.encoderLine st forward r) st := by
  have htaken := s.takeLine_onlyShaft st forward r
  rw [encoderLine_eq]
  split
  · split
    · exact htaken.modEngine _
    · exact htaken
  · exact htaken

/-- What every line does to the encoder and to what VIB gathers (R78, R105). -/
theorem encoderLine_shaft (s : State) (st : Station) (forward : Bool) (r : AccelReading) :
    (s.encoderLine st forward r).enc = (s.takeLine st forward r).enc
      ∧ (s.encoderLine st forward r).mon = (s.takeLine st forward r).mon := by
  rw [encoderLine_eq]
  split
  · split <;> exact ⟨by simp, by simp⟩
  · exact ⟨rfl, rfl⟩

theorem takeLine_vib (s : State) (st : Station) (forward : Bool) (r : AccelReading) :
    (s.takeLine st forward r).mon.vib[st] = ⟨max s.mon.vib[st].peak ((s.takeLine st forward r).accelValue st r).natAbs,
      s.mon.vib[st].fault || AccelReading.faulty r⟩ := by
  simp only [takeLine, seeAccel_vib, Fin.getElem_fin, PerStation.getElem_upd, if_true]
  rfl

theorem takeLine_enc (s : State) (st : Station) (forward : Bool) (r : AccelReading) :
    (s.takeLine st forward r).enc = s.enc.upd st (fun e => if e.last = none then e
      else { e with net := if forward then e.net + 1 else e.net - 1, pos := if forward then e.pos + 1 else e.pos - 1 }) := by
  have hline : ∀ e : Encoder, e.line forward = (if e.last = none then e
      else { e with net := if forward then e.net + 1 else e.net - 1, pos := if forward then e.pos + 1 else e.pos - 1 }) := by
    intro e
    unfold Encoder.line
    cases e.last <;> cases forward <;> rfl
  simp only [← hline]
  rfl

theorem takeLine_accelValue (s : State) (st : Station) (forward : Bool) (r : AccelReading) :
    (s.takeLine st forward r).accelValue st r = s.cond[st].accelValue ((s.takeLine st forward r).enc[st].pos.val / 4) r := rfl

/-- A line that no open revolution hears touches the shaft alone. -/
theorem encoderLine_unheard (h : s.accumulating st = none ∨ ∃ e, s.accumulating st = some e ∧ (s.engine e).revOpen = false)
    (forward : Bool) (r : AccelReading) : s.encoderLine st forward r = s.takeLine st forward r := by
  rw [encoderLine_eq]
  rcases h with h | ⟨e, h, hclosed⟩
  · rw [h]
  · simp only [h, hclosed, Bool.false_eq_true, if_false]

/-- A line an open revolution hears may give it a bin sample. -/
theorem encoderLine_crosses (h : s.accumulating st = some e) (hopen : (s.engine e).revOpen = true) (forward : Bool)
    (r : AccelReading) : s.encoderLine st forward r = (s.takeLine st forward r).modEngine e (fun x =>
      x.cross (s.takeLine st forward r).enc[st].pos ((s.takeLine st forward r).accelValue st r)) := by
  rw [encoderLine_eq]
  simp only [h, hopen, if_true]

end State

/-- A crossing gives its bin a sample once (R105). -/
theorem Engine.cross_spec (x : Engine) (pos : Fin 512) (v : Int) : { x.cross pos v with samples := x.samples } = x
    ∧ ∀ b : Fin 128, (x.cross pos v).samples[b] =
      if x.samples[b] = none ∧ pos.val = 4 * b.val then some v else x.samples[b] := by
  unfold Engine.cross
  split
  · rename_i hpos
    dsimp only
    split
    · rename_i hnone
      refine ⟨rfl, fun b => ?_⟩
      rw [Fin.getElem_fin, Option.isNone_iff_eq_none] at hnone
      simp only [Fin.getElem_fin, Vector.getElem_set]
      by_cases hb : pos.val / 4 = b.val
      · rw [if_pos hb, if_pos ⟨by simpa only [hb] using hnone, by omega⟩]
      · exact (if_neg hb).trans (if_neg fun h => hb (by omega)).symm
    · rename_i hsome
      refine ⟨rfl, fun b => (if_neg fun ⟨hnone, hb⟩ => hsome ?_).symm⟩
      have : pos.val / 4 = b.val := by omega
      simp only [Fin.getElem_fin, this, Option.isNone_iff_eq_none]
      exact hnone
  · rename_i hpos
    refine ⟨rfl, fun b => (if_neg ?_).symm⟩
    omega

/-- Settles O31. -/
theorem encoderEventsTrackTheShaft : Obligations.EncoderEventsTrackTheShaft := by
  refine ⟨fun st us r s => ⟨s.afterNotices (s.index st us r), exec_encoderIndex s st us r, ?_, ?_, ?_, fun hnone => ?_,
    fun e he hclosed => ?_⟩, fun st forward r s => ?_⟩
  · rw [State.afterNotices_enc, (s.index_shaft st us r).1]
    rfl
  · rw [State.afterNotices_clock, (s.index_shaft st us r).2.1]
    rfl
  · rw [State.afterNotices_mon, (s.index_shaft st us r).2.2, State.takeIndex_mon, State.faulty_eq]
    rfl
  · rw [State.index_unheard hnone, s.afterNotices_of_link (s.takeIndex st us r) rfl]
    exact ⟨s.takeIndex_onlyShaft st us r, rfl⟩
  · rw [State.index_opens he hclosed, State.afterNotices_of_link _ ((s.takeIndex st us r).modEngine e _) (by simp)]
    refine ⟨(s.takeIndex_onlyShaft st us r).modEngine _, by simp, by simp, by simp, fun d hd => ?_, ?_⟩
    · rw [State.engine_modEngine, if_neg hd]
      rfl
    · rw [State.engine_modEngine, if_pos rfl]
      rfl
  · refine ⟨s.encoderLine st forward r, (exec_encoderLine s st forward r).trans (State.event_sameLink (by simp)), ?_, by simp, ?_,
      ?_, fun hnone => ?_, fun e he hclosed => ?_, fun e b he hopen => ?_⟩
    · rw [(s.encoderLine_shaft st forward r).1, State.takeLine_enc]
      rfl
    · exact s.encoderLine_onlyShaft st forward r
    · rw [(s.encoderLine_shaft st forward r).1, (s.encoderLine_shaft st forward r).2, State.takeLine_vib, State.faulty_eq]
      rfl
    · rw [State.encoderLine_unheard (.inl hnone)]
      rfl
    · rw [State.encoderLine_unheard (.inr ⟨e, he, hclosed⟩)]
      rfl
    · have hbin : ∀ v, (s.takeLine st forward r).enc[st].pos.val = 4 * b.val → v = s.cond[st].accelValue
          ((s.takeLine st forward r).enc[st].pos.val / 4) r → v = s.cond[st].accelValue b r := fun v hpos hv => by
        rw [hv, hpos, Nat.mul_div_cancel_left _ (by decide)]
      obtain ⟨hkept, hsamples⟩ := (s.engine e).cross_spec (s.takeLine st forward r).enc[st].pos
        ((s.takeLine st forward r).accelValue st r)
      have hcrossed : (s.encoderLine st forward r).engine e =
          (s.engine e).cross (s.takeLine st forward r).enc[st].pos ((s.takeLine st forward r).accelValue st r) := by
        rw [State.encoderLine_crosses he hopen, State.engine_modEngine, if_pos rfl]
        rfl
      rw [hcrossed, (s.encoderLine_shaft st forward r).1]
      refine ⟨hkept, fun d hd => ?_, (hsamples b).trans ?_⟩
      · rw [State.encoderLine_crosses he hopen, State.engine_modEngine, if_neg hd]
        rfl
      · split
        · rename_i hcross
          rw [hbin _ hcross.2 (State.takeLine_accelValue ..)]
        · rfl

end Sys2Proof.Machine
end

section
/-! PROOFS. The judgement of a revolution (R106): what accepts it, what discards it, and what an accepted one does (R107). -/

namespace Sys2Proof.Machine

open Sys2Proof

set_option Elab.async false

/-! ### The four checks (R106) -/

theorem countFits_iff (net : Int) : countFits net = true ↔ net = 512 ∨ net = -512 := by simp [countFits]

theorem speedFits_iff (speed target : Int) (tolerance : Nat) :
    speedFits speed target tolerance = true ↔ (speed - target).natAbs ≤ tolerance := by simp [speedFits]

theorem torqueFits_iff (f : Flank) (torque : Int) (flankMin : Nat) : torqueFits f torque flankMin = true ↔
    (f = .drive → 0 < torque ∧ (flankMin : Int) ≤ torque) ∧ (f = .coast → torque < 0 ∧ (flankMin : Int) ≤ -torque) := by
  cases f <;> simp [torqueFits]

theorem samplesFit_iff (xs : Vector (Option Int) 128) : samplesFit xs = true ↔
    ∀ b : Fin 128, xs[b] ≠ some (-32768) ∧ xs[b] ≠ some 32767 := by
  rw [samplesFit, List.all_eq_true]
  constructor
  · intro h b
    simpa using h xs[b] (Vector.mem_toList_iff.mpr (Vector.getElem_mem b.isLt))
  · intro h x hx
    obtain ⟨i, hi, rfl⟩ := Vector.mem_iff_getElem.mp (Vector.mem_toList_iff.mp hx)
    simpa using h ⟨i, hi⟩

/-- The four checks of R106. -/
theorem revolutionAccepted_iff (g : GroupSpec) (net : Int) (period : Nat) (target torque : Int) (xs : Vector (Option Int) 128) :
    revolutionAccepted g net period target torque xs = true ↔ (net = 512 ∨ net = -512)
      ∧ (∃ v, RevolutionSpeed period net v ∧ (v - target.tdiv 100).natAbs ≤ g.tolerance)
      ∧ (g.flank = .drive → 0 < torque ∧ (g.flankMin : Int) ≤ torque)
      ∧ (g.flank = .coast → torque < 0 ∧ (g.flankMin : Int) ≤ -torque)
      ∧ ∀ b : Fin 128, xs[b] ≠ some (-32768) ∧ xs[b] ≠ some 32767 := by
  rw [revolutionAccepted]
  simp only [Bool.and_eq_true, countFits_iff, speedFits_iff, torqueFits_iff, samplesFit_iff]
  have hspeed : (net = 512 ∨ net = -512) → ((revSpeed period net - target.tdiv 100).natAbs ≤ g.tolerance ↔
      ∃ v, RevolutionSpeed period net v ∧ (v - target.tdiv 100).natAbs ≤ g.tolerance) := by
    intro hnet
    have hone : ∀ v, RevolutionSpeed period net v ↔ v = revSpeed period net :=
      fun v => revolutionSpeed_iff (by omega)
    simp only [hone, exists_eq_left]
  constructor
  · rintro ⟨⟨⟨hnet, hv⟩, hdrive, hcoast⟩, hxs⟩
    exact ⟨hnet, (hspeed hnet).mp hv, hdrive, hcoast, hxs⟩
  · rintro ⟨hnet, hv, hdrive, hcoast, hxs⟩
    exact ⟨⟨⟨hnet, (hspeed hnet).mpr hv⟩, hdrive, hcoast⟩, hxs⟩

/-- A revolution that fails one of the checks is not accepted. -/
theorem revolutionAccepted_eq_false {g : GroupSpec} {net : Int} {period : Nat} {target torque : Int} {xs : Vector (Option Int) 128}
    (h : (net ≠ 512 ∧ net ≠ -512)
      ∨ (∃ v, RevolutionSpeed period net v ∧ g.tolerance < (v - target.tdiv 100).natAbs)
      ∨ (g.flank = .drive ∧ ¬(0 < torque ∧ (g.flankMin : Int) ≤ torque))
      ∨ (g.flank = .coast ∧ ¬(torque < 0 ∧ (g.flankMin : Int) ≤ -torque))
      ∨ (∃ b : Fin 128, xs[b] = some (-32768) ∨ xs[b] = some 32767)) :
    revolutionAccepted g net period target torque xs = false := by
  rw [← Bool.not_eq_true, revolutionAccepted_iff]
  rintro ⟨hnet, ⟨w, hw, hfits⟩, hdrive, hcoast, hxs⟩
  rcases h with ⟨h, h'⟩ | ⟨v, hv, hoff⟩ | ⟨hf, hoff⟩ | ⟨hf, hoff⟩ | ⟨b, hb⟩
  · exact hnet.elim h h'
  · have hone : net ≠ 0 := by omega
    rw [revolutionSpeed_iff hone] at hv hw
    rw [hv] at hoff
    rw [hw] at hfits
    omega
  · exact hoff (hdrive hf)
  · exact hoff (hcoast hf)
  · exact hb.elim (hxs b).1 (hxs b).2

namespace State

variable {s t u : State} {st : Station} {e : EngineId} {g : Nat} {l : GroupLine} {t0 : Stamp}

/-- The period of the revolution that an index closes (R77, R106). -/
def closingPeriod (s : State) (t0 : Stamp) (us : Fin 1000) : Nat := elapsed t0.ms s.now * 1000 + max s.clock.us us - t0.us

/-- The revolution an index closes is judged by the four checks (R106). -/
theorem judged_eq (hacc : s.accumulating st = some e) (hopen : (s.engine e).revOpen = true) (hgroup : (s.engine e).group = some g)
    (hline : s.line st g = some l) (hlast : s.enc[st].last = some t0) (us : Fin 1000) :
    s.judged st us = some ⟨e, l, revolutionAccepted l.spec s.enc[st].net (s.closingPeriod t0 us) s.drive[st].target
      (s.quantity st .torque).held (s.engine e).samples⟩ := by
  unfold judged
  simp only [hacc, hopen, hgroup, Option.bind_some, hline, hlast]
  rfl

/-- The engine after the samples of an accepted revolution have been added (R107). -/
theorem acceptRevolution_engine (s : State) (st : Station) (e : EngineId) (r : AccelReading) :
    let x := (s.acceptRevolution st e r).engine e
    x.accepted = (s.engine e).accepted + 1 ∧ x.discarded = (s.engine e).discarded
      ∧ x.bins = addSamples (s.engine e).bins (s.engine e).samples
      ∧ ((s.engine e).k = some ((s.engine e).accepted + 1) → x.state = .computing s.now)
      ∧ ((s.engine e).k ≠ some ((s.engine e).accepted + 1) → x.state = (s.engine e).state ∧ x.revOpen = true) := by
  have hengine : (s.countStation st (fun c => { c with revsAccepted := satAdd c.revsAccepted 1 })).engine e = s.engine e := by
    cases e <;> rfl
  unfold acceptRevolution
  simp only [engine_modEngine, if_true, hengine]
  by_cases hk : (s.engine e).k = some ((s.engine e).accepted + 1)
  · rw [if_pos hk]
    exact ⟨rfl, rfl, rfl, fun _ => rfl, fun h => absurd hk h⟩
  · rw [if_neg hk]
    exact ⟨rfl, rfl, rfl, fun h => absurd h hk, fun _ => ⟨rfl, rfl⟩⟩

theorem getElem_addSamples (bins : Vector Int 128) (xs : Vector (Option Int) 128) (b : Fin 128) :
    (addSamples bins xs)[b] = bins[b] + (xs[b]).getD 0 := by simp [addSamples]

end State

/-- Settles O32. -/
theorem acceptedRevolutionIsAdded : Obligations.AcceptedRevolutionIsAdded := by
  intro st us r s e g l t0 hacc hopen hgroup hline hlast hnet hspeed hdrive hcoast hsamples
  have hjudged := State.judged_eq hacc hopen hgroup hline hlast us
  have hfits : revolutionAccepted l.spec s.enc[st].net (s.closingPeriod t0 us) s.drive[st].target
      (s.quantity st .torque).held (s.engine e).samples = true :=
    (revolutionAccepted_iff ..).mpr ⟨hnet, hspeed, hdrive, hcoast, hsamples⟩
  rw [hfits] at hjudged
  have hindex : s.index st us r = (s.takeIndex st us r).acceptRevolution st e r := by
    unfold State.index
    rw [hjudged]
    exact if_pos rfl
  have hlink : (s.index st us r).link = s.link := by
    rw [hindex]
    simp
  have hexec : exec (.encoderIndex st us r) s = .next (s.index st us r) :=
    (exec_encoderIndex s st us r).trans (State.event_sameLink hlink)
  obtain ⟨haccepted, hdiscarded, hbins, hlastOne, hothers⟩ := (s.takeIndex st us r).acceptRevolution_engine st e r
  rw [← hindex, State.takeIndex_engine] at haccepted hdiscarded hbins hlastOne hothers
  refine ⟨s.index st us r, hexec, fun hk => ⟨?_, hlastOne hk⟩, fun hk => ?_, haccepted, hdiscarded, fun b => ?_, ?_, ?_, ?_, hlink⟩
  · have hdue : s.kReachedDue st us = true := by simp [State.kReachedDue, hjudged, hk]
    exact (exec_kReached s st us r).trans (State.eventWhen_sameLink hdue hlink)
  · obtain ⟨hstate, hopened⟩ := hothers hk
    exact ⟨hstate.trans (State.state_of_accumulating hacc).2, hopened⟩
  · rw [hbins, State.getElem_addSamples]
  · rw [hindex]
    simp [State.acceptRevolution, satAdd]
  · rw [hindex]
    simp [State.acceptRevolution]
  · rw [hindex]
    simp

end Sys2Proof.Machine
end

section
/-! PROOFS. A discarded revolution (R106, R108): its counters, and the group it closes UNSTEADY. -/

namespace Sys2Proof.Machine

open Sys2Proof

set_option Elab.async false

namespace State

variable {s t u : State} {st : Station} {e : EngineId} {g : Nat} {l : GroupLine} {r : Record} {x : StepCtx}

/-! ### The revolution counters (R174) -/

/-- The station's counts of revolutions are as they were. -/
structure SameRevs (s t : State) (st : Station) : Prop where
  accepted : t.counters.live.stations[st].revsAccepted = s.counters.live.stations[st].revsAccepted
  discarded : t.counters.live.stations[st].revsDiscarded = s.counters.live.stations[st].revsDiscarded
  faults : t.counters.live.stations[st].encoderFaults = s.counters.live.stations[st].encoderFaults

namespace SameRevs

theorem trans (h : s.SameRevs t st) (h' : t.SameRevs u st) : s.SameRevs u st :=
  ⟨h'.accepted.trans h.accepted, h'.discarded.trans h.discarded, h'.faults.trans h.faults⟩

theorem of_counters (h : t.counters.live.stations = s.counters.live.stations) : s.SameRevs t st := by
  constructor <;> rw [h]

/-- A count of something else. -/
theorem countStation (f : StationCounters → StationCounters) (hf : ∀ c, (f c).revsAccepted = c.revsAccepted
    ∧ (f c).revsDiscarded = c.revsDiscarded ∧ (f c).encoderFaults = c.encoderFaults) :
    s.SameRevs (s.countStation st f) st := by
  obtain ⟨haccepted, hdiscarded, hfaults⟩ := hf s.counters.live.stations[st]
  constructor <;> simpa

theorem claimEngine : s.SameRevs (s.claimEngine st g) st := by
  unfold State.claimEngine
  split
  · exact .of_counters (by simp)
  · split
    · exact .of_counters (by simp)
    · split
      · exact (countStation (fun c => { c with engineWaitsExpired := satAdd c.engineWaitsExpired 1 })
          fun _ => ⟨rfl, rfl, rfl⟩).trans (.of_counters (by simp))
      · exact .of_counters rfl

theorem windowStart : s.SameRevs (s.windowStart st g) st := by
  unfold State.windowStart
  split
  · exact .of_counters rfl
  · split
    · exact .of_counters rfl
    · dsimp only
      have hopened : s.SameRevs (s.modGroups st (modLine g fun l => { l with status := .opened })) st := .of_counters (by simp)
      split
      · split
        · exact .of_counters (by simp)
        · split
          · exact hopened
          · exact hopened.trans claimEngine
      · split
        · split
          · exact .of_counters (by simp)
          · exact hopened.trans claimEngine
        · exact hopened.trans claimEngine

theorem beginStep (i : Nat) (spec : StepSpec) : s.SameRevs (s.beginStep st i spec) st := by
  unfold State.beginStep
  cases spec with
  | dwell d w b k =>
    cases w with
    | none => exact .of_counters (by simp)
    | some g => exact (of_counters (by simp)).trans windowStart
  | _ => exact .of_counters (by simp)

theorem decideLeak (res : LeakResult) : s.SameRevs (s.decideLeak st res) st := by
  unfold State.decideLeak
  dsimp only
  split
  iterate 2
    exact (of_counters (by simp)).trans (countStation _ fun _ => ⟨rfl, rfl, rfl⟩)
  all_goals exact .of_counters (by simp)

theorem leakExit : s.SameRevs (s.leakExit st) st := by
  unfold State.leakExit
  dsimp only
  split
  · exact .of_counters rfl
  · exact .of_counters rfl
  all_goals exact (decideLeak (LeakResult.stopped .notCompleted)).trans (.of_counters (by simp))

theorem leakClose : s.SameRevs (s.leakClose st) st := by
  unfold State.leakClose
  split
  · exact .of_counters rfl
  · exact .of_counters (by simp)
  all_goals exact (decideLeak (LeakResult.stopped .notCompleted)).trans (.of_counters (by simp))

theorem enterStopping (cause : Option AbortCause) (drop : Bool) : s.SameRevs (s.enterStopping st cause drop) st := by
  have hleft : s.SameRevs ((s.leaveRunning st).leakExit st) st := (of_counters (by simp)).trans leakExit
  refine hleft.trans (.of_counters ?_)
  unfold State.enterStopping
  dsimp only
  split <;> split <;> simp

theorem countVerdict (v : Verdict) : s.SameRevs (s.countVerdict st v) st :=
  countStation _ fun c => by cases v <;> exact ⟨rfl, rfl, rfl⟩

theorem offerRecord : s.SameRevs (s.offerRecord st) st := by
  unfold State.offerRecord
  split
  · unfold State.depositStation
    split
    · rename_i n r c _ _ _
      refine SameRevs.trans (t := s.countVerdict st (r.verdict.getD .pass)) (countVerdict _) (.of_counters ?_)
      rw [giveNotice_counters_live_stations]
      simp [State.countVerdict]
    · exact .of_counters rfl
  · exact .of_counters rfl

theorem chainEnd : s.SameRevs (s.chainEnd st) st := by
  unfold State.chainEnd
  split
  · have hclosed : s.SameRevs ((s.leaveRunning st).leakClose st) st := (of_counters (by simp)).trans leakClose
    refine (hclosed.trans (.of_counters ?_)).trans offerRecord
    simp [State.enterCompleting]
  · exact enterStopping _ _

/-- The end of a step counts no revolution. -/
theorem endStep (o : StepOutcome) : s.SameRevs (s.endStep st o) st := by
  unfold State.endStep
  split
  · exact .of_counters rfl
  · have hfinished : s.SameRevs (s.finishStep st o none) st := .of_counters (by simp)
    refine hfinished.trans ?_
    unfold State.nextStep
    split
    · exact beginStep _ _
    · exact chainEnd

theorem endExtended : s.SameRevs (s.endExtended st) st := by
  unfold State.endExtended
  split
  · exact endStep _
  · exact .of_counters rfl

end SameRevs

/-! ### A line that a grant reaches -/

theorem find_modLine_any (g g' : Nat) (f : GroupLine → GroupLine) (hf : ∀ l, (f l).spec = l.spec) (ls : List GroupLine) :
    (modLine g' f ls).find? (fun l => l.spec.group == g)
      = (ls.find? (fun l => l.spec.group == g)).map (fun l => if l.spec.group = g' then f l else l) := by
  rw [modLine, List.find?_map]
  congr 1
  refine congrFun (congrArg _ (funext fun l => ?_)) ls
  dsimp only [Function.comp]
  split
  · rw [hf]
  · rfl

/-- A station's line after a change of the line of one group. -/
theorem line_modGroups_any (s : State) (st : Station) (g g' : Nat) (f : GroupLine → GroupLine) (hf : ∀ l, (f l).spec = l.spec) :
    (s.modGroups st (modLine g' f)).line st g = (s.line st g).map (fun l => if l.spec.group = g' then f l else l) := by
  simp only [line, modGroups_noise, Fin.getElem_fin, PerStation.getElem_upd, if_true]
  exact find_modLine_any g g' f hf _

/-- What a grant leaves of a line: everything but the engine it names. -/
theorem grantEngine_line (s : State) (e : EngineId) (j : Station) (h : Nat) (hline : s.line st g = some l) :
    ∃ d, (s.grantEngine e j h).line st g = some { l with engine := d } := by
  unfold grantEngine
  split
  · exact ⟨l.engine, hline⟩
  · exact ⟨l.engine, hline⟩
  · by_cases hj : st = j
    · subst hj
      rw [line_modGroups_any _ st g h (fun l => { l with engine := some e }) (fun _ => rfl), line_modEngine, hline, Option.map_some]
      by_cases hgroup : l.spec.group = h
      · exact ⟨some e, by rw [if_pos hgroup]⟩
      · exact ⟨l.engine, by rw [if_neg hgroup]⟩
    · refine ⟨l.engine, Eq.trans (line_congr st g ?_) hline⟩
      simp [PerStation.getElem_upd, Ne.symm hj]

/-- What an engine given up leaves of a line (R100). -/
theorem freeEngine_line (hline : s.line st g = some l) (e : EngineId) :
    ∃ d, (s.freeEngine e).line st g = some { l with engine := d } := by
  unfold freeEngine passEngine
  split
  · exact grantEngine_line _ e _ _ (by simpa only [line] using (line_modEngine s e Engine.release st g).trans hline)
  · exact ⟨l.engine, (line_modEngine ..).trans hline⟩

/-- An engine passes on the same after an event that left queue, holders and the groups' specs. -/
theorem PassesEngine.before (h : t.PassesEngine u e) (hqueue : t.noise.queue = s.noise.queue)
    (hlines : ∀ j g, (t.line j g).map GroupLine.spec = (s.line j g).map GroupLine.spec)
    (hheld : ∀ j, s.heldEngine j = none → t.heldEngine j = none) : s.PassesEngine u e := by
  refine ⟨fun hempty => h.free (hqueue.trans hempty), fun w rest k hhead hline hnone => ?_⟩
  have hspec := hlines w.station w.group
  rw [hline, Option.map_some, Option.map_eq_some_iff] at hspec
  obtain ⟨k', hline', hk⟩ := hspec
  rw [← hk]
  exact h.head w rest k' (hqueue.trans hhead) hline' (hheld _ hnone)

theorem PassesEngine.of_noise (h : s.PassesEngine t e) (hnoise : u.noise = t.noise) : s.PassesEngine u e := by
  have hengine := engine_congr hnoise e
  refine ⟨fun hempty => ?_, fun w rest k hhead hline hheld => ?_⟩
  · rw [hengine, hnoise]
    exact h.free hempty
  · rw [hengine, hnoise]
    exact h.head w rest k hhead hline hheld

/-! ### A discarded revolution (R106) -/

/-- A discarded revolution, counted (R106). -/
def discardCounted (s : State) (st : Station) (e : EngineId) (countRight : Bool) : State :=
  (s.countStation st (fun c =>
    { c with revsDiscarded := satAdd c.revsDiscarded 1
             encoderFaults := if countRight then c.encoderFaults else satAdd c.encoderFaults 1 })).modEngine e
    (fun x => { x with discarded := x.discarded + 1 })

theorem discardCounted_engine (s : State) (st : Station) (e : EngineId) (right : Bool) (d : EngineId) :
    (s.discardCounted st e right).engine d = if d = e then { s.engine e with discarded := (s.engine e).discarded + 1 } else s.engine d := by
  rw [discardCounted, engine_modEngine]
  cases d <;> cases e <;> rfl

/-- The group's line and record closed UNSTEADY, the engine still held (R108). -/
def unsteadyEntered (s : State) (st : Station) (e : EngineId) (g : Nat) : State :=
  (s.modGroups st (modLine g (fun l => l.close .incomplete (some .unsteady) none false))).enterGroup st
    ⟨g, .incomplete, some .unsteady, (s.engine e).accepted, (s.engine e).discarded, none⟩

theorem closeUnsteady_eq (s : State) (st : Station) (e : EngineId) (g : Nat) : s.closeUnsteady st e g =
    if s.inExtended st g then ((s.unsteadyEntered st e g).freeEngine e).endExtended st
    else (s.unsteadyEntered st e g).freeEngine e := rfl

/-- A discarded revolution below the discard limit opens the next (R106). -/
theorem discardRevolution_opens {right : Bool} {a : AccelReading} (h : (s.engine e).discarded + 1 < l.spec.discardLimit) :
    s.discardRevolution st e l right a =
      (s.discardCounted st e right).modEngine e (fun x => x.openRevolution (s.accelValue st a)) := by
  refine if_neg ?_
  have := s.discardCounted_engine st e right e
  rw [if_pos rfl] at this
  simp only [discardCounted] at this
  rw [this]
  exact Nat.not_le.mpr h

/-- The discarded revolution that reaches the discard limit closes the group (R108). -/
theorem discardRevolution_closes {right : Bool} {a : AccelReading} (h : l.spec.discardLimit ≤ (s.engine e).discarded + 1) :
    s.discardRevolution st e l right a = (s.discardCounted st e right).closeUnsteady st e l.spec.group := by
  refine if_pos ?_
  have := s.discardCounted_engine st e right e
  rw [if_pos rfl] at this
  simp only [discardCounted] at this
  rw [this]
  exact h

theorem discardCounted_quiet (s : State) (st : Station) (e : EngineId) (right : Bool) : s.Quiet (s.discardCounted st e right) st := by
  constructor <;> simp [discardCounted]

theorem unsteadyEntered_quiet (s : State) (st : Station) (e : EngineId) (g : Nat) : s.Quiet (s.unsteadyEntered st e g) st := by
  constructor
  case heading =>
    simp only [unsteadyEntered, enterGroup, addGroupResult, modGroups_seq, modRecord_seq, PerStation.getElem_upd, if_true,
      Option.map_map]
    rfl
  all_goals simp +contextual [unsteadyEntered, enterGroup, addGroupResult, PerStation.getElem_upd, Ne.symm, Function.comp_def]

theorem freeEngine_quiet (s : State) (st : Station) (e : EngineId) : s.Quiet (s.freeEngine e) st := by
  constructor <;> simp

theorem line_addGroupResult (s : State) (st j : Station) (res : GroupResult) (g : Nat) :
    (s.addGroupResult st res).line j g = s.line j g := rfl

/-- The group closed UNSTEADY: its line, the record, the engine that passes on (R100, R108). -/
theorem unsteady_closes {r : Record} (hr : (s.ctx st).record = some r) (hline : s.line st g = some l) :
    let u := (s.unsteadyEntered st e g).freeEngine e
    s.PassesEngine u e
      ∧ (u.line st g).any (fun l => decide (l.status = .closed ∧ l.outcome = some .incomplete ∧ l.cause = some .unsteady)) = true
      ∧ (u.ctx st).record = some { r with groups := r.groups ++ [⟨g, .incomplete, some .unsteady, (s.engine e).accepted,
          (s.engine e).discarded, none⟩] }
      ∧ (u.ctx st).step = (s.ctx st).step := by
  have hentered : (s.unsteadyEntered st e g).line st g = some { l with
      status := .closed, outcome := some .incomplete, cause := some .unsteady, engine := none, entered := true } :=
    line_closed_entered hline .incomplete (some .unsteady) _ rfl
  have hrecord := groups_closed_entered hr (modLine g (fun l => l.close .incomplete (some .unsteady) none false))
    ⟨g, .incomplete, some .unsteady, (s.engine e).accepted, (s.engine e).discarded, none⟩
  obtain ⟨d, hfreed⟩ := freeEngine_line hentered e
  refine ⟨(freeEngine_passes _ e).before rfl (fun j h => ?_) (fun _ h => h), ?_, ?_, ?_⟩
  · by_cases hj : j = st
    · subst hj
      simp only [unsteadyEntered, enterGroup]
      rw [line_modGroups_any _ j h g (fun l => { l with entered := true }) (fun _ => rfl), line_addGroupResult,
        line_modGroups_any _ j h g (fun l => l.close .incomplete (some .unsteady) none false) (fun _ => rfl), Option.map_map,
        Option.map_map]
      refine congrFun (congrArg _ (funext fun k => ?_)) _
      by_cases hk : k.spec.group = g
      · simp [hk, GroupLine.close]
      · simp [hk]
    · rw [line_congr (s := s) j h (by simp [unsteadyEntered, enterGroup, PerStation.getElem_upd, Ne.symm hj])]
  · rw [hfreed]
    rfl
  · rw [← hrecord]
    simp [unsteadyEntered]
  · simp [unsteadyEntered, enterGroup, addGroupResult]

/-- A window of the group in EXTENDED (R61). -/
theorem inExtended_iff (hx : (s.ctx st).step = some x) : s.inExtended st g = true ↔
    ∃ d b k since, x.spec = .dwell d (some g) b k ∧ x.phase = .extended since := by
  obtain ⟨i, spec, phase, start, unmeasured⟩ := x
  unfold inExtended
  rw [hx]
  constructor
  · intro h
    split at h
    · rename_i hstep
      obtain ⟨-, rfl, rfl, -⟩ := StepCtx.mk.inj (Option.some.inj hstep)
      exact ⟨_, _, _, _, by rw [beq_iff_eq.mp h], rfl⟩
    · exact absurd h nofun
  · rintro ⟨d, b, k, since, rfl, rfl⟩
    exact beq_self_eq_true g

end State

/-- A discarded revolution before its group is closed: from `s`, only the counts of engine `e` and of the station have
changed, but for the shaft. -/
structure State.Discards (s u : State) (st : Station) (e : EngineId) (right : Bool) : Prop where
  ctx : u.ctx st = s.ctx st
  seq : u.seq = s.seq
  link : u.link = s.link
  queue : u.noise.queue = s.noise.queue
  lines : ∀ j g, u.line j g = s.line j g
  held : ∀ j, u.heldEngine j = s.heldEngine j
  engine : u.engine e = { s.engine e with discarded := (s.engine e).discarded + 1 }
  counts : u.counters.live.stations[st] = { s.counters.live.stations[st] with
    revsDiscarded := min (s.counters.live.stations[st].revsDiscarded + 1) 65535
    encoderFaults := if right then s.counters.live.stations[st].encoderFaults
      else min (s.counters.live.stations[st].encoderFaults + 1) 65535 }

theorem State.discards_discardCounted (s : State) (st : Station) (us : Fin 1000) (a : AccelReading) (e : EngineId) (right : Bool) :
    s.Discards ((s.takeIndex st us a).discardCounted st e right) st e right where
  ctx := by simp [State.discardCounted, State.ctx]
  seq := by simp [State.discardCounted]
  link := by simp [State.discardCounted]
  queue := by simp [State.discardCounted]
  lines j g := State.line_congr j g (by simp [State.discardCounted])
  held j := by
    cases e <;> rfl
  engine := by
    rw [State.discardCounted_engine, if_pos rfl, State.takeIndex_engine]
  counts := by simp [State.discardCounted, satAdd]

theorem State.inExtended_congr {s t : State} {st : Station} (h : t.ctx st = s.ctx st) (g : Nat) :
    t.inExtended st g = s.inExtended st g := by
  unfold State.inExtended
  rw [h]

/-- An engine given up to nobody keeps its sums (R97). -/
theorem State.freeEngine_bins {s : State} {e : EngineId} (hqueue : s.noise.queue = []) :
    ((s.freeEngine e).engine e).bins = (s.engine e).bins := by
  have hfree : s.freeEngine e = s.modEngine e Engine.release := by
    unfold State.freeEngine State.passEngine
    split
    · rename_i hhead
      rw [State.modEngine_queue, hqueue] at hhead
      exact absurd hhead nofun
    · rfl
  rw [hfree, State.engine_modEngine, if_pos rfl]
  rfl

/-- What the obligation says of the counters, from the counts of the discarded revolution and those of what closes. -/
theorem State.Discards.after {s u t : State} {st : Station} {e : EngineId} {net : Int} (h : s.Discards u st e (countFits net))
    (ht : u.SameRevs t st) :
    t.counters.live.stations[st].revsDiscarded = min (s.counters.live.stations[st].revsDiscarded + 1) 65535
      ∧ t.counters.live.stations[st].encoderFaults = (if net = 512 ∨ net = -512 then s.counters.live.stations[st].encoderFaults
          else min (s.counters.live.stations[st].encoderFaults + 1) 65535) := by
  simp only [ht.discarded, ht.faults, h.counts, countFits_iff, and_self]

/-- Settles O33. -/
theorem discardedRevolutionIsCounted : Obligations.DiscardedRevolutionIsCounted := by
  intro st us a s e g l t0 r hacc hopen hgroup hline hlast hfails hrecord
  have hjudged := State.judged_eq hacc hopen hgroup hline hlast us
  have hrejected : revolutionAccepted l.spec s.enc[st].net (s.closingPeriod t0 us) s.drive[st].target
      (s.quantity st .torque).held (s.engine e).samples = false := revolutionAccepted_eq_false hfails
  rw [hrejected] at hjudged
  have hindex : s.index st us a = (s.takeIndex st us a).discardRevolution st e l (countFits s.enc[st].net) a := by
    unfold State.index
    rw [hjudged]
    exact if_neg nofun
  have hdiscards := s.discards_discardCounted st us a e (countFits s.enc[st].net)
  have hquiet := (s.takeIndex st us a).discardCounted_quiet st e (countFits s.enc[st].net)
  by_cases hlimit : (s.engine e).discarded + 1 < l.spec.discardLimit
  · have hopens := hindex.trans (State.discardRevolution_opens (s := s.takeIndex st us a) hlimit)
    generalize (s.takeIndex st us a).discardCounted st e (countFits s.enc[st].net) = u at *
    have hlink : (s.index st us a).link = s.link := by
      rw [hopens, State.modEngine_link, hdiscards.link]
    have hexec := (exec_encoderIndex s st us a).trans (State.event_sameLink hlink)
    rw [hopens] at hexec
    have hrevs : u.SameRevs (u.modEngine e fun x => x.openRevolution ((s.takeIndex st us a).accelValue st a)) st :=
      .of_counters (by simp)
    refine ⟨_, hexec, ⟨(hdiscards.after hrevs).1, (hdiscards.after hrevs).2, fun _ => ?_⟩, fun _ => ?_, fun _ => ?_, fun h => ?_⟩
    · rw [State.modEngine_counters, hdiscards.counts]
      simp only [countFits_iff]
    · rw [State.engine_modEngine, if_pos rfl, hdiscards.engine]
      rfl
    · rw [State.engine_modEngine, if_pos rfl, hdiscards.engine]
      exact ⟨rfl, (State.state_of_accumulating hacc).2, (State.modEngine_seq ..).trans hdiscards.seq⟩
    · omega
  · have hcloses := hindex.trans (State.discardRevolution_closes (s := s.takeIndex st us a) (Nat.not_lt.mp hlimit))
    rw [State.line_group hline, State.closeUnsteady_eq, State.inExtended_congr (s := s) (hdiscards.ctx)] at hcloses
    generalize (s.takeIndex st us a).discardCounted st e (countFits s.enc[st].net) = u at *
    have hdue : s.groupUnsteadyDue st us = true := by simp [State.groupUnsteadyDue, hjudged, Nat.not_lt.mp hlimit]
    have hevent : exec (.groupUnsteady st us a) s = exec (.encoderIndex st us a) s :=
      (exec_groupUnsteady s st us a).trans ((eventWhen_taken (fun s => s.groupUnsteadyDue st us) (fun s => s.index st us a) s hdue).trans
        (exec_encoderIndex s st us a).symm)
    have hcounters : ((u.unsteadyEntered st e g).freeEngine e).counters = u.counters := by simp [State.unsteadyEntered]
    have hrevs := State.SameRevs.of_counters (st := st) (congrArg (fun c => c.live.stations) hcounters)
    have hentered := (u.unsteadyEntered_quiet st e g).trans ((u.unsteadyEntered st e g).freeEngine_quiet st e)
    obtain ⟨hpasses, hline', hrecord', hstep'⟩ := State.unsteady_closes (e := e) ((congrArg StationCtx.record hdiscards.ctx).trans hrecord)
      ((hdiscards.lines st g).trans hline)
    replace hpasses := hpasses.before hdiscards.queue (fun j h => by rw [hdiscards.lines]) fun j h => (hdiscards.held j).trans h
    rw [hdiscards.engine] at hrecord'
    rw [hdiscards.ctx] at hstep'
    have hfreed := State.freeEngine_bins (s := u.unsteadyEntered st e g) (e := e)
    have hlink : ((u.unsteadyEntered st e g).freeEngine e).link = s.link := by simp [State.unsteadyEntered, hdiscards.link]
    have hqueue : (u.unsteadyEntered st e g).noise.queue = s.noise.queue := hdiscards.queue
    have hbins : ((u.unsteadyEntered st e g).engine e).bins = (s.engine e).bins := by
      rw [← congrArg Engine.bins hdiscards.engine]
      cases e <;> rfl
    generalize (u.unsteadyEntered st e g).freeEngine e = v at *
    by_cases hext : s.inExtended st g = true
    · rw [if_pos hext] at hcloses
      have hexec := exec_encoderIndex s st us a
      have hends : exec (.encoderIndex st us a) s = .next (s.afterNotices (v.endExtended st)) := by
        rw [← hcloses]
        exact hexec
      have hcounted := hdiscards.after (t := s.afterNotices (v.endExtended st))
        ((hrevs.trans .endExtended).trans (.of_counters (by simp)))
      refine ⟨_, hends, ⟨hcounted.1, hcounted.2, fun h => ?_⟩, fun h => ?_, fun h => absurd h hlimit,
        fun _ => ⟨hevent.trans hends, fun h => ?_, fun x spec hruns _ hnext => ?_⟩⟩
      · rcases h with h | h
        · exact absurd h hlimit
        · exact absurd (hext.symm.trans h) nofun
      · rcases h with h | ⟨h, -⟩
        · exact absurd h hlimit
        · exact absurd (hext.symm.trans h) nofun
      · exact absurd (hext.symm.trans h) nofun
      · obtain ⟨d, b, k, since, hspec, hphase⟩ := (State.inExtended_iff hruns.step).mp hext
        have hx := hstep'.trans hruns.step
        have hquiet' := hquiet.trans hentered
        have hnext' : v.nextIs st x.index spec := by
          unfold State.nextIs at *
          rwa [State.recipe_of_test (s := s.takeIndex st us a) hquiet'.test]
        rw [State.endExtended_eq hx hphase, s.afterNotices_of_link (v.endStep st .done)
          ((State.endStep_link .done hx hnext').trans hlink)]
        refine ⟨?_, fun hplain => ?_⟩
        · have hon := (State.endStep_stepsOn v st .done x spec (hquiet'.state.trans hruns.running) hx hnext').after hquiet' (by
            rw [State.stepEntries, hrecord']
            exact (congrArg (Option.map Record.steps) hruns.record).symm)
          rwa [hspec] at hon
        · have hsame := State.endStep_sameTest .done hx hnext' hplain
          refine ⟨hpasses.of_noise hsame.noise, ?_, hsame.groups.trans ?_⟩
          · rw [State.line_congr st g (congrArg (fun n => n.groups[st.val]) hsame.noise)]
            exact hline'
          · rw [hrecord']
            rfl
    · rw [if_neg hext] at hcloses
      have hexec := (exec_encoderIndex s st us a).trans (State.event_sameLink (by rw [hcloses, hlink]))
      rw [hcloses] at hexec
      refine ⟨v, hexec, ⟨(hdiscards.after hrevs).1, (hdiscards.after hrevs).2, fun _ => ?_⟩, fun h => ?_, fun h => absurd h hlimit,
        fun _ => ⟨hevent.trans hexec, fun _ => ⟨⟨hpasses, hline', ?_⟩, hstep', ?_⟩, fun x spec _ h => absurd h hext⟩⟩
      · rw [hcounters, hdiscards.counts]
        simp only [countFits_iff]
      · rcases h with h | ⟨-, hempty⟩
        · exact absurd h hlimit
        · exact (hfreed (hqueue.trans hempty)).trans hbins
      · rw [hrecord']
        rfl
      · rw [hrecord']
        rfl

end Sys2Proof.Machine
end

section
/-! PROOFS. The completion of an engine (R117, R120). -/

namespace Sys2Proof.Machine

open Sys2Proof

set_option Elab.async false

namespace State

variable {s t u : State} {st : Station} {e : EngineId} {g h : Nat} {l : GroupLine} {r : Record} {x : StepCtx}

/-! ### What a completion delivers (R116, R117) -/

/-- The group's result in the record and its line closed, the engine still held. -/
theorem deliver_record {res : GroupResult} (hr : (s.ctx st).record = some r) :
    ((s.deliver st res).ctx st).record = some { r with groups := r.groups ++ [res] } := by
  simp only [ctx, Fin.getElem_fin] at hr
  simp [deliver, addGroupResult, hr]

theorem deliver_line {res : GroupResult} (hline : s.line st res.group = some l) :
    (s.deliver st res).line st res.group = some (l.close res.outcome res.cause none true) := by
  refine (line_addGroupResult ..).trans ?_
  rw [line_modGroups s st res.group (fun l => l.close res.outcome res.cause none true) (fun _ => rfl), hline]
  rfl

theorem deliver_line_other {res : GroupResult} (hgroup : h ≠ res.group) : (s.deliver st res).line st h = s.line st h := by
  refine (line_addGroupResult ..).trans ?_
  rw [line_modGroups_any s st h res.group (fun l => l.close res.outcome res.cause none true) (fun _ => rfl)]
  cases hline : s.line st h with
  | none => rfl
  | some k =>
    rw [Option.map_some, if_neg]
    rw [line_group hline]
    exact hgroup

theorem deliver_specs (res : GroupResult) (j : Station) (h : Nat) :
    ((s.deliver st res).line j h).map GroupLine.spec = (s.line j h).map GroupLine.spec := by
  by_cases hj : j = st
  · subst hj
    refine (congrArg _ (line_addGroupResult ..)).trans ?_
    rw [line_modGroups_any s j h res.group (fun l => l.close res.outcome res.cause none true) (fun _ => rfl), Option.map_map]
    refine congrFun (congrArg _ (funext fun k => ?_)) _
    by_cases hk : k.spec.group = res.group
    · simp [hk, GroupLine.close]
    · simp [hk]
  · refine congrArg _ (line_congr j h ?_)
    simp [deliver, Ne.symm hj]

theorem deliver_quiet (s : State) (st : Station) (res : GroupResult) : s.Quiet (s.deliver st res) st := by
  constructor
  case heading =>
    simp only [deliver, addGroupResult, modGroups_seq, modRecord_seq, PerStation.getElem_upd, if_true, Option.map_map]
    rfl
  all_goals simp +contextual [deliver, addGroupResult, PerStation.getElem_upd, Ne.symm, Function.comp_def]

/-- The engine that delivered passes on (R100, R117). -/
theorem deliver_passes (res : GroupResult) : s.PassesEngine ((s.deliver st res).freeEngine e) e :=
  (freeEngine_passes _ e).before rfl (deliver_specs res) fun _ h => h

theorem delivered_eq (x : Engine) (l : GroupLine) : delivered x l = ⟨l.spec.group,
    if l.status = .closed then .incomplete
      else if figuresPass l.spec (groupFigures x.bins x.accepted l.spec.orders) then .pass else .fail,
    if l.status = .closed then some .short else none, x.accepted, x.discarded,
    some (groupFigures x.bins x.accepted l.spec.orders)⟩ := by
  unfold delivered
  cases l.status <;> rfl

/-! ### The completion in its cases (R117, R120) -/

/-- The state in which a result has been delivered and its engine is FREE, before it passes on (R117). -/
def handedIn (s : State) (st : Station) (e : EngineId) (res : GroupResult) : State :=
  (s.deliver st res).modEngine e Engine.release

theorem handedIn_quiet (s : State) (st : Station) (e : EngineId) (res : GroupResult) : s.Quiet (s.handedIn st e res) st :=
  (deliver_quiet s st res).trans (by constructor <;> simp [handedIn])

section

variable (hholder : (s.engine e).holder = some st) (hgroup : (s.engine e).group = some g)

include hholder hgroup

/-- The completion of a holder RUNNING the test that began it (R117). -/
theorem completion_delivers (hline : s.line st g = some l) (hrunning : s.stateOf st = .running)
    (hkept : (s.engine e).abandoned = false) : s.completion e =
    if (delivered (s.engine e) l).outcome = .fail ∧ s.stopOnFail st then
      ((if s.inExtended st g then (s.handedIn st e (delivered (s.engine e) l)).finishStep st .done none
        else s.handedIn st e (delivered (s.engine e) l)).enterStopping st none false).passEngine e
    else if s.inExtended st g then
      (((s.deliver st (delivered (s.engine e) l)).freeEngine e).deferredClaim st).endExtended st
    else ((s.deliver st (delivered (s.engine e) l)).freeEngine e).deferredClaim st := by
  have hstop : (s.handedIn st e (delivered (s.engine e) l)).stopOnFail st = s.stopOnFail st :=
    (s.handedIn_quiet st e _).stopOnFail
  unfold completion
  simp only [hholder, hgroup, Option.bind_some, hline, hrunning, hkept, Bool.not_false, and_self, if_true, line_group hline]
  rw [← hstop]
  rfl

/-- The completion whose result is discarded (R120). -/
theorem completion_discards (h : s.stateOf st ≠ .running ∨ (s.engine e).abandoned = true ∨ s.line st g = none) :
    s.completion e = (s.freeEngine e).deferredClaim st := by
  unfold completion
  simp only [hholder, hgroup, Option.bind_some]
  cases hline : s.line st g with
  | none => rfl
  | some l =>
    refine if_neg fun ⟨hrunning, hkept⟩ => ?_
    rw [hline] at h
    rcases h with h | h | h
    · exact h hrunning
    · rw [h] at hkept
      exact absurd hkept nofun
    · exact absurd h nofun

end

/-- A station without a deferred claim makes none (R101). -/
theorem deferredClaim_eq_self (hdeferred : s.noise.deferred[st] = none) : s.deferredClaim st = s := by
  unfold deferredClaim
  rw [hdeferred]

theorem freeEngine_deferred (s : State) (e : EngineId) : (s.freeEngine e).noise.deferred = s.noise.deferred := by
  unfold freeEngine passEngine
  split
  · unfold grantEngine
    split <;> simp
  · simp

/-- A COMPUTING engine may complete from 1 ms on (R117). -/
theorem completionDue_of {since : LineTime} (hcomputing : (s.engine e).state = .computing since) (helapsed : 1 ≤ elapsed since s.now) :
    s.completionDue e = true := by
  unfold completionDue
  rw [hcomputing]
  exact decide_eq_true helapsed

/-! ### A result delivered (R117) -/

/-- What a delivered result leaves when the engine has passed on (R100, R117). -/
structure HandsIn (s v : State) (st : Station) (e : EngineId) (l : GroupLine) (r : Record) (res : GroupResult) : Prop where
  passes : s.PassesEngine v e
  line : ∃ d, v.line st res.group = some { l.close res.outcome res.cause none true with engine := d }
  record : (v.ctx st).record = some { r with groups := r.groups ++ [res] }
  step : (v.ctx st).step = (s.ctx st).step
  quiet : s.Quiet v st
  link : v.link = s.link
  deferred : v.noise.deferred = s.noise.deferred

theorem handsIn {res : GroupResult} (hline : s.line st res.group = some l) (hr : (s.ctx st).record = some r) :
    s.HandsIn ((s.deliver st res).freeEngine e) st e l r res where
  passes := deliver_passes res
  line := freeEngine_line (deliver_line hline) e
  record := by
    rw [← deliver_record (res := res) hr]
    simp
  step := by simp [deliver, addGroupResult]
  quiet := (deliver_quiet s st res).trans (freeEngine_quiet _ st e)
  link := by simp
  deferred := by
    rw [freeEngine_deferred]
    simp [deliver, addGroupResult]

theorem HandsIn.closes {v : State} {res : GroupResult} (h : s.HandsIn v st e l r res) :
    (v.line st res.group).any (fun k => decide (k.status = .closed ∧ k.outcome = some res.outcome ∧ k.entered = true)) = true := by
  obtain ⟨d, hd⟩ := h.line
  rw [hd]
  simp [GroupLine.close]

/-- The same, seen after a step that is no window has begun. -/
theorem HandsIn.sameTest {v w : State} {res : GroupResult} (h : s.HandsIn v st e l r res) (hw : v.SameTest w st) :
    s.PassesEngine w e
      ∧ (w.line st res.group).any (fun k => decide (k.status = .closed ∧ k.outcome = some res.outcome ∧ k.entered = true)) = true
      ∧ (w.ctx st).record.map Record.groups = some (r.groups ++ [res]) := by
  refine ⟨h.passes.of_noise hw.noise, ?_, hw.groups.trans (by rw [h.record]; rfl)⟩
  rw [line_congr st _ (congrArg (fun n => n.groups[st.val]) hw.noise)]
  exact h.closes

/-! ### A failed group under stop-on-fail (R7, R119) -/

theorem modLine_filter (g : Nat) (f : GroupLine → GroupLine) (hf : ∀ l, (f l).spec = l.spec) (ls : List GroupLine) :
    (modLine g f ls).filter (fun m => m.spec.group != g) = ls.filter (fun m => m.spec.group != g) := by
  induction ls with
  | nil => rfl
  | cons l rest ih =>
    rw [modLine] at ih
    by_cases hl : l.spec.group = g
    · simp [modLine, hl, hf, ih]
    · simp [modLine, hl, ih]

/-- R119's results depend on the counts of the engines alone. -/
theorem exitResult_counts (haccepted : ∀ d, (t.engine d).accepted = (s.engine d).accepted)
    (hdiscarded : ∀ d, (t.engine d).discarded = (s.engine d).discarded) (l : GroupLine) : t.exitResult l = s.exitResult l := by
  unfold exitResult
  cases l.engine with
  | none => rfl
  | some e => simp only [haccepted, hdiscarded]

/-- The other groups' results at the exit that a failed group causes (R119). -/
theorem handedIn_settles (s : State) (st : Station) (e : EngineId) (res : GroupResult) : ∃ ls : List GroupLine,
    ls.Perm (s.noise.groups[st].filter (fun m => m.spec.group != res.group))
      ∧ ls.Pairwise (fun a b => a.windows.first ≤ b.windows.first)
      ∧ (byFirstWindow (s.handedIn st e res).noise.groups[st]).filterMap (s.handedIn st e res).exitResult = ls.filterMap s.exitResult := by
  have hgroups : (s.handedIn st e res).noise.groups[st] =
      modLine res.group (fun l => l.close res.outcome res.cause none true) s.noise.groups[st] := by
    simp [handedIn, deliver, addGroupResult]
  have hengine : ∀ d, (s.handedIn st e res).engine d = if d = e then (s.engine e).release else s.engine d := fun d => by
    rw [handedIn, engine_modEngine]
    cases d <;> cases e <;> rfl
  have hresults : (s.handedIn st e res).exitResult = s.exitResult := funext fun l => by
    refine exitResult_counts (fun d => ?_) (fun d => ?_) l
    all_goals
      rw [hengine]
      split
      · subst_vars
        rfl
      · rfl
  obtain ⟨hperm, hsorted⟩ := byFirstWindow_spec (modLine res.group (fun l => l.close res.outcome res.cause none true) s.noise.groups[st])
  rw [hgroups, hresults]
  refine ⟨(byFirstWindow (modLine res.group (fun l => l.close res.outcome res.cause none true) s.noise.groups[st])).filter
    (fun m => m.spec.group != res.group), ?_, hsorted.filter _, ?_⟩
  · exact (hperm.filter _).trans (.of_eq
      (modLine_filter res.group (fun l => l.close res.outcome res.cause none true) (fun _ => rfl) _))
  · rw [List.filterMap_filter]
    refine List.filterMap_congr fun m hm => ?_
    by_cases hgroup : m.spec.group = res.group
    · obtain ⟨k, -, rfl⟩ := List.mem_map.mp (hperm.mem_iff.mp hm)
      have hk : k.spec.group = res.group := by
        dsimp only at hgroup
        split at hgroup <;> exact hgroup
      simp [hk, GroupLine.close, exitResult]
    · simp [hgroup]

/-- The exit from RUNNING of a station that holds no engine and does not wait: engines and queue stay, the groups' specs
too (R119). -/
theorem enterStopping_unheld (hheld : s.heldEngine st = none) (hwaits : s.waiting st = false) (cause : Option AbortCause)
    (drop : Bool) : (∀ d, (s.enterStopping st cause drop).engine d = s.engine d)
      ∧ (s.enterStopping st cause drop).noise.queue = s.noise.queue
      ∧ ∀ j h, ((s.enterStopping st cause drop).line j h).map GroupLine.spec = (s.line j h).map GroupLine.spec := by
  have hclosed := s.closeStep_noise st
  have hnoise : (s.enterStopping st cause drop).noise = ((s.closeStep st).settleGroups st).noise := by
    rw [enterStopping_noise, leaveRunning, noiseExit_eq, heldEngine, hclosed]
    rw [heldEngine] at hheld
    rw [hheld]
    have hwaits' : (s.closeStep st).waiting st = false := by
      unfold waiting waitsForEngine at *
      rwa [hclosed]
    simp [waitEnded, hwaits']
  refine ⟨fun d => ?_, ?_, fun j h => ?_⟩
  · rw [engine_congr hnoise, settleGroups_engine, engine_congr hclosed]
  · rw [hnoise, settleGroups_queue, hclosed]
  · by_cases hj : j = st
    · subst hj
      have hspec : ∀ m, ((s.closeStep j).settledLine m).spec = m.spec := fun m => by
        unfold settledLine
        split <;> rfl
      have hgroups : (s.enterStopping j cause drop).noise.groups[j] = s.noise.groups[j].map (s.closeStep j).settledLine := by
        rw [hnoise]
        simp [settleGroups]
      unfold line
      rw [hgroups, List.find?_map, Option.map_map]
      have hfun : (fun l : GroupLine => l.spec.group == h) ∘ (s.closeStep j).settledLine = fun l => l.spec.group == h :=
        funext fun m => by simp [hspec]
      rw [hfun]
      exact congrFun (congrArg _ (funext fun m => hspec m)) _
    · refine congrArg _ (line_congr j h ?_)
      rw [hnoise]
      simp [settleGroups, Ne.symm hj]

/-- An engine that passes on after an entry to STOPPING leaves it one (R7, R117). -/
theorem EntersStopping.passEngine {cause : Option AbortCause} {drop : Bool} (h : s.EntersStopping t st cause drop) :
    s.EntersStopping (t.passEngine e) st cause drop := by
  obtain ⟨hqueue, hdeferred, hgroups, hothers, hpassed⟩ := passEngine_other t e st h.engineQueue
  have hctx : (t.passEngine e).ctx st = t.ctx st := by simp [ctx]
  have hleak := passEngine_leak t e
  constructor
  case state => exact (congrArg StationCtx.state hctx).trans h.state
  case start => rw [hctx]; exact h.start
  case step => rw [hctx]; exact h.step
  case test => rw [hctx]; exact h.test
  case cause => rw [hctx]; exact h.cause
  case drive => rw [passEngine_drive]; exact h.drive
  case changed => rw [passEngine_counters]; exact h.changed
  case others => exact fun j hj => by simpa using h.others j hj
  case line => exact ⟨by simp [h.line.clock], by simp [h.line.pins], by simp [h.line.config], by simp [h.line.enc], by simp [h.line.cond]⟩
  case store => rw [passEngine_store]; exact h.store
  case table => rw [passEngine_table]; exact h.table
  case monitor => rw [passEngine_mon]; exact h.monitor
  case engineQueue => exact hqueue
  case deferred => rw [hdeferred]; exact h.deferred
  case engine =>
    intro d hd hholder
    by_cases hde : d = e
    · subst hde
      rcases hpassed with hsame | hother
      · rw [hsame] at hholder ⊢
        exact h.engine d hd hholder
      · exact absurd hholder hother
    · rw [hothers d hde] at hholder ⊢
      exact h.engine d hd hholder
  case groups =>
    have := h.groups
    simp only [Fin.getElem_fin] at this ⊢
    rwa [hgroups]
  case supply =>
    simp only [circuit, hleak]
    exact h.supply

/-- An exit from RUNNING with no step in progress (R54, R119). -/
theorem leaveRunning_record_idle (hx : (s.ctx st).step = none) (hr : (s.ctx st).record = some r) :
    ((s.leaveRunning st).ctx st).record = some (s.settledRecord st r) := by
  have hclosed : s.closeStep st = s := by
    unfold closeStep
    rw [hx]
  rw [leaveRunning, hclosed]
  exact noiseExit_record hr

/-- The state from which a failed group takes its station to STOPPING: the result delivered, a window of the group in EXTENDED
ended DONE (R7, R61). -/
def failedIn (s : State) (st : Station) (e : EngineId) (res : GroupResult) : State :=
  if s.inExtended st res.group then (s.handedIn st e res).finishStep st .done none else s.handedIn st e res

section

variable {res : GroupResult}

theorem failedIn_noise (s : State) (st : Station) (e : EngineId) (res : GroupResult) :
    (s.failedIn st e res).noise = (s.handedIn st e res).noise := by
  unfold failedIn
  split <;> simp

theorem failedIn_quiet (s : State) (st : Station) (e : EngineId) (res : GroupResult) : s.Quiet (s.failedIn st e res) st := by
  unfold failedIn
  split
  · exact (handedIn_quiet s st e res).trans (finishStep_quiet ..)
  · exact handedIn_quiet s st e res

theorem handedIn_record (hr : (s.ctx st).record = some r) :
    ((s.handedIn st e res).ctx st).record = some { r with groups := r.groups ++ [res] } := by
  rw [← deliver_record (res := res) hr]
  simp [handedIn]

/-- The record after the exit from RUNNING that a failed group causes (R54, R119). -/
theorem failedIn_leaves (hx : (s.ctx st).step = some x) (hr : (s.ctx st).record = some r) :
    (((s.failedIn st e res).leaveRunning st).ctx st).record = some ((s.handedIn st e res).settledRecord st { r with
      groups := r.groups ++ [res]
      steps := r.steps ++ [if s.inExtended st res.group then ⟨x.index, .dwell, .done, none⟩ else s.exitEntry st x] }) := by
  have hx' : ((s.handedIn st e res).ctx st).step = some x := by
    rw [← hx]
    simp [handedIn, deliver, addGroupResult, ctx]
  have hr' := handedIn_record (e := e) (res := res) hr
  unfold failedIn
  split
  · rename_i hext
    obtain ⟨d, b, k, since, hspec, -⟩ := (inExtended_iff hx).mp hext
    have hnoise : ((s.handedIn st e res).finishStep st .done none).noise = (s.handedIn st e res).noise := by simp
    have hrecord : (((s.handedIn st e res).finishStep st .done none).ctx st).record = some { r with
        groups := r.groups ++ [res], steps := r.steps ++ [⟨x.index, x.spec.kind, .done, none⟩] } := by
      simp only [ctx, Fin.getElem_fin] at hr'
      rw [finishStep_eq _ _ _ _ _ hx']
      simp [addStepEntry, hr']
    rw [leaveRunning_record_idle (finishStep_step ..) hrecord, hspec]
    unfold settledRecord waiting waitsForEngine
    rw [funext fun l => exitResult_congr (engine_congr hnoise) l, hnoise]
    rfl
  · rw [leaveRunning_record hx' hr']
    simp [exitEntry, circuit, handedIn, deliver, addGroupResult]

variable (hholder : (s.engine e).holder = some st) (honly : ∀ d, d ≠ e → (s.engine d).holder ≠ some st)
  (hwaits : s.waiting st = false)

include hholder honly hwaits

/-- A failed group under stop-on-fail takes the station to STOPPING, and its engine passes on (R7, R100, R117). -/
theorem failedIn_stops (res : GroupResult) :
    s.EntersStopping (((s.failedIn st e res).enterStopping st none false).passEngine e) st none false
      ∧ s.PassesEngine (((s.failedIn st e res).enterStopping st none false).passEngine e) e
      ∧ (((s.failedIn st e res).enterStopping st none false).passEngine e).link = s.link := by
  have hengine : ∀ d, (s.failedIn st e res).engine d = if d = e then (s.engine e).release else s.engine d := fun d => by
    rw [engine_congr (s.failedIn_noise st e res), handedIn, engine_modEngine]
    cases d <;> cases e <;> rfl
  have hheld : (s.failedIn st e res).heldEngine st = none := heldEngine_eq_none fun d => by
    rw [hengine]
    split
    · exact nofun
    · exact honly d (by assumption)
  have hwaits' : (s.failedIn st e res).waiting st = false := by
    unfold waiting waitsForEngine at *
    rw [failedIn_noise]
    simpa [handedIn, deliver, addGroupResult] using hwaits
  obtain ⟨hengines, hqueue, hspecs⟩ := enterStopping_unheld hheld hwaits' none false
  have hreleased : ((s.failedIn st e res).enterStopping st none false).engine e = (s.engine e).release := by
    rw [hengines, hengine, if_pos rfl]
  refine ⟨((enterStopping_entersStopping _ st none false).after (s.failedIn_quiet st e res) ?_ fun d hd => ?_).passEngine, ?_, ?_⟩
  · unfold failedIn
    split <;> simp [handedIn]
  · refine .inr ?_
    rw [hengines, hengine]
    split
    · exact nofun
    · exact honly d (by assumption)
  · refine (passEngine_passes _ e (by rw [hreleased]; rfl) (by rw [hreleased]; rfl)).before (hqueue.trans ?_) (fun j h => ?_) fun j hj => ?_
    · rw [failedIn_noise]
      simp [handedIn, deliver, addGroupResult]
    · rw [hspecs, line_congr j h (congrArg (fun n => n.groups[j.val]) (s.failedIn_noise st e res)), handedIn, line_modEngine,
        deliver_specs]
    · refine heldEngine_eq_none fun d => ?_
      rw [hengines, hengine]
      split
      · exact nofun
      · exact holder_ne_of_heldEngine_eq_none hj d
  · rw [passEngine_link, enterStopping_link]
    unfold failedIn
    split <;> simp [handedIn]

end

end State
end Sys2Proof.Machine
end

section
/-! PROOFS. Deferred claims after a completion (R101): no claim is deferred behind an engine that no longer computes. -/

namespace Sys2Proof.Machine

open Sys2Proof

set_option Elab.async false

namespace State

variable {s t u : State} {st : Station} {e : EngineId} {g h : Nat} {l : GroupLine} {r : Record} {x : StepCtx}

/-- The engine a station holds is held by it. -/
theorem holder_of_heldEngine (hheld : s.heldEngine st = some e) : (s.engine e).holder = some st := by
  unfold heldEngine at hheld
  split at hheld
  · obtain rfl := Option.some.inj hheld
    assumption
  · split at hheld
    · obtain rfl := Option.some.inj hheld
      assumption
    · exact absurd hheld nofun

/-- No engine computes for the station. -/
def Uncomputing (s : State) (st : Station) : Prop := ∀ d, (s.engine d).holder = some st → (s.engine d).isComputing = false

theorem Uncomputing.of_engines (hs : s.Uncomputing st) (ht : ∀ d, t.engine d = s.engine d) : t.Uncomputing st := fun d hd => by
  rw [ht] at hd ⊢
  exact hs d hd

/-- A grant computes for nobody. -/
theorem Uncomputing.grantEngine (hs : s.Uncomputing st) (e : EngineId) (j : Station) (g : Nat) :
    (s.grantEngine e j g).Uncomputing st := by
  unfold State.grantEngine
  split
  · exact hs
  · exact hs
  · intro d hd
    rw [modGroups_engine, engine_modEngine] at hd ⊢
    split at hd
    · rw [if_pos (by assumption)]
      rfl
    · rw [if_neg (by assumption)]
      exact hs d hd

theorem Uncomputing.claimEngine (hs : s.Uncomputing st) (g : Nat) : (s.claimEngine st g).Uncomputing st := by
  unfold State.claimEngine
  split
  · exact hs.grantEngine _ _ _
  · split
    · exact hs.grantEngine _ _ _
    · split
      · exact hs.of_engines fun d => by
          rw [(unmeasured_noise _ st g).1]
          cases d <;> rfl
      · exact hs.of_engines fun d => by cases d <;> rfl

theorem Uncomputing.passEngine (hs : s.Uncomputing st) (e : EngineId) : (s.passEngine e).Uncomputing st := by
  unfold State.passEngine
  split
  · exact Uncomputing.grantEngine (hs.of_engines fun d => by cases d <;> rfl) _ _ _
  · exact hs

/-- An engine given up computes for nobody. -/
theorem uncomputing_freeEngine (honly : ∀ d, d ≠ e → (s.engine d).holder ≠ some st) : (s.freeEngine e).Uncomputing st := by
  refine Uncomputing.passEngine (fun d hd => ?_) e
  rw [engine_modEngine] at hd ⊢
  split at hd
  · exact absurd hd nofun
  · exact absurd hd (honly d (by assumption))

theorem grantEngine_deferred (s : State) (e : EngineId) (j : Station) (g : Nat) :
    (s.grantEngine e j g).noise.deferred = s.noise.deferred := by
  unfold grantEngine
  split <;> simp

theorem claimEngine_deferred (s : State) (g : Nat) : (s.claimEngine st g).noise.deferred = s.noise.deferred := by
  unfold claimEngine
  split
  · exact grantEngine_deferred ..
  · split
    · exact grantEngine_deferred ..
    · split
      · rw [(unmeasured_noise _ st g).2.2]
        rfl
      · rfl

/-- A window that begins defers no claim when no engine computes for the station (R101). -/
theorem Uncomputing.windowStart_deferred (hs : s.Uncomputing st) (g : Nat) :
    (s.windowStart st g).noise.deferred = s.noise.deferred := by
  unfold State.windowStart
  split
  · rfl
  · split
    · rfl
    · have hclaims : ((s.modGroups st (modLine g fun l => { l with status := .opened })).claimEngine st g).noise.deferred
          = s.noise.deferred := (claimEngine_deferred ..).trans rfl
      dsimp only
      split
      · split
        · simp
        · split
          · rfl
          · exact hclaims
      · split
        · rename_i d hheld
          have hnot := hs d (holder_of_heldEngine hheld)
          rw [if_neg]
          · exact hclaims
          · rw [modGroups_engine, hnot]
            exact nofun
        · exact hclaims

/-- A step that ends leaves the station without a deferred claim, when no engine computes for it (R101). -/
theorem Uncomputing.endStep_deferred (hs : s.Uncomputing st) (hd : s.noise.deferred[st.val] = none) (o : StepOutcome) :
    (s.endStep st o).noise.deferred[st.val] = none := by
  unfold State.endStep
  split
  · exact hd
  · have hs' : (s.finishStep st o none).Uncomputing st := hs.of_engines (engine_congr (by simp))
    have hd' : (s.finishStep st o none).noise.deferred[st.val] = none := by rw [finishStep_noise, hd]
    generalize s.finishStep st o none = t at hs' hd'
    unfold State.nextStep
    split
    · rename_i spec _
      unfold State.beginStep
      cases spec with
      | dwell d w b k =>
        cases w with
        | none => simpa using hd'
        | some g =>
          simp only
          rw [Uncomputing.windowStart_deferred]
          · simpa using hd'
          · exact hs'.of_engines fun d => by cases d <;> rfl
      | _ => simpa using hd'
    · unfold State.chainEnd
      split
      · simp only [offerRecord_noise, enterCompleting_noise]
        exact ((t.closeStep st).noiseExit_givenUp st).deferred
      · exact (t.enterStopping_noiseGivenUp st none false).deferred

/-- A deferred claim that is made is dropped (R101). -/
theorem Uncomputing.deferredClaim_deferred (hs : s.Uncomputing st) : (s.deferredClaim st).noise.deferred[st] = none := by
  cases hd : s.noise.deferred[st] with
  | none => rwa [deferredClaim_eq_self hd]
  | some g =>
    have hclaims : (s.claimed st g).Uncomputing st := Uncomputing.claimEngine (hs.of_engines fun d => by rw [setDeferred_engine]) g
    have hdropped : (s.claimed st g).noise.deferred[st.val] = none := by
      rw [claimed, claimEngine_deferred]
      simp
    rw [deferredClaim_eq hd]
    split
    · unfold endExtended
      split
      · exact hclaims.endStep_deferred hdropped .done
      · exact hdropped
    · exact hdropped

/-- What an engine given up leaves of the other one. -/
theorem freeEngine_engine_other {d : EngineId} (hd : d ≠ e) : (s.freeEngine e).engine d = s.engine d := by
  unfold freeEngine passEngine
  split
  · unfold grantEngine
    split
    · exact (engine_modEngine ..).trans (if_neg hd)
    · exact (engine_modEngine ..).trans (if_neg hd)
    · rw [modGroups_engine, engine_modEngine, if_neg hd]
      exact (engine_modEngine ..).trans (if_neg hd)
  · rw [engine_modEngine, if_neg hd]

theorem freeEngine_eq (hqueue : s.noise.queue = []) : s.freeEngine e = s.modEngine e Engine.release := by
  unfold freeEngine passEngine
  split
  · rename_i hhead
    rw [modEngine_queue, hqueue] at hhead
    exact absurd hhead nofun
  · rfl

section

variable {k : GroupLine} (honly : ∀ d, d ≠ e → (s.engine d).holder ≠ some st) (hdeferred : s.noise.deferred[st] = some h)

include hdeferred

theorem freeEngine_deferred_some : (s.freeEngine e).noise.deferred[st] = some h := by
  rw [freeEngine_deferred]
  exact hdeferred

/-- A claim that need not expire leaves the stations' contexts (R101). -/
theorem freeEngine_deferredClaim_seq (hlimit : s.config.waitLimit ≠ 0) : ((s.freeEngine e).deferredClaim st).seq = s.seq := by
  have hseq : ((s.freeEngine e).claimed st h).seq = (s.freeEngine e).seq :=
    (claimEngine_seq _ st h (.inl (by simpa using hlimit))).trans (by simp)
  rw [deferredClaim_claimed (freeEngine_deferred_some hdeferred) hseq, hseq, freeEngine_seq]

include honly in
/-- With nobody waiting, the claim takes the engine given up or engine A (R99, R101). -/
theorem freeEngine_deferredClaim_grants (hline : s.line st h = some k) (hqueue : s.noise.queue = []) :
    let d := if e = .a ∨ s.noise.engineA.state = .free then EngineId.a else .b
    (((s.freeEngine e).deferredClaim st).engine d).Granted st k.spec
      ∧ (((s.freeEngine e).deferredClaim st).line st h).bind GroupLine.engine = some d := by
  intro d
  have hfreed := freeEngine_eq (e := e) hqueue
  have hengine : ∀ d, (s.freeEngine e).engine d = if d = e then (s.engine e).release else s.engine d := fun d => by
    rw [hfreed, engine_modEngine]
  have hheld : (s.freeEngine e).heldEngine st = none := heldEngine_eq_none fun d => by
    rw [hengine]
    split
    · exact nofun
    · exact honly d (by assumption)
  have hline' : (s.freeEngine e).line st h = some k := by rw [hfreed, line_modEngine, hline]
  have hfree : ((s.freeEngine e).engine d).state = .free := by
    rw [hengine]
    split
    · rfl
    · rename_i hde
      by_cases ha : e = .a ∨ s.noise.engineA.state = .free
      · rw [show d = .a from if_pos ha] at hde ⊢
        exact ha.resolve_left (Ne.symm hde)
      · rw [show d = .b from if_neg ha] at hde
        cases e with
        | a => exact absurd (.inl rfl) ha
        | b => exact absurd rfl hde
  have hfirst : d = .b → (s.freeEngine e).noise.engineA.state ≠ .free := fun hd => by
    have ha : ¬(e = .a ∨ s.noise.engineA.state = .free) := fun ha => absurd ((if_pos ha).symm.trans hd) nofun
    have := hengine .a
    rw [if_neg (fun h => ha (.inl h.symm))] at this
    exact fun hA => ha (.inr ((congrArg Engine.state this).symm.trans hA))
  obtain ⟨hgranted, -, -, -, hnamed, hseq⟩ := claimed_grants hheld hline' hfree hfirst
  rw [deferredClaim_claimed (freeEngine_deferred_some hdeferred) hseq]
  exact ⟨hgranted, by rw [hnamed]; rfl⟩

/-- With a station waiting, the engine given up goes to it, and the claim, with no engine FREE, to the tail of the queue
(R100, R101). -/
theorem freeEngine_deferredClaim_waits {w : EngineWait} {rest : List EngineWait} (hqueue : s.noise.queue = w :: rest)
    (hline : s.line w.station w.group = some k) (hheld : s.heldEngine w.station = none)
    (hbusy : ∀ d, d ≠ e → (s.engine d).state ≠ .free) (hlimit : s.config.waitLimit ≠ 0) :
    (((s.freeEngine e).deferredClaim st).engine e).Granted w.station k.spec
      ∧ ((s.freeEngine e).deferredClaim st).noise.queue = rest ++ [⟨st, h, s.now, s.config.waitLimit⟩] := by
  obtain ⟨hgranted, hrest⟩ := (freeEngine_passes s e).head w rest k hqueue hline hheld
  have hstates : ∀ d, ((s.freeEngine e).engine d).state ≠ .free := fun d => by
    by_cases hd : d = e
    · rw [hd, hgranted.state]
      exact nofun
    · rw [freeEngine_engine_other hd]
      exact hbusy d hd
  have hclaimed : (s.freeEngine e).claimed st h = { s.freeEngine e with noise := { (s.freeEngine e).noise with
      deferred := (s.freeEngine e).noise.deferred.upd st (fun _ => none)
      queue := (s.freeEngine e).noise.queue ++ [⟨st, h, s.now, s.config.waitLimit⟩] } } := by
    rw [claimed, claimEngine_waits _ st h fun d => by rw [setDeferred_engine]; exact hstates d]
    refine (if_neg (by simpa using hlimit)).trans ?_
    simp [setDeferred, now]
  have hseq : ((s.freeEngine e).claimed st h).seq = (s.freeEngine e).seq := by rw [hclaimed]
  rw [deferredClaim_claimed (freeEngine_deferred_some hdeferred) hseq, hclaimed, ← hrest]
  refine ⟨?_, rfl⟩
  have hsame : ∀ d, ({ s.freeEngine e with noise := { (s.freeEngine e).noise with
      deferred := (s.freeEngine e).noise.deferred.upd st (fun _ => none)
      queue := (s.freeEngine e).noise.queue ++ [⟨st, h, s.now, s.config.waitLimit⟩] } } : State).engine d
      = (s.freeEngine e).engine d := fun d => by cases d <;> rfl
  rw [hsame]
  exact hgranted

end

end State
end Sys2Proof.Machine
end

section
/-! PROOFS. The completion of an engine, settled (R116, R117, R120). -/

namespace Sys2Proof.Machine

open Sys2Proof

set_option Elab.async false

namespace State

variable {s t u : State} {st : Station} {e : EngineId} {g h : Nat} {l : GroupLine} {r : Record} {x : StepCtx}

/-- From `s`, a result of another group than `h` may have been entered; engines, queue, claims and the line of `h` are as they
were. -/
structure KeepsClaim (s b : State) (st : Station) (h : Nat) : Prop where
  engine : ∀ d, b.engine d = s.engine d
  queue : b.noise.queue = s.noise.queue
  deferred : b.noise.deferred = s.noise.deferred
  line : b.line st h = s.line st h
  specs : ∀ j i, (b.line j i).map GroupLine.spec = (s.line j i).map GroupLine.spec
  config : b.config = s.config
  now : b.now = s.now

theorem deliver_keepsClaim {res : GroupResult} (hgroup : h ≠ res.group) : s.KeepsClaim (s.deliver st res) st h where
  engine d := by cases d <;> rfl
  queue := rfl
  deferred := rfl
  line := deliver_line_other hgroup
  specs := deliver_specs res
  config := rfl
  now := rfl

end State

/-- Settles O34. -/
theorem completionDeliversOrDiscards : Obligations.CompletionDeliversOrDiscards := by
  intro e since st g s hcomputing helapsed hholder hgroup honly figures outcome result
  have hdue := State.completionDue_of hcomputing helapsed
  have hexec : exec (.engineCompletion e) s = .next (s.afterNotices (s.completion e)) :=
    (exec_engineCompletion s e).trans (eventWhen_taken (fun s => s.completionDue e) (fun s => s.completion e) s hdue)
  have hquiet : ∀ {t}, s.completion e = t → t.link = s.link → exec (.engineCompletion e) s = .next t := fun {t} ht hlink => by
    rw [hexec, ht, s.afterNotices_of_link t hlink]
  have hdelivered : ∀ l, s.line st g = some l → State.delivered (s.engine e) l = result l := fun l hline => by
    rw [State.delivered_eq, State.line_group hline]
  refine ⟨fun l r hrunning hkept hline hstatus hrecord hwaits => ?_, fun h hdeferred => ?_, fun h k hdeferred hne hlineh hext hpass => ?_⟩
  · have hcompletes := State.completion_delivers hholder hgroup hline hrunning hkept
    rw [hdelivered l hline] at hcompletes
    have hands : s.HandsIn ((s.deliver st (result l)).freeEngine e) st e l r (result l) := State.handsIn hline hrecord
    have hnone : ((s.deliver st (result l)).freeEngine e).noise.deferred[st] = none := by
      rw [hands.deferred]
      exact (State.not_waiting hwaits).2
    rw [State.deferredClaim_eq_self hnone] at hcompletes
    refine ⟨fun hgood => ?_, fun x hfail hstop hstep => ?_⟩
    · have hnot : ¬((result l).outcome = .fail ∧ s.stopOnFail st = true) := fun ⟨hfail, hstop⟩ =>
        hgood.elim (fun h => h hfail) fun h => absurd (hstop.symm.trans h) nofun
      rw [if_neg hnot] at hcompletes
      generalize (s.deliver st (result l)).freeEngine e = v at hands hcompletes
      refine ⟨fun hext => ⟨v, hquiet (hcompletes.trans (if_neg (by rw [hext]; nofun))) hands.link, hands.passes, hands.closes,
        hands.record, hands.step, hands.quiet.state.trans hrunning, hands.quiet.othersKept, hands.quiet.sameLine, hands.link⟩,
        fun x spec hext hstep hnext => ?_⟩
      rw [if_pos hext] at hcompletes
      obtain ⟨d, b, k, since, hspec, hphase⟩ := (State.inExtended_iff hstep).mp hext
      have hx := hands.step.trans hstep
      have hnext' : v.nextIs st x.index spec := by
        unfold State.nextIs at *
        rwa [State.recipe_of_test (s := s) hands.quiet.test]
      rw [State.endExtended_eq hx hphase] at hcompletes
      refine ⟨_, hquiet hcompletes ((State.endStep_link .done hx hnext').trans hands.link), ?_, fun hplain => ?_⟩
      · have hon := (State.endStep_stepsOn v st .done x spec (hands.quiet.state.trans hrunning) hx hnext').after hands.quiet (by
          rw [State.stepEntries, hands.record, State.stepEntries, hrecord]
          rfl)
        rwa [hspec] at hon
      · exact hands.sameTest (State.endStep_sameTest .done hx hnext' hplain)
    · rw [if_pos ⟨hfail, hstop⟩] at hcompletes
      obtain ⟨hstops, hpasses, hlink⟩ := State.failedIn_stops hholder honly hwaits (result l)
      obtain ⟨ls, hperm, hsorted, hresults⟩ := s.handedIn_settles st e (result l)
      have hleft := State.enterStopping_record (State.failedIn_leaves (e := e) (res := result l) hstep hrecord) none false
      have hcircuit : (s.failedIn st e (result l)).circuit st = s.circuit st := by
        unfold State.failedIn
        split <;> simp [State.handedIn, State.circuit]
      rw [hcircuit] at hleft
      have hfinal : ((((s.failedIn st e (result l)).enterStopping st none false).passEngine e).ctx st).record = _ :=
        (congrArg StationCtx.record (by simp [State.ctx])).trans hleft
      refine ⟨((s.failedIn st e (result l)).enterStopping st none false).passEngine e, ls, hquiet hcompletes hlink, hstops, hpasses, hlink, ?_, hperm, hsorted, ?_, ?_⟩
      · rw [State.stepEntries, hfinal]
        exact congrArg some (State.settledRecord_steps ..)
      · rw [hfinal]
        refine congrArg some ?_
        show (r.groups ++ [result l]) ++ _ = _
        rw [hresults, List.append_assoc, List.singleton_append]
      · rw [hfinal]
        exact congrArg (fun ls => some (ls ++ (s.circuit st).phase.exitResult)) (State.settledRecord_leaks ..)
  · have hcompletes := State.completion_discards hholder hgroup (h.elim .inl fun h => .inr (.inl h))
    rw [State.deferredClaim_eq_self (by rw [State.freeEngine_deferred]; exact hdeferred)] at hcompletes
    exact ⟨_, hquiet hcompletes (by simp), s.freeEngine_passes e, by simp, by simp, by simp⟩
  · have hbase : ∃ b : State, s.completion e = (b.freeEngine e).deferredClaim st ∧ s.KeepsClaim b st h
        ∧ ∀ l r, s.stateOf st = .running → (s.engine e).abandoned = false → s.line st g = some l → (s.ctx st).record = some r →
          (b.ctx st).record = some { r with groups := r.groups ++ [result l] } ∧ (b.ctx st).step = (s.ctx st).step := by
      by_cases hdelivers : s.stateOf st = .running ∧ (s.engine e).abandoned = false ∧ (s.line st g).isSome = true
      · obtain ⟨hrunning, hkept, hsome⟩ := hdelivers
        obtain ⟨l, hline⟩ := Option.isSome_iff_exists.mp hsome
        have hcompletes := State.completion_delivers hholder hgroup hline hrunning hkept
        have hnot : ¬((result l).outcome = .fail ∧ s.stopOnFail st = true) := fun ⟨hfail, hstop⟩ =>
          (hpass l hline).elim (fun h => h hfail) fun h => absurd (hstop.symm.trans h) nofun
        rw [hdelivered l hline, if_neg hnot, if_neg (by rw [hext]; nofun)] at hcompletes
        refine ⟨s.deliver st (result l), hcompletes, State.deliver_keepsClaim hne, fun l' r _ _ hline' hr => ?_⟩
        obtain rfl := Option.some.inj (hline.symm.trans hline')
        exact ⟨State.deliver_record hr, by simp [State.deliver, State.addGroupResult]⟩
      · refine ⟨s, State.completion_discards hholder hgroup ?_, ⟨fun _ => rfl, rfl, rfl, rfl, fun _ _ => rfl, rfl, rfl⟩,
          fun l r hrunning hkept hline _ => absurd ⟨hrunning, hkept, by rw [hline]; rfl⟩ hdelivers⟩
        by_cases hrunning : s.stateOf st = .running
        · by_cases hkept : (s.engine e).abandoned = false
          · refine .inr (.inr ?_)
            rw [← Option.not_isSome_iff_eq_none]
            exact fun hline => hdelivers ⟨hrunning, hkept, hline⟩
          · exact .inr (.inl (by simpa using hkept))
        · exact .inl hrunning
    obtain ⟨b, hcompletes, hkeeps, hrecords⟩ := hbase
    have honly' : ∀ d, d ≠ e → (b.engine d).holder ≠ some st := fun d hd => by
      rw [hkeeps.engine]
      exact honly d hd
    have hdeferred' : b.noise.deferred[st] = some h := by rw [hkeeps.deferred]; exact hdeferred
    have hline' := hkeeps.line.trans hlineh
    have hengineA : b.noise.engineA = s.noise.engineA := hkeeps.engine .a
    refine ⟨s.afterNotices (s.completion e), hexec, ?_, fun l r hrunning hkept hline _ hr hlimit => ?_, fun hqueue => ?_,
      fun w rest m hqueue hline hheld hbusy hlimit => ?_⟩
    · rw [State.afterNotices_noise, hcompletes]
      exact (State.uncomputing_freeEngine honly').deferredClaim_deferred
    · rw [State.afterNotices_ctx, hcompletes, State.ctx,
        State.freeEngine_deferredClaim_seq hdeferred' (by rw [hkeeps.config]; exact hlimit)]
      exact hrecords l r hrunning hkept hline hr
    · have hgrants := State.freeEngine_deferredClaim_grants honly' hdeferred' hline' (hkeeps.queue.trans hqueue)
      rw [← hcompletes, hengineA] at hgrants
      dsimp only at hgrants ⊢
      rw [State.engine_congr (s.afterNotices_noise _), State.line_congr (s := s.completion e) (t := s.afterNotices (s.completion e)) st h (by rw [State.afterNotices_noise])]
      exact hgrants
    · have hspec := hkeeps.specs w.station w.group
      rw [hline, Option.map_some, Option.map_eq_some_iff] at hspec
      obtain ⟨m', hline', hm⟩ := hspec
      have hheld' : b.heldEngine w.station = none := State.heldEngine_eq_none fun d => by
        rw [hkeeps.engine]
        exact State.holder_ne_of_heldEngine_eq_none hheld d
      have hwaits := State.freeEngine_deferredClaim_waits hdeferred' (hkeeps.queue.trans hqueue) hline' hheld'
        (fun d hd => by rw [hkeeps.engine]; exact hbusy d hd) (by rw [hkeeps.config]; exact hlimit)
      rw [← hcompletes, hm, hkeeps.now, hkeeps.config] at hwaits
      rw [State.engine_congr (s.afterNotices_noise _), State.afterNotices_noise]
      exact hwaits

end Sys2Proof.Machine
end

section
/-! PROOFS. What the samples take (R77 to R79, R146 to R152). -/

namespace Sys2Proof.Machine

open Sys2Proof

set_option Elab.async false

/-! ### Conditioned accelerometer values (R147 to R152) -/

/-- The tone is the one nearest integer: no tie is possible (R150). -/
theorem toneValue_unique {order amplitude phase bin : Nat} {raw : Int}
    (h : 2 * (32767 * raw - amplitude * sine ((order * bin + phase) % 128)).natAbs ≤ 32767) :
    raw = toneValue order amplitude phase bin := by
  obtain ⟨hnear, -⟩ := roundDiv_nearest ((amplitude : Int) * sine ((order * bin + phase) % 128)) (d := 32767) (by decide)
  unfold toneValue
  generalize (amplitude : Int) * sine ((order * bin + phase) % 128) = n at *
  omega

/-- `x` is what the ACCEL entry makes of a reading at a shaft bin (R147, R148, R150, R152). -/
theorem Conditioning.accelValue_eq {c : Conditioning} {bin : Nat} {r : AccelReading} {x : Int} (h : ∃ raw : Int,
    (match c.accel with
      | .live => raw = (match r with | .value n => n.toInt | .openCircuit | .shortCircuit | .noData => -32768)
      | .fixed k => raw = k
      | .pattern order amplitude phase => 2 * (32767 * raw - amplitude * sine ((order * bin + phase) % 128)).natAbs ≤ 32767)
    ∧ x = if c.invert then (if raw = -32768 then 32767 else -raw) else raw) : x = c.accelValue bin r := by
  obtain ⟨raw, hraw, rfl⟩ := h
  have hvalue : raw = c.accel.value bin r := by
    cases hc : c.accel with
    | live =>
      rw [hc] at hraw
      refine hraw.trans ?_
      cases r <;> rfl
    | fixed k =>
      rw [hc] at hraw
      exact hraw
    | pattern order amplitude phase =>
      rw [hc] at hraw
      exact toneValue_unique hraw
  unfold Conditioning.accelValue invertAccel
  rw [hvalue]

/-- A list whose members are each given by a function of those of another. -/
theorem eq_map_of_forall₂ {α β : Type} {R : α → β → Prop} {f : α → β} (h : ∀ a b, R a b → b = f a) {as : List α} {bs : List β}
    (hs : List.Forall₂ R as bs) : bs = as.map f := by
  induction hs with
  | nil => rfl
  | cons hab _ ih => rw [List.map_cons, h _ _ hab, ih]

/-! ### SPEED (R77) -/

/-- SPEED before the second index event. -/
theorem Encoder.speed_of_fewer {e : Encoder} {now : Stamp} (h : e.last = none ∨ e.prev = none) : e.speed now = 0 := by
  unfold Encoder.speed
  split
  · rename_i hl hp
    rw [hl, hp] at h
    exact absurd h (by simp)
  · rfl

/-- SPEED without an index event in the last 500 ms, or with a net line count of 0. -/
theorem Encoder.speed_of_stale {e : Encoder} {now l p : Stamp} (hl : e.last = some l) (hp : e.prev = some p)
    (h : 500000 < l.usTo now ∨ e.latestNet = 0) : e.speed now = 0 := by
  unfold Encoder.speed
  simp only [hl, hp]
  rcases h with h | h
  · exact if_pos h
  · simp [h]

/-- SPEED otherwise: the latest revolution's. -/
theorem Encoder.speed_of_two {e : Encoder} {now l p : Stamp} (hl : e.last = some l) (hp : e.prev = some p)
    (hsince : l.usTo now ≤ 500000) (hnet : e.latestNet ≠ 0) : e.speed now = revSpeed (p.usTo l) e.latestNet := by
  unfold Encoder.speed
  simp only [hl, hp]
  exact (if_neg (Nat.not_lt.mpr hsince)).trans (if_neg hnet)

/-! ### The decay pattern (R151) -/

section

variable (c : LeakCircuit) (testPressure rate : Nat) (now : LineTime)

theorem patternPressure_vented (h : c.phase = .none ∨ c.phase = .standstillWait ∨ c.phase = .vent) :
    patternPressure c testPressure rate now = 0 := by
  unfold patternPressure
  rcases h with h | h | h <;> rw [h]

theorem patternPressure_filling (h : c.phase = .waitSupply ∨ c.phase = .fill) :
    patternPressure c testPressure rate now = testPressure := by
  unfold patternPressure
  rcases h with h | h <;> rw [h]

theorem patternPressure_decays {since : LineTime} (h : c.phase = .settle ∨ c.phase = .measure) (hsettle : c.settleStart = some since) :
    patternPressure c testPressure rate now = decayValue testPressure rate (elapsed since now) := by
  unfold patternPressure
  rcases h with h | h <;> rw [h, hsettle] <;> rfl

end

/-- The decay pattern's value is the nearest, an exact half away from zero (R1, R151). -/
theorem decayValue_nearest (testPressure rate t : Nat) :
    let d := 1000 * (testPressure : Int) - (rate * t : Nat)
    2 * (1000 * decayValue testPressure rate t - d).natAbs ≤ 1000
      ∧ (2 * (1000 * decayValue testPressure rate t - d).natAbs = 1000 → d.natAbs ≤ (1000 * decayValue testPressure rate t).natAbs) := by
  intro d
  have h := roundDiv_nearest d (d := 1000) (by decide)
  have hvalue : roundDiv d 1000 = decayValue testPressure rate t := by
    unfold decayValue
    rw [Int.mul_comm]
  rw [hvalue] at h
  rw [Int.mul_comm 1000 (decayValue ..)]
  exact h

namespace State

variable {s : State} {st : Station} (r : Reading)

theorem pressValue_live (h : s.cond[st].press = .live) : s.pressValue st r = Reading.valid r := by
  unfold pressValue
  rw [h]

theorem pressValue_fixed {c : Int} (h : s.cond[st].press = .fixed c) : s.pressValue st r = some c := by
  unfold pressValue
  rw [h]

theorem pressValue_pattern {rate : Nat} (h : s.cond[st].press = .pattern rate) : s.pressValue st r =
    some (patternPressure (s.circuit st) (((s.leakSpec st).map LeakSpec.testPressure).getD 0) rate s.now) := by
  unfold pressValue
  rw [h]

theorem pressValue_spec {rate : Nat} {l : LeakSpec} (h : s.cond[st].press = .pattern rate) (hspec : s.leakSpec st = some l) :
    s.pressValue st r = some (patternPressure (s.circuit st) l.testPressure rate s.now) := by
  rw [pressValue_pattern r h, hspec]
  rfl

theorem tempValue_live (h : s.cond[st].temp = .live) : s.tempValue st r = Reading.valid r := by
  unfold tempValue
  rw [h]

theorem tempValue_fixed {c : Int} (h : s.cond[st].temp = .fixed c) : s.tempValue st r = some c := by
  unfold tempValue
  rw [h]

end State

/-! ### Clamping (R76, R79) -/

/-- A station quantity is clamped into its range. -/
theorem Quantity.clamp_station (q : StQuantity) (n : Int) :
    (Quantity.station q).clamp n = max (spanOf q).1 (min (spanOf q).2 n) := by cases q <;> rfl

theorem Quantity.clamp_supply (n : Int) : Quantity.supply.clamp n = max 0 (min 1000000 n) := rfl

namespace State

variable {s : State} {st : Station} {q : StQuantity} {y : SensorInput}

/-- A sample takes its value, clamped, or counts an invalid one (R79, R80). -/
theorem sample_takes (hy : y.target = some (st, q)) {v : Option Int} (hv : (s.gather y).sampleValue y = v) :
    ∃ t, exec (.monitorSample y) s = .next t
      ∧ (t.quantity st q).held = (v.map (fun n => max (spanOf q).1 (min (spanOf q).2 n))).getD (s.quantity st q).held
      ∧ (t.quantity st q).lastValid = v.isSome
      ∧ (t.quantity st q).invalid = if v.isSome then 0 else min ((s.quantity st q).invalid + 1) 65535 := by
  have hjudged : (s.afterNotices (s.sample y)).quantity st q = s.judgedQuantity y st q := by
    rw [← takeSample_quantity hy]
    simp only [quantity, afterNotices_mon, sample_mon]
  refine ⟨_, exec_monitorSample s y, ?_⟩
  rw [hjudged, judgedQuantity, hv]
  obtain ⟨hheld, hvalid, hinvalid, -⟩ := (s.quantity st q).sample_spec (v.map (Quantity.station q).clamp) (s.reference st q) (s.watched st q)
  have hclamp : (Quantity.station q).clamp = fun n => max (spanOf q).1 (min (spanOf q).2 n) := funext fun n => Quantity.clamp_station q n
  rw [hheld, hvalid, hinvalid, Option.isSome_map, hclamp]
  exact ⟨rfl, rfl, rfl⟩

/-- A sample of SUPPLY (R79). -/
theorem sample_takes_supply (r : Reading) : ∃ t, exec (.monitorSample (.supply r)) s = .next t
    ∧ t.mon.supply.held = ((Reading.valid r).map (fun n => max 0 (min 1000000 n))).getD s.mon.supply.held
    ∧ t.mon.supply.lastValid = (Reading.valid r).isSome := by
  have hjudged : (s.afterNotices (s.sample (.supply r))).mon.supply = s.judgedSupply (.supply r) := by
    rw [afterNotices_mon, sample_mon, takeSample_mon_supply rfl]
  refine ⟨_, exec_monitorSample s (.supply r), ?_⟩
  obtain ⟨hheld, hvalid, -⟩ := s.mon.supply.sample_spec ((Reading.valid r).map Quantity.supply.clamp)
    s.mon.globals[Quantity.supply.idx] true
  rw [hjudged]
  refine ⟨hheld, hvalid.trans (Option.isSome_map ..)⟩

/-! ### VIB (R78, R79) -/

/-- What VIB has gathered after some readings of the accelerometer (R78, R79). -/
theorem foldl_seeAccel_vib (s : State) (st : Station) (rs : List AccelReading) :
    (rs.foldl (fun s r => s.seeAccel st r) s).mon.vib[st] =
      ⟨((rs.map (fun r => (s.accelValue st r).natAbs)).foldl max s.mon.vib[st].peak), s.mon.vib[st].fault || rs.any AccelReading.faulty⟩ := by
  induction rs generalizing s with
  | nil => simp
  | cons r rs ih =>
    have hsame : ∀ a, (s.seeAccel st r).accelValue st a = s.accelValue st a := fun _ => rfl
    have hseen : (s.seeAccel st r).mon.vib[st] =
        ⟨max s.mon.vib[st].peak (s.accelValue st r).natAbs, s.mon.vib[st].fault || AccelReading.faulty r⟩ := by
      simp [seeAccel_vib]
    rw [List.foldl_cons, ih, hseen]
    simp only [hsame, List.map_cons, List.foldl_cons, List.any_cons, Bool.or_assoc]

theorem faulty_iff (r : AccelReading) : AccelReading.faulty r = true ↔ ∀ n, r ≠ .value n := by
  cases r <;> simp [AccelReading.faulty]

/-- The value of a VIB sample (R78, R79). -/
theorem sampleValue_vib (now : AccelReading) (since : List AccelReading) :
    (s.gather (.vib st now since)).sampleValue (.vib st now since) =
      if s.cond[st].accel = .live ∧ (s.mon.vib[st].fault = true ∨ ∃ f ∈ since ++ [now], ∀ n, f ≠ .value n) then none
      else some (((((since ++ [now]).map (s.cond[st].accelValue (s.enc[st].pos.val / 4))).map Int.natAbs).foldl max
        s.mon.vib[st].peak : Nat) : Int) := by
  have hcond : ((since ++ [now]).foldl (fun s r => s.seeAccel st r) s).cond = s.cond := (gather_cond s (.vib st now since))
  unfold gather sampleValue
  simp only [foldl_seeAccel_vib, hcond, Bool.or_eq_true, List.any_eq_true, faulty_iff, List.map_map]
  rfl

end State

namespace State

variable {s : State} {st : Station} {e : EngineId}

/-- The opening index gives bin 0 its sample (R105). -/
theorem index_sample (hacc : s.accumulating st = some e) (hclosed : (s.engine e).revOpen = false) (us : Fin 1000) (r : AccelReading) :
    ∃ t, exec (.encoderIndex st us r) s = .next t ∧ (t.engine e).samples[(0 : Fin 128)] = some (s.cond[st].accelValue 0 r) := by
  refine ⟨s.afterNotices (s.index st us r), exec_encoderIndex s st us r, ?_⟩
  rw [engine_congr (s.afterNotices_noise _), index_opens hacc hclosed, engine_modEngine, if_pos rfl]
  simp [Engine.openRevolution]

/-- The first crossing of a bin's position gives it its sample (R105). -/
theorem line_sample (hacc : s.accumulating st = some e) (hopen : (s.engine e).revOpen = true) {b : Fin 128}
    (hnone : (s.engine e).samples[b] = none) (hlast : s.enc[st].last ≠ none) {forward : Bool}
    (hpos : (s.enc[st].pos + if forward then 1 else -1).val = 4 * b.val) (r : AccelReading) :
    ∃ t, exec (.encoderLine st forward r) s = .next t ∧ (t.engine e).samples[b] = some (s.cond[st].accelValue b r) := by
  have henc : (s.takeLine st forward r).enc[st].pos.val = 4 * b.val := by
    rw [takeLine_enc, ← hpos]
    simp only [Fin.getElem_fin, PerStation.getElem_upd, if_true] at hlast ⊢
    rw [if_neg hlast]
    cases forward with
    | true => rfl
    | false => simp [Fin.sub_eq_add_neg]
  refine ⟨s.afterNotices (s.encoderLine st forward r), exec_encoderLine s st forward r, ?_⟩
  rw [engine_congr (s.afterNotices_noise _), encoderLine_crosses hacc hopen, engine_modEngine, if_pos rfl,
    (Engine.cross_spec _ _ _).2 b, takeLine_accelValue, henc, Nat.mul_div_cancel_left _ (by decide)]
  exact if_pos ⟨hnone, rfl⟩

end State

/-- Settles O44. -/
theorem conditionedValuesFollowTheirEntries : Obligations.ConditionedValuesFollowTheirEntries := by
  intro st s takes
  have htakes : ∀ {y : SensorInput} {q : StQuantity} {v : Option Int}, y.target = some (st, q) →
      (s.gather y).sampleValue y = v → takes y q v := fun hy hv => State.sample_takes hy hv
  refine ⟨htakes rfl rfl, fun h => htakes rfl ?_, fun l p hl hp => ⟨fun h => htakes rfl ?_, fun hsince hnet => ?_⟩, fun reading => ?_, ?_⟩
  · rcases h with h | h
    · exact congrArg some (Encoder.speed_of_fewer (.inl h))
    · exact congrArg some (Encoder.speed_of_fewer (.inr h))
  · exact congrArg some (Encoder.speed_of_stale hl hp h)
  · have hspeed := Encoder.speed_of_two hl hp (now := s.stamp) hsince hnet
    exact ⟨_, (revolutionSpeed_iff hnet).mpr rfl, htakes rfl (congrArg some hspeed)⟩
  · have hvalid : Reading.valid reading =
        (match reading with | .value n => some n | .openCircuit | .shortCircuit | .noData => none) := by
      cases reading <;> rfl
    refine ⟨?_, fun hlive => htakes rfl ?_, fun c hfixed => htakes rfl ?_, fun rate hpattern hphase => htakes rfl ?_,
      fun rate l hpattern hspec => ⟨fun hphase => htakes rfl ?_, fun since hphase hsettle => ?_⟩, fun hlive => htakes rfl ?_,
      fun c hfixed => htakes rfl ?_⟩
    · intro given
      have hgiven : given = Reading.valid reading := hvalid.symm
      rw [hgiven]
      exact ⟨htakes rfl rfl, htakes rfl rfl, State.sample_takes_supply reading⟩
    · exact (State.pressValue_live reading hlive).trans hvalid
    · exact State.pressValue_fixed reading hfixed
    · rw [← patternPressure_vented (s.circuit st) (((s.leakSpec st).map LeakSpec.testPressure).getD 0) rate s.now hphase]
      exact State.pressValue_pattern reading hpattern
    · rw [← patternPressure_filling (s.circuit st) l.testPressure rate s.now hphase]
      exact State.pressValue_spec reading hpattern hspec
    · have hvalue := State.pressValue_spec reading hpattern hspec
      rw [patternPressure_decays (s.circuit st) l.testPressure rate s.now hphase hsettle] at hvalue
      exact ⟨_, decayValue_nearest .., htakes rfl hvalue⟩
    · exact (State.tempValue_live reading hlive).trans hvalid
    · exact State.tempValue_fixed reading hfixed
  · intro gives
    refine ⟨fun us reading e x hacc hclosed hx => ?_, fun forward reading e b x hacc hopen hnone hlast hpos hx => ?_,
      fun now since xs hxs => htakes rfl ?_⟩
    · rw [Conditioning.accelValue_eq hx]
      exact State.index_sample hacc hclosed us reading
    · rw [Conditioning.accelValue_eq hx]
      exact State.line_sample hacc hopen hnone hlast hpos reading
    · have hmap : xs = (since ++ [now]).map (s.cond[st].accelValue (s.enc[st].pos.val / 4)) :=
        eq_map_of_forall₂ (fun _ _ h => Conditioning.accelValue_eq h) hxs
      rw [State.sampleValue_vib, hmap]

end Sys2Proof.Machine
end

section
/-! PROOFS. The emergency stop (R15): what it does to one station, and to the others when it meets one. -/

namespace Sys2Proof.Machine

open Sys2Proof

set_option Elab.async false

namespace State

variable {s t u : State} {st j : Station} {c : TestCtx} {r : Record} {x : StepCtx}

/-! ### One station (R15) -/

/-- The station has left RUNNING, when it was in it. -/
def estopLeft (s : State) (st : Station) : State := if s.stateOf st = .running then s.leaveRunning st else s

/-- Its leak circuit is closed and ESTOP is its cause unless it had one (R15, R143). -/
def estopCaused (s : State) (st : Station) : State :=
  ((s.estopLeft st).leakClose st).modCtx st (fun c => { c with
    test := c.test.map (fun t => { t with cause := some (t.cause.getD .estop) })
    record := c.record.map (fun r => { r with cause := some (r.cause.getD .estop) }) })

/-- The station has entered COMPLETING, its record not yet offered, and its NST is given (R15). -/
def estopEntered (s : State) (st : Station) : State :=
  ((s.estopCaused st).enterCompleting st).giveNotice
    (.nst st .completing ((((s.estopCaused st).enterCompleting st).ctx st).test.bind TestCtx.cause) none)

theorem estopStation_eq (h : s.stateOf st = .running ∨ s.stateOf st = .stopping) :
    s.estopStation st = (s.estopEntered st).offerRecord st := by
  unfold estopEntered estopCaused estopLeft estopStation
  split
  · rfl
  · rfl
  all_goals
    rename_i hstate
    rw [hstate] at h
    exact absurd h (by simp)

/-- A station in another state is not met (R15). -/
theorem estopStation_eq_self (hrunning : s.stateOf st ≠ .running) (hstopping : s.stateOf st ≠ .stopping) :
    s.estopStation st = s := by
  unfold estopStation
  split
  · exact absurd (by assumption) hrunning
  · exact absurd (by assumption) hstopping
  all_goals rfl

theorem estopCaused_test (s : State) (st : Station) : ((s.estopCaused st).ctx st).test =
    (s.ctx st).test.map (fun c => { c with cause := some (c.cause.getD .estop) }) := by
  unfold estopCaused estopLeft
  split <;> simp

/-- What a station that has entered COMPLETING keeps when its record is offered (R13, R166). -/
theorem offerRecord_kept (hstate : s.stateOf st = .completing) :
    ((s.offerRecord st).stateOf st = .completing ∨ (s.offerRecord st).stateOf st = .done)
      ∧ ((s.offerRecord st).ctx st).step = (s.ctx st).step ∧ (s.offerRecord st).drive = s.drive
      ∧ (s.counters.changed[st] = true → (s.offerRecord st).counters.changed[st] = true)
      ∧ ((s.offerRecord st).ctx st).test.map TestCtx.cause = (s.ctx st).test.map TestCtx.cause := by
  unfold offerRecord
  split
  · unfold depositStation
    split
    · exact ⟨.inr (by simp [stateOf]), by simp, by simp, by simp, by simp [Function.comp_def]⟩
    · exact ⟨.inl hstate, rfl, rfl, id, rfl⟩
  · exact ⟨.inl hstate, rfl, rfl, id, rfl⟩

/-- What the emergency stop leaves of a station it has met (R15). -/
structure Stopped (s t : State) (st : Station) : Prop where
  state : t.stateOf st = .completing ∨ t.stateOf st = .done
  drive : t.drive[st] = Drive.off
  step : (t.ctx st).step = none
  changed : t.counters.changed[st] = true
  cause : (t.ctx st).test.map TestCtx.cause = (s.ctx st).test.map (fun c => some (c.cause.getD .estop))

theorem estopEntered_ctx (s : State) (st : Station) : (s.estopEntered st).stateOf st = .completing
    ∧ ((s.estopEntered st).ctx st).step = none ∧ (s.estopEntered st).drive[st] = Drive.off
    ∧ (s.estopEntered st).counters.changed[st] = true
    ∧ ((s.estopEntered st).ctx st).test = (s.ctx st).test.map (fun c => { c with cause := some (c.cause.getD .estop) }) := by
  obtain ⟨hstate, hstep, htest⟩ := enterCompleting_ctx (s.estopCaused st) st
  have hctx : (s.estopEntered st).ctx st = ((s.estopCaused st).enterCompleting st).ctx st := by simp [estopEntered, ctx]
  refine ⟨(congrArg StationCtx.state hctx).trans hstate, by rw [hctx, hstep], ?_, ?_, ?_⟩
  · simp [estopEntered, enterCompleting]
  · simp [estopEntered, enterCompleting]
  · rw [hctx, htest, estopCaused_test]

theorem estopStation_stopped (h : s.stateOf st = .running ∨ s.stateOf st = .stopping) : s.Stopped (s.estopStation st) st := by
  obtain ⟨hstate, hstep, hdrive, hchanged, htest⟩ := s.estopEntered_ctx st
  obtain ⟨hstate', hstep', hdrive', hchanged', hcause⟩ := offerRecord_kept hstate
  rw [estopStation_eq h]
  refine ⟨hstate', by rw [hdrive', hdrive], hstep'.trans hstep, hchanged' hchanged, hcause.trans ?_⟩
  rw [htest, Option.map_map]
  rfl

/-- A station not met keeps its context, its drive and its change flag. -/
theorem estopStation_other (hj : st ≠ j) : (s.estopStation j).seq[st] = s.seq[st] ∧ (s.estopStation j).drive[st] = s.drive[st]
    ∧ (s.counters.changed[st] = true → (s.estopStation j).counters.changed[st] = true) := by
  refine ⟨estopStation_seq_other (s := s) (Ne.symm hj), estopStation_drive_other (s := s) (Ne.symm hj), fun hchanged => ?_⟩
  by_cases h : s.stateOf j = .running ∨ s.stateOf j = .stopping
  · rw [estopStation_eq h]
    have hentered : (s.estopEntered j).counters.changed[st] = true := by
      simp only [Fin.getElem_fin] at hchanged
      simp only [estopEntered, enterCompleting, estopCaused, estopLeft]
      split <;> simp [hchanged]
    unfold offerRecord
    split
    · unfold depositStation
      split
      · simp only [Fin.getElem_fin] at hentered
        simp [hentered]
      · exact hentered
    · exact hentered
  · rw [not_or] at h
    rwa [estopStation_eq_self h.1 h.2]

/-! ### Every station (R15) -/

/-- The stations that are not in a test that the emergency stop completes are left as they are. -/
theorem foldl_estop_unmet (ls : List Station) (hrunning : s.stateOf st ≠ .running) (hstopping : s.stateOf st ≠ .stopping) :
    (ls.foldl estopStation s).seq[st] = s.seq[st] ∧ (ls.foldl estopStation s).drive[st] = s.drive[st] := by
  induction ls generalizing s with
  | nil => exact ⟨rfl, rfl⟩
  | cons j ls ih =>
    by_cases hj : st = j
    · subst hj
      rw [List.foldl_cons, estopStation_eq_self hrunning hstopping]
      exact ih hrunning hstopping
    · obtain ⟨hseq, hdrive, -⟩ := estopStation_other (s := s) hj
      have hstate : (s.estopStation j).stateOf st = s.stateOf st := congrArg StationCtx.state hseq
      obtain ⟨hseq', hdrive'⟩ := ih (s := s.estopStation j) (by rwa [hstate]) (by rwa [hstate])
      exact ⟨hseq'.trans hseq, hdrive'.trans hdrive⟩

/-- A station once met stays so. -/
theorem Stopped.foldl (h : s.Stopped t st) (ls : List Station) : s.Stopped (ls.foldl estopStation t) st := by
  induction ls generalizing t with
  | nil => exact h
  | cons j ls ih =>
    refine ih ?_
    by_cases hj : st = j
    · subst hj
      rwa [estopStation_eq_self (by rcases h.state with h | h <;> rw [h] <;> nofun)
        (by rcases h.state with h | h <;> rw [h] <;> nofun)]
    · obtain ⟨hseq, hdrive, hchanged⟩ := estopStation_other (s := t) hj
      have hctx : (t.estopStation j).ctx st = t.ctx st := hseq
      exact ⟨h.state.imp (congrArg StationCtx.state hctx).trans (congrArg StationCtx.state hctx).trans, hdrive.trans h.drive,
        by rw [hctx]; exact h.step, hchanged h.changed, by rw [hctx]; exact h.cause⟩

/-- Every station in RUNNING or STOPPING is met, in any order (R15). -/
theorem foldl_estop_met {ls : List Station} (hmem : st ∈ ls) (h : s.stateOf st = .running ∨ s.stateOf st = .stopping) :
    s.Stopped (ls.foldl estopStation s) st := by
  induction ls generalizing s with
  | nil => exact absurd hmem nofun
  | cons j ls ih =>
    by_cases hj : st = j
    · subst hj
      exact (estopStation_stopped h).foldl ls
    · obtain ⟨hseq, -⟩ := estopStation_other (s := s) hj
      have hctx : (s.estopStation j).ctx st = s.ctx st := hseq
      have hstate : (s.estopStation j).stateOf st = s.stateOf st := congrArg StationCtx.state hctx
      have hstopped := ih (s := s.estopStation j) ((List.mem_cons.mp hmem).resolve_left hj) (by rwa [hstate])
      exact ⟨hstopped.state, hstopped.drive, hstopped.step, hstopped.changed, hstopped.cause.trans (by rw [hctx])⟩

/-- With one station in a test, the emergency stop is what it does to that one. -/
theorem foldl_estop_alone {ls : List Station} (hmem : st ∈ ls) (h : s.stateOf st = .running ∨ s.stateOf st = .stopping)
    (halone : ∀ j, j ≠ st → s.stateOf j ≠ .running ∧ s.stateOf j ≠ .stopping) :
    ls.foldl estopStation s = s.estopStation st := by
  have hidle : ∀ (ls : List Station) (u : State), (∀ j, u.stateOf j ≠ .running ∧ u.stateOf j ≠ .stopping) →
      ls.foldl estopStation u = u := by
    intro ls u hu
    induction ls with
    | nil => rfl
    | cons j ls ih => rw [List.foldl_cons, estopStation_eq_self (hu j).1 (hu j).2, ih]
  induction ls with
  | nil => exact absurd hmem nofun
  | cons j ls ih =>
    by_cases hj : st = j
    · subst hj
      rw [List.foldl_cons]
      refine hidle ls _ fun j => ?_
      by_cases hjst : j = st
      · subst hjst
        rcases (estopStation_stopped h).state with hstate | hstate <;> rw [hstate] <;> exact ⟨nofun, nofun⟩
      · have hstate : (s.estopStation st).stateOf j = s.stateOf j := congrArg StationCtx.state (estopStation_other hjst).1
        rw [hstate]
        exact halone j hjst
    · rw [List.foldl_cons, estopStation_eq_self (halone j (Ne.symm hj)).1 (halone j (Ne.symm hj)).2]
      exact ih ((List.mem_cons.mp hmem).resolve_left hj)

end State

namespace State

variable {s t u : State} {st j : Station} {c : TestCtx} {r : Record} {x : StepCtx}

/-! ### The leak circuits (R143) -/

/-- What another station's giving up of the supply can do to a station: begin its FILL, when it waits (R128). -/
structure MayGrant (s t : State) (st : Station) : Prop where
  queue : st ∈ t.leak.queue → st ∈ s.leak.queue
  circuit : t.circuit st = s.circuit st ∨ (st ∈ s.leak.queue ∧ (t.circuit st).phase = .fill)

theorem MayGrant.trans (h : s.MayGrant t st) (k : t.MayGrant u st) : s.MayGrant u st where
  queue hu := h.queue (k.queue hu)
  circuit := by
    rcases k.circuit with hsame | ⟨hwaits, hfill⟩
    · rw [hsame]
      exact h.circuit
    · exact .inr ⟨h.queue hwaits, hfill⟩

theorem MayGrant.of_eq (hqueue : t.leak.queue = s.leak.queue) (hcircuit : t.circuit st = s.circuit st) : s.MayGrant t st :=
  ⟨fun h => hqueue ▸ h, .inl hcircuit⟩

theorem examineSupply_mayGrant (s : State) (st : Station) : s.MayGrant s.examineSupply st := by
  unfold examineSupply
  split
  · rename_i k rest hqueue _ _
    by_cases hk : k = st
    · subst hk
      refine ⟨fun h => hqueue ▸ List.mem_cons_of_mem _ ?_, .inr ⟨hqueue ▸ List.mem_cons_self, ?_⟩⟩
      · simpa [enterPhase] using h
      · simp [enterPhase, circuit, LeakCircuit.enter]
    · refine ⟨fun h => hqueue ▸ List.mem_cons_of_mem _ ?_, .inl ?_⟩
      · simpa [enterPhase] using h
      · simp [enterPhase, circuit, hk]
  · exact ⟨id, .inl rfl⟩

theorem releaseGrant_mayGrant (s : State) (j st : Station) : s.MayGrant (s.releaseGrant j) st := by
  unfold releaseGrant
  split
  · exact MayGrant.trans (t := { s with leak := { s.leak with grant := none } }) ⟨id, .inl rfl⟩ (examineSupply_mayGrant _ st)
  · exact ⟨id, .inl rfl⟩

theorem leaveSupplyQueue_mayGrant (s : State) (j st : Station) : s.MayGrant (s.leaveSupplyQueue j) st := by
  unfold leaveSupplyQueue
  split
  · exact MayGrant.trans (t := { s with leak := { s.leak with queue := s.leak.queue.filter (· ≠ j) } })
      ⟨fun h => List.mem_of_mem_filter h, .inl rfl⟩ (examineSupply_mayGrant _ st)
  · exact ⟨id, .inl rfl⟩

/-- A circuit that closes leaves another one, but that it may be granted the supply (R128, R141). -/
theorem leakClose_mayGrant (hj : j ≠ st) : s.MayGrant (s.leakClose j) st := by
  have hrest : ∀ v : State, v.MayGrant (v.leakRest j) st := fun v => .of_eq (by simp [leakRest]) (by simp [leakRest, circuit, hj])
  have hdecided : s.MayGrant (s.decideLeak j (LeakResult.stopped .notCompleted)) st :=
    .of_eq (by simp) (by simp [decideLeak, LeakResult.stopped, circuit, hj])
  unfold leakClose
  split
  · exact ⟨id, .inl rfl⟩
  · exact hrest s
  all_goals exact ((hdecided.trans (hrest _)).trans (releaseGrant_mayGrant ..)).trans (leaveSupplyQueue_mayGrant ..)

end State

end Sys2Proof.Machine
end

section
/-! PROOFS. The emergency stop, settled (R15, R16, R143, R166), and the notices (R193 to R195). -/

namespace Sys2Proof.Machine

open Sys2Proof

set_option Elab.async false

namespace State

variable {s t u : State} {st j : Station} {c : TestCtx} {r : Record} {x : StepCtx}

/-- A circuit in a phase that closes is at rest (R141, R143). -/
theorem SupplyFits.leakClose_rest (h : s.SupplyFits st) (hphase : (s.circuit st).phase ≠ .none) :
    (s.leakClose st).circuit st = .rest := by
  have hgiven : ∀ t : State, t.leak.grant = s.leak.grant → t.leak.queue = s.leak.queue →
      (((t.leakRest st).releaseGrant st).leaveSupplyQueue st).circuit st = .rest := by
    intro t hgrant hqueue
    have hreleased : ((t.leakRest st).releaseGrant st).leak.grant ≠ some st ∧
        ((t.leakRest st).releaseGrant st).leak.circuits[st.val] = .rest := by
      unfold releaseGrant
      split
      · rename_i hg
        have hout : st ∉ t.leak.queue := fun hq => by
          rw [hqueue, h.queue] at hq
          have hfill := h.grant.mp (hgrant ▸ hg)
          exact absurd (hfill.symm.trans hq) nofun
        obtain ⟨-, hnone, hcircuit⟩ := examineSupply_other
          { t.leakRest st with leak := { (t.leakRest st).leak with grant := none } } st (by simpa using hout)
        exact ⟨hnone nofun, by rw [hcircuit]; simp [leakRest]⟩
      · rename_i hg
        exact ⟨hg, by simp [leakRest]⟩
    obtain ⟨-, -, hcircuit⟩ := leaveSupplyQueue_givenUp _ _ hreleased.1
    exact hcircuit.trans hreleased.2
  unfold State.leakClose
  split
  · exact absurd (by assumption) hphase
  · simp [leakRest]
  all_goals exact hgiven _ (by simp) (by simp)

theorem leakClose_eq_self (hphase : (s.circuit st).phase = .none) : s.leakClose st = s := by
  unfold leakClose
  rw [hphase]

theorem estopLeft_leak (s : State) (st : Station) : (s.estopLeft st).leak = s.leak := by
  unfold estopLeft
  split <;> simp

/-- What the emergency stop does to the leak circuits is what closing the station's does (R143). -/
theorem estopStation_leak (h : s.stateOf st = .running ∨ s.stateOf st = .stopping) (hfits : s.SupplyFits st) :
    (s.estopStation st).leak = ((s.estopLeft st).leakClose st).leak := by
  have hphase : ((s.estopCaused st).circuit st).phase = .none :=
    (((hfits.congr (s.estopLeft_leak st)).leakClose).congr (t := s.estopCaused st) (by simp [estopCaused])).phase
  rw [estopStation_eq h, offerRecord_leak, estopEntered, giveNotice_leak, enterCompleting, leakClose_eq_self hphase]
  simp [closeRecord, estopCaused]

/-- The circuit of a station in place that is in a leak phase is at rest after the emergency stop has met it. -/
theorem estopStation_rest (h : s.StationsInPlace) (hphase : (s.circuit st).phase ≠ .none) :
    (s.estopStation st).circuit st = .rest := by
  have hmet : s.stateOf st = .running ∨ s.stateOf st = .stopping := (h.leak st hphase).imp And.left And.left
  rw [circuit, estopStation_leak hmet (h.supplyFits st)]
  refine SupplyFits.leakClose_rest ((h.supplyFits st).congr (s.estopLeft_leak st)) ?_
  rwa [circuit, estopLeft_leak]

/-- What the emergency stop at another station can do to a circuit. -/
theorem estopStation_mayGrant (h : s.StationsInPlace) (hj : j ≠ st) : s.MayGrant (s.estopStation j) st := by
  by_cases hmet : s.stateOf j = .running ∨ s.stateOf j = .stopping
  · have hleft : s.MayGrant (s.estopLeft j) st := .of_eq (by rw [estopLeft_leak]) (by rw [circuit, estopLeft_leak])
    have hleak := estopStation_leak hmet (h.supplyFits j)
    exact (hleft.trans (leakClose_mayGrant hj)).trans (.of_eq (by rw [hleak]) (by rw [circuit, hleak]))
  · rw [not_or] at hmet
    rw [estopStation_eq_self hmet.1 hmet.2]
    exact ⟨id, .inl rfl⟩

/-- A circuit in no phase stays as it is. -/
theorem estopStation_circuit (h : s.StationsInPlace) (hphase : (s.circuit st).phase = .none) (j : Station) :
    (s.estopStation j).circuit st = s.circuit st := by
  have hfree := (h.supplyFits st).free hphase
  by_cases hj : j = st
  · subst hj
    by_cases hmet : s.stateOf j = .running ∨ s.stateOf j = .stopping
    · rw [circuit, estopStation_leak hmet (h.supplyFits j), leakClose_eq_self (by rwa [circuit, estopLeft_leak]), estopLeft_leak]
    · rw [not_or] at hmet
      rw [estopStation_eq_self hmet.1 hmet.2]
  · rcases (estopStation_mayGrant h hj).circuit with hsame | ⟨hwaits, -⟩
    · exact hsame
    · exact absurd hwaits hfree.queue

theorem estopStation_inPlace (h : s.StationsInPlace) (j : Station) : (s.estopStation j).StationsInPlace :=
  (InPlace.estopStation (L := False) ⟨h, False.elim⟩).placed

/-- Every circuit in a phase is at rest after the emergency stop (R143). -/
theorem foldl_estop_rest {ls : List Station} (h : s.StationsInPlace) (hmem : st ∈ ls) (hphase : (s.circuit st).phase ≠ .none) :
    (ls.foldl estopStation s).circuit st = .rest := by
  have hstays : ∀ (ls : List Station) (u : State), u.StationsInPlace → u.circuit st = .rest →
      (ls.foldl estopStation u).circuit st = .rest := by
    intro ls
    induction ls with
    | nil => exact fun _ _ hu => hu
    | cons j ls ih =>
      intro u hplace hu
      exact ih _ (estopStation_inPlace hplace j) ((estopStation_circuit hplace (by rw [hu]; rfl) j).trans hu)
  induction ls generalizing s with
  | nil => exact absurd hmem nofun
  | cons j ls ih =>
    by_cases hj : j = st
    · subst hj
      exact hstays ls _ (estopStation_inPlace h j) (estopStation_rest h hphase)
    · refine ih (estopStation_inPlace h j) ((List.mem_cons.mp hmem).resolve_left (Ne.symm hj)) ?_
      rcases (estopStation_mayGrant h hj).circuit with hsame | ⟨-, hfill⟩
      · rwa [hsame]
      · rw [hfill]
        exact nofun

theorem foldl_estop_inPlace (ls : List Station) (h : s.StationsInPlace) : (ls.foldl estopStation s).StationsInPlace :=
  (InPlace.foldl (L := False) (fun _ _ hu => hu.estopStation) ls ⟨h, False.elim⟩).placed

/-- With no station in a test that uses the supply, nobody holds or waits for it (R123, R127). -/
theorem StationsInPlace.idle (h : s.StationsInPlace) (hidle : ∀ j, s.stateOf j ≠ .running ∧ s.stateOf j ≠ .stopping) :
    s.leak.grant = none ∧ s.leak.queue = [] ∧ ∀ j, (s.circuit j).phase = .none := by
  have hphase : ∀ j, (s.circuit j).phase = .none := fun j => by
    by_contra hphase
    exact (h.leak j hphase).elim (fun hr => (hidle j).1 hr.1) fun hs => (hidle j).2 hs.1
  refine ⟨Option.eq_none_iff_forall_ne_some.mpr fun j hj => ?_, List.eq_nil_iff_forall_not_mem.mpr fun j hj => ?_, hphase⟩
  · exact absurd ((hphase j).symm.trans ((h.grant j).mp hj)) nofun
  · exact absurd ((hphase j).symm.trans ((h.supply j).mp hj)) nofun

/-! ### The record (R15, R119, R143, R162) -/

/-- A circuit that closes enters an undecided result in the record (R141, R143). -/
theorem leakClose_record (hr : (s.ctx st).record = some r) :
    ((s.leakClose st).ctx st).record = some { r with leaks := r.leaks ++ (s.circuit st).phase.exitResult } := by
  have hdecided : (s.decideLeak st (LeakResult.stopped .notCompleted)).seq[st.val].record
      = some { r with leaks := r.leaks ++ [LeakResult.stopped .notCompleted] } := by
    simp only [ctx, Fin.getElem_fin] at hr
    simp [decideLeak, addLeakResult, LeakResult.stopped, hr]
  unfold leakClose
  cases hphase : (s.circuit st).phase with
  | none => simpa [LeakPhase.exitResult] using hr
  | vent => simpa [LeakPhase.exitResult] using hr
  | _ => simpa [LeakPhase.exitResult, LeakResult.stopped] using hdecided

/-- The record that a RUNNING station's emergency stop closes: the step closed, the groups settled, an undecided leak result
entered (R15, R54, R119, R143). -/
def estopRecord (s : State) (st : Station) (x : StepCtx) (r : Record) : Record :=
  { s.settledRecord st { r with steps := r.steps ++ [s.exitEntry st x] } with
    leaks := r.leaks ++ (s.circuit st).phase.exitResult, cause := some (r.cause.getD .estop) }

theorem settledRecord_heading (s : State) (st : Station) (r : Record) : (s.settledRecord st r).heading = r.heading := by
  unfold settledRecord
  split
  · exact Record.addRemark_heading ..
  · rfl

theorem settledRecord_cause (s : State) (st : Station) (r : Record) : (s.settledRecord st r).cause = r.cause := by
  unfold settledRecord
  split
  · exact Record.addRemark_cause ..
  · rfl

theorem settledRecord_checks (s : State) (st : Station) (r : Record) : (s.settledRecord st r).checks = r.checks := by
  unfold settledRecord
  split
  · exact Record.addRemark_checks ..
  · rfl

theorem estopCaused_record (h : s.RunsStep st x r) :
    ((s.estopCaused st).ctx st).record = some (s.estopRecord st x r) := by
  have hleft : (s.estopLeft st).ctx st = (s.leaveRunning st).ctx st := by rw [estopLeft, if_pos h.running]
  have hclosed := leakClose_record (s := s.estopLeft st) ((congrArg StationCtx.record hleft).trans (leaveRunning_record h.step h.record))
  have hcircuit : (s.estopLeft st).circuit st = s.circuit st := by rw [circuit, estopLeft_leak]
  rw [hcircuit] at hclosed
  have hcause : (s.settledRecord st { r with steps := r.steps ++ [s.exitEntry st x] }).cause = r.cause := settledRecord_cause ..
  simp only [ctx, Fin.getElem_fin] at hclosed
  unfold estopCaused estopRecord
  simp [hclosed, hcause, settledRecord_leaks]

/-- A RUNNING station's emergency stop offers its closed record (R15, R166). -/
theorem estopStation_offers (hplace : s.StationsInPlace) (h : s.RunsStep st x r) (hc : (s.ctx st).test = some c) :
    s.OffersRecord (s.estopStation st) st { c with cause := some (c.cause.getD .estop) } (s.closedRecord (s.estopRecord st x r)) := by
  have hphase : ((s.estopCaused st).circuit st).phase = .none :=
    ((((hplace.supplyFits st).congr (s.estopLeft_leak st)).leakClose).congr (t := s.estopCaused st) (by simp [estopCaused])).phase
  obtain ⟨-, hrecord⟩ := enterCompleting_rested (.inl hphase) (estopCaused_record h)
  have hnow : (s.estopCaused st).closedRecord (s.estopRecord st x r) = s.closedRecord (s.estopRecord st x r) := by
    have : (s.estopCaused st).now = s.now := by
      unfold estopCaused estopLeft
      split <;> simp [now]
    rw [closedRecord, this]
    rfl
  rw [hnow] at hrecord
  obtain ⟨hstate, -, -, -, htest⟩ := s.estopEntered_ctx st
  rw [hc] at htest
  have hctx : (s.estopEntered st).ctx st = ((s.estopCaused st).enterCompleting st).ctx st := by simp [estopEntered, ctx]
  rw [estopStation_eq (.inl h.running)]
  refine (offerRecord_offers _ st _ _ hstate htest ((congrArg StationCtx.record hctx).trans hrecord) rfl).before ?_ ?_ ?_ ?_ fun j hj => ?_
  · simp [estopEntered, estopCaused, estopLeft, h.running]
  · simp [estopEntered, estopCaused, estopLeft, h.running]
  · simp [estopEntered, estopCaused, estopLeft, h.running, enterCompleting, closeRecord]
  · have hcaused := (s.estopLeft st).leakClose_live_stations st
    have hentered := (s.estopCaused st).leakClose_live_stations st
    have hleft : (s.estopLeft st).counters = s.counters := by
      unfold estopLeft
      split <;> simp
    have hgiven : (s.estopEntered st).counters.live.stations = ((s.estopCaused st).leakClose st).counters.live.stations := by
      simp [estopEntered, enterCompleting, closeRecord]
    exact hgiven.trans (hentered.trans (hcaused.trans (congrArg (fun k => k.live.stations) hleft)))
  · simp [estopEntered, estopCaused, estopLeft, h.running, enterCompleting, closeRecord, Ne.symm hj]

/-! ### The notices (R15, R166, R195) -/

/-- The NSTs of an emergency stop: COMPLETING's, and DONE's when the store takes the record at once. -/
theorem estopStation_notices (h : s.stateOf st = .running ∨ s.stateOf st = .stopping) (hc : (s.ctx st).test = some c)
    (hr : (s.ctx st).record = some r) : ((NoticeBody.nst st .completing (some (c.cause.getD .estop)) none ::
      (match s.store.next with
        | some n => if s.store.records.length < 48 ∧ s.store.deposit = []
            then [.nst st .done (some (c.cause.getD .estop)) (some (.aborted, n))] else []
        | none => [])).foldl State.giveNotice s).SameNotices (s.estopStation st) := by
  obtain ⟨hstate, -, -, -, htest⟩ := s.estopEntered_ctx st
  have hctx : (s.estopEntered st).ctx st = ((s.estopCaused st).enterCompleting st).ctx st := by simp [estopEntered, ctx]
  have hcaused : ((s.estopCaused st).ctx st).record.map Record.cause = some (some (r.cause.getD .estop)) := by
    have hkept : (s.estopLeft st).seq[st.val].record.map Record.cause = some r.cause := by
      simp only [ctx, Fin.getElem_fin] at hr
      unfold estopLeft
      split <;> simp [hr]
    have hkept' : ((s.estopLeft st).leakClose st).seq[st.val].record.map Record.cause = some r.cause := by simp [hkept]
    obtain ⟨k, hk, hcause⟩ := Option.map_eq_some_iff.mp hkept'
    simp [estopCaused, hk, hcause]
  have hrecord : ∃ k : Record, ((s.estopEntered st).ctx st).record = some k ∧ k.verdict = some k.compose ∧ k.compose = .aborted := by
    obtain ⟨r', hr', hcause⟩ := Option.map_eq_some_iff.mp hcaused
    obtain ⟨k, hk, hheading⟩ := (s.estopCaused st).enterCompleting_record st r' hr'
    have hkcause : k.heading.cause = r'.heading.cause := by rw [hheading]
    refine ⟨k, (congrArg StationCtx.record hctx).trans hk, congrArg Record.verdict hheading, ?_⟩
    have : k.cause = some (r.cause.getD .estop) := hkcause.trans hcause
    unfold Record.compose
    rw [this]
    rfl
  have hfirst : (s.giveNotice (.nst st .completing (some (c.cause.getD .estop)) none)).SameNotices (s.estopEntered st) := by
    have hcause : (((s.estopCaused st).enterCompleting st).ctx st).test.bind TestCtx.cause = some (c.cause.getD .estop) := by
      rw [← hctx, htest, hc]
      rfl
    rw [estopEntered, hcause]
    refine SameNotices.giveNotice (SameNotices.trans (t := s.estopLeft st) ?_ ⟨by simp [estopCaused], by simp [estopCaused]⟩) _
    unfold estopLeft
    split <;> exact ⟨by simp, by simp⟩
  have hstore : (s.estopEntered st).store = s.store := by
    simp only [estopEntered, giveNotice_store, enterCompleting_store, estopCaused, modCtx_store, leakClose_store]
    unfold estopLeft
    split <;> simp
  rw [hc] at htest
  obtain ⟨k, hk, hverdict, haborted⟩ := hrecord
  obtain ⟨hgiven, hnothing⟩ := offerRecord_notices htest hk hverdict
  rw [hstore, haborted] at hgiven
  rw [hstore] at hnothing
  rw [estopStation_eq h, List.foldl_cons]
  cases hn : s.store.next with
  | none => exact hfirst.trans (hnothing (.inl hn))
  | some n =>
    by_cases hroom : s.store.records.length < 48 ∧ s.store.deposit = []
    · simp only [if_pos hroom]
      exact (hfirst.give _).trans (hgiven n hn hroom.1 hroom.2)
    · simp only [if_neg hroom]
      refine hfirst.trans (hnothing (.inr ?_))
      rcases not_and_or.mp hroom with h | h
      · exact .inl (Nat.not_lt.mp h)
      · exact .inr h

end State

end Sys2Proof.Machine
end

section
/-! PROOFS. The emergency stop and the notices, settled. -/

namespace Sys2Proof.Machine

open Sys2Proof

set_option Elab.async false

namespace State

variable {s t : State} {st : Station}

/-- The state once the emergency stop's input is active, no station met. -/
def withEstop (s : State) : State := { s with pins := { s.pins with estop := true } }

/-- What the emergency stop does to the stations, in its order (R15). -/
def estopAll (s : State) (order : List Station) : State := (order ++ allStations).foldl estopStation s.withEstop

theorem withEstop_inPlace (h : s.StationsInPlace) : s.withEstop.StationsInPlace :=
  ⟨h.step, h.leak, h.grant, h.supply, h.supplyOnce, h.deposit, h.depositOnce⟩

theorem mem_stationsMet (order : List Station) (st : Station) : st ∈ order ++ allStations :=
  List.mem_append_right _ (by revert st; decide)

/-- What the emergency stop leaves of the line, the Monitor and the pins. -/
theorem foldl_estop_line (ls : List Station) (s : State) : (ls.foldl estopStation s).pins = s.pins
    ∧ (ls.foldl estopStation s).config = s.config ∧ (ls.foldl estopStation s).clock = s.clock
    ∧ (ls.foldl estopStation s).enc = s.enc ∧ (ls.foldl estopStation s).cond = s.cond ∧ (ls.foldl estopStation s).mon = s.mon := by
  induction ls generalizing s with
  | nil => exact ⟨rfl, rfl, rfl, rfl, rfl, rfl⟩
  | cons j ls ih => simpa using ih (s.estopStation j)

/-- No station is in RUNNING or STOPPING after the emergency stop (R15). -/
theorem estopAll_idle (s : State) (order : List Station) (st : Station) :
    (s.estopAll order).stateOf st ≠ .running ∧ (s.estopAll order).stateOf st ≠ .stopping := by
  by_cases hmet : s.stateOf st = .running ∨ s.stateOf st = .stopping
  · have hstopped := foldl_estop_met (s := s.withEstop) (mem_stationsMet order st) hmet
    rcases hstopped.state with h | h <;> rw [estopAll, h] <;> exact ⟨nofun, nofun⟩
  · rw [not_or] at hmet
    have hseq := (foldl_estop_unmet (s := s.withEstop) (order ++ allStations) hmet.1 hmet.2).1
    have hstate : (s.estopAll order).stateOf st = s.stateOf st := congrArg StationCtx.state hseq
    rw [hstate]
    exact hmet

/-- A notice given to a queue with room joins its tail (R194). -/
theorem giveNotice_room (b : NoticeBody) (h : s.link.queue.length < 16) : s.giveNotice b = { s with link := { s.link with
    queue := s.link.queue ++ [⟨s.link.lostPending, b⟩], lostPending := false } } := by
  unfold giveNotice
  exact if_pos h

/-- A notice given to a full queue is lost, counted and remembered (R194). -/
theorem giveNotice_full (b : NoticeBody) (h : 16 ≤ s.link.queue.length) : s.giveNotice b =
    (s.countGlobal (fun c => { c with noticesLost := min (c.noticesLost + 1) 65535 })).modLink
      (fun l => { l with lostPending := true }) := by
  unfold giveNotice
  exact if_neg (Nat.not_lt.mpr h)

/-- An event that gave no notice leaves the link. -/
theorem GivesNotices.link_nil (h : s.GivesNotices t []) : t.link = s.link :=
  h.1.trans (congrArg State.link (s.afterNotices_of_link s rfl))

/-- Notices given to an empty queue with the transmitter FREE: the first goes out, the others wait in order (R193, R194). -/
theorem GivesNotices.link_cons {b : NoticeBody} {rest : List NoticeBody} (h : s.GivesNotices t (b :: rest)) (hfree : s.link.tx = .free)
    (hslot : s.link.slot = none) (hqueue : s.link.queue = []) (hlength : (b :: rest).length ≤ 16) : t.link = { s.link with
      tx := .notice ⟨s.link.lostPending, b⟩, queue := rest.map (fun b => ⟨false, b⟩), lostPending := false } := by
  obtain ⟨hlink, -⟩ := h
  have hgiven := giveNotices_room s (b :: rest) (by rw [hqueue]; simpa using hlength)
  rw [hlink, hgiven]
  simp [afterNotices_link, modLink, hqueue, Link.choose, hfree, hslot]

end State

/-- The emergency stop's event with the input inactive. -/
theorem exec_emergencyStop_taken {s : State} (order : List Station) (h : s.pins.estop = false) :
    exec (.emergencyStop order) s = .next (s.afterNotices (s.estopAll order)) :=
  (exec_emergencyStop s order).trans (eventWhen_taken (fun s => !s.pins.estop)
    (fun s => (order ++ allStations).foldl State.estopStation { s with pins := { s.pins with estop := true } }) s (by rw [h]; rfl))

/-- The record that the emergency stop closes, as R15, R54, R119 and R143 say. -/
theorem State.estopRecord_spec (s : State) (st : Station) (x : StepCtx) (r : Record) :
    let k := s.closedRecord (s.estopRecord st x r)
    k.heading = { r.heading with endTime := some s.now, verdict := some .aborted, cause := some (r.cause.getD .estop) }
      ∧ k.steps = r.steps ++ [s.exitEntry st x] ∧ k.checks = r.checks
      ∧ k.groups = r.groups ++ (State.byFirstWindow s.noise.groups[st]).filterMap s.exitResult
      ∧ k.leaks = r.leaks ++ (s.circuit st).phase.exitResult
      ∧ k.remarks = (if s.waiting st then r.addRemark .engineWait else r).remarks := by
  intro k
  refine ⟨?_, State.settledRecord_steps .., State.settledRecord_checks .., rfl, rfl, State.settledRecord_remarks ..⟩
  have hheading := s.settledRecord_heading st { r with steps := r.steps ++ [s.exitEntry st x] }
  have hk : k.heading = { (s.settledRecord st { r with steps := r.steps ++ [s.exitEntry st x] }).heading with
      endTime := some s.now, verdict := some .aborted, cause := some (r.cause.getD .estop) } := rfl
  rw [hk, hheading]
  rfl

/-- Settles O10. -/
theorem emergencyStopCompletesTests : Obligations.EmergencyStopCompletesTests := by
  refine ⟨fun order s hinactive => ⟨_, exec_emergencyStop_taken order hinactive, ?_⟩, fun s => rfl⟩
  obtain ⟨hpins, hconfig, hclock, henc, hcond, hmon⟩ := State.foldl_estop_line (order ++ allStations) s.withEstop
  refine ⟨?_, ?_, ?_, ?_, ?_, ?_, fun st hmet => ?_, fun st hrunning hstopping => ?_, fun hplace => ?_,
    fun st c x r hplace hruns hc halone => ?_⟩
  · rw [State.afterNotices_pins]
    exact congrArg Pins.estop hpins
  · rw [State.afterNotices_config]
    exact hconfig
  · rw [State.afterNotices_clock]
    exact hclock
  · rw [State.afterNotices_enc]
    exact henc
  · rw [State.afterNotices_cond]
    exact hcond
  · rw [State.afterNotices_mon]
    exact hmon
  · have hstopped := State.foldl_estop_met (s := s.withEstop) (State.mem_stationsMet order st) hmet
    rw [State.stateOf, State.afterNotices_seq, State.afterNotices_drive, State.afterNotices_counters, State.afterNotices_ctx]
    exact ⟨hstopped.state, hstopped.drive, hstopped.step, hstopped.changed, hstopped.cause⟩
  · rw [State.afterNotices_seq, State.afterNotices_drive]
    exact State.foldl_estop_unmet (s := s.withEstop) (order ++ allStations) hrunning hstopping
  · have hplace' := State.withEstop_inPlace hplace
    obtain ⟨hgrant, hqueue, hphase⟩ :=
      (State.foldl_estop_inPlace (order ++ allStations) hplace').idle (s.estopAll_idle order)
    simp only [State.circuit, State.afterNotices_leak]
    exact ⟨hgrant, hqueue, fun st => ⟨hphase st, fun h => State.foldl_estop_rest hplace' (State.mem_stationsMet order st) h⟩⟩
  · have hall : s.estopAll order = s.withEstop.estopStation st :=
      State.foldl_estop_alone (State.mem_stationsMet order st) (.inl hruns.running) halone
    have hoffers : s.OffersRecord (s.withEstop.estopStation st) st { c with cause := some (c.cause.getD .estop) }
        (s.closedRecord (s.estopRecord st x r)) :=
      (State.estopStation_offers (s := s.withEstop) (x := x) (State.withEstop_inPlace hplace)
        ⟨hruns.running, hruns.step, hruns.record⟩ hc).before (s := s) (t := s.withEstop) rfl rfl rfl rfl fun j _ => ⟨rfl, rfl⟩
    obtain ⟨hheading, hsteps, hchecks, hgroups, hleaks, hremarks⟩ := s.estopRecord_spec st x r
    obtain ⟨hperm, hsorted⟩ := State.byFirstWindow_spec s.noise.groups[st]
    rw [hall]
    exact ⟨_, _, hoffers.link (State.afterNotices_only_link s _), hheading, hsteps, hchecks, hperm, hsorted, hgroups, hleaks, hremarks⟩

/-- Settles O52. -/
theorem noticesJoinTheQueueOrAreLost : Obligations.NoticesJoinTheQueueOrAreLost := by
  refine ⟨fun b s => ⟨State.giveNotice_room b, State.giveNotice_full b⟩,
    fun bs s t hgives hfree hslot hqueue hlength => ?_, fun order st c r s hinactive hmet halone hc hr => ?_⟩
  · cases bs with
    | nil => exact hgives.link_nil
    | cons b rest => exact hgives.link_cons hfree hslot hqueue hlength
  have hall : s.estopAll order = s.withEstop.estopStation st :=
    State.foldl_estop_alone (State.mem_stationsMet order st) hmet halone
  refine ⟨_, exec_emergencyStop_taken order hinactive, ?_⟩
  rw [hall]
  have hsame : s.SameNotices s.withEstop := ⟨rfl, rfl⟩
  exact ((hsame.give _).trans (State.estopStation_notices (s := s.withEstop) hmet hc hr)).gives

end Sys2Proof.Machine
end

section
/-! PROOFS. LDR, DRP and PIN (R28 to R46). -/

namespace Sys2Proof.Machine

open Sys2Proof

set_option Elab.async false

/-! ### Retirement (R42) -/

theorem Entry.dirty_iff (e : Entry) : e.dirty = true ↔ e.tests ≠ 0 ∨ e.fails ≠ 0 := by simp [Entry.dirty]

namespace State

variable {s : State} {i : Fin 8} {w : Fin 4} {e : Entry}

/-- What a body that departs writes back and gives (R42). -/
theorem retires_received (s : State) (e : Entry) (i : Fin 8) (set : RecipeSet) (kind tag : Byte) (payload : List Byte) :
    s.Retires (((s.received.retire e).setSet i set).replies kind tag payload) e kind tag payload := by
  have hglobals : ∀ (u : State) (b : NoticeBody), (u.giveNotice b).counters.live.globals.retiredTests = u.counters.live.globals.retiredTests
      ∧ (u.giveNotice b).counters.live.globals.retiredFails = u.counters.live.globals.retiredFails := by
    intro u b
    unfold giveNotice
    split <;> exact ⟨rfl, rfl⟩
  by_cases hdirty : e.dirty = true
  · have hwritten := hglobals (s.received.countGlobal (fun c => { c with
      retiredTests := satAdd c.retiredTests e.tests, retiredFails := satAdd c.retiredFails e.fails }))
      (.nrt e.recipe.variant e.recipe.revision e.tests e.fails)
    have hsame : ([NoticeBody.nrt e.recipe.variant e.recipe.revision e.tests e.fails].foldl State.giveNotice s.received).SameNotices
        ((s.received.retire e).setSet i set) := by
      unfold retire
      rw [if_pos hdirty]
      exact SameNotices.giveNotice (s := s.received) (t := s.received.countGlobal (fun c => { c with
        retiredTests := satAdd c.retiredTests e.tests, retiredFails := satAdd c.retiredFails e.fails })) ⟨rfl, rfl⟩ _
    have hretired : s.received.retire e = (s.received.countGlobal (fun c => { c with
      retiredTests := satAdd c.retiredTests e.tests, retiredFails := satAdd c.retiredFails e.fails })).giveNotice
      (.nrt e.recipe.variant e.recipe.revision e.tests e.fails) := if_pos hdirty
    unfold Retires
    simp only [if_pos ((Entry.dirty_iff e).mp hdirty)]
    refine ⟨hsame.answers kind tag payload, ?_, ?_, ?_⟩
    · simpa [hretired, satAdd] using hwritten.1
    · simpa [hretired, satAdd] using hwritten.2
    · simp
  · have hretired : s.received.retire e = s.received := if_neg hdirty
    unfold Retires
    simp only [if_neg fun h => hdirty ((Entry.dirty_iff e).mpr h)]
    rw [hretired]
    exact ⟨SameNotices.answers (bs := []) (t := s.received.setSet i set) ⟨rfl, rfl⟩ kind tag payload, rfl, rfl, rfl⟩

/-! ### The sets of a changed table -/

theorem getElem_setSet_same (s : State) (i : Fin 8) (set : RecipeSet) : (s.setSet i set).table[i] = set := by simp

theorem getElem_setSet_other {j : Fin 8} (s : State) (set : RecipeSet) (hj : j ≠ i) : (s.setSet i set).table[j] = s.table[j] := by
  simp [Fin.val_ne_of_ne (Ne.symm hj)]

end State

/-! ### The way that a body takes (R44) -/

/-- The evictable entry of the highest rank is the victim (R44). -/
theorem RecipeSet.victim_of_highest {set : RecipeSet} {w : Fin 4} {e : Entry} (he : set[w] = some e) (hlock : e.lock = 0)
    (hpinned : e.pinned = false) (hhighest : ∀ (v : Fin 4) (d : Entry), set[v] = some d → d.lock = 0 → d.pinned = false →
      v ≠ w → d.rank < e.rank) : RecipeSet.victim set = some (w, e) := by
  have hevictable : e.evictable = true := by simp [Entry.evictable, hlock, hpinned]
  have hspec := RecipeSet.victim_spec set
  cases hvictim : RecipeSet.victim set with
  | none =>
    rw [hvictim] at hspec
    exact absurd (hevictable.symm.trans (hspec w (mem_allWays w) e he)) nofun
  | some x =>
    obtain ⟨v, d⟩ := x
    obtain ⟨hd, hdlock, hdpinned⟩ := RecipeSet.victim_eq_some hvictim
    rw [hvictim] at hspec
    obtain ⟨-, -, -, hmax⟩ := hspec
    by_cases hv : v = w
    · subst hv
      rw [Option.some.inj (hd.symm.trans he)]
    · have := hhighest v d hd hdlock hdpinned hv
      have := hmax w (mem_allWays w) e he hevictable
      omega

/-- A set whose entries are all locked or pinned has neither a free way nor a victim (R44). -/
theorem RecipeSet.full_of {set : RecipeSet} (h : ∀ v : Fin 4, ∃ d, set[v] = some d ∧ (d.lock ≠ 0 ∨ d.pinned = true)) :
    RecipeSet.freeWay set = none ∧ RecipeSet.victim set = none := by
  constructor
  · refine List.find?_eq_none.mpr fun v _ => ?_
    obtain ⟨d, hd, -⟩ := h v
    simp [hd]
  · cases hvictim : RecipeSet.victim set with
    | none => rfl
    | some x =>
      obtain ⟨v, e⟩ := x
      obtain ⟨he, hlock, hpinned⟩ := RecipeSet.victim_eq_some hvictim
      obtain ⟨d, hd, hkept⟩ := h v
      obtain rfl := Option.some.inj (hd.symm.trans he)
      rcases hkept with hkept | hkept
      · exact absurd hlock hkept
      · exact absurd (hkept.symm.trans hpinned) nofun

/-! ### LDR (R43, R44) -/

section

variable {tag : Byte} {body : List Byte} {s t : State} {r : Recipe} {w : Fin 4} {e : Entry} {payload : List Byte}

/-- An LDR whose length agrees with its header, by its rule. -/
theorem exec_ldr_served (hslot : s.link.slot = none) (hfits : LengthAgrees body) (hserve : serveLdr body s.received = (t, payload)) :
    exec (.ldr tag body) s = .next (t.replies 0xA0 tag payload) := by
  refine State.exec_served (c := .ldr tag body) rfl hslot ?_
  exact (if_pos ((bodyFits_iff body).mpr hfits)).trans hserve

theorem serveLdr_refused {el : Element} {pos : Nat} (h : RecipeRefused body el pos) :
    serveLdr body s = (s, [0x0A, el.code, byteOf pos]) := by
  unfold serveLdr
  rw [(validate_error_iff body ⟨el, pos⟩).mpr h]
  rfl

theorem serveLdr_carried (h : RecipeCarried body r) : serveLdr body s = placeRecipe r s := by
  unfold serveLdr
  rw [(validate_ok_iff body r).mpr h]

/-- A new body goes into the lowest free way. -/
theorem placeRecipe_free (hmiss : s.lookup r.variant = none) (hfree : RecipeSet.freeWay s.table[setIndex r.variant] = some w) :
    placeRecipe r s = (s.setSet (setIndex r.variant) (RecipeSet.installFree s.table[setIndex r.variant] w (Entry.fresh r false)),
      0x00 :: ldrReply (setIndex r.variant) w r none) := by
  simp only [placeRecipe, hmiss, hfree]
  rfl

/-- A body whose variant is locked in the table is refused. -/
theorem placeRecipe_locked {i : Fin 8} (hhit : s.lookup r.variant = some (i, w, e)) (hlock : e.lock ≠ 0) :
    placeRecipe r s = (s, [0x0C]) := by
  simp only [placeRecipe, hhit, if_pos hlock]
  rfl

/-- A body held already is replaced in its place. -/
theorem placeRecipe_replaces (hhit : s.lookup r.variant = some (setIndex r.variant, w, e)) (hlock : e.lock = 0) :
    placeRecipe r s = ((s.retire e).setSet (setIndex r.variant) (RecipeSet.installOver s.table[setIndex r.variant] w e.rank
      (Entry.fresh r e.pinned)), 0x00 :: ldrReply (setIndex r.variant) w r (some e)) := by
  simp only [placeRecipe, hhit, if_neg (not_not.mpr hlock)]
  simp only [State.retire_table]
  rfl

/-- A new body of a full set goes over the victim. -/
theorem placeRecipe_over (hmiss : s.lookup r.variant = none) (hfull : RecipeSet.freeWay s.table[setIndex r.variant] = none)
    (hvictim : RecipeSet.victim s.table[setIndex r.variant] = some (w, e)) :
    placeRecipe r s = ((s.retire e).setSet (setIndex r.variant) (RecipeSet.installOver s.table[setIndex r.variant] w e.rank
      (Entry.fresh r false)), 0x00 :: ldrReply (setIndex r.variant) w r (some e)) := by
  simp only [placeRecipe, hmiss, hfull, hvictim]
  simp only [State.retire_table]
  rfl

/-- A new body of a full set without a victim is refused. -/
theorem placeRecipe_full (hmiss : s.lookup r.variant = none) (hfull : RecipeSet.freeWay s.table[setIndex r.variant] = none)
    (hvictim : RecipeSet.victim s.table[setIndex r.variant] = none) : placeRecipe r s = (s, [0x0D]) := by
  simp only [placeRecipe, hmiss, hfull, hvictim]
  rfl

/-- A body installed over an entry: its set, the ranks, and what the departing body gives (R38, R42, R44). -/
theorem ldr_installs (hslot : s.link.slot = none) (hfits : LengthAgrees body) (hcarried : RecipeCarried body r)
    (hplaces : placeRecipe r s.received = ((s.received.retire e).setSet (setIndex r.variant)
      (RecipeSet.installOver s.table[setIndex r.variant] w e.rank (Entry.fresh r e.pinned)),
      0x00 :: ldrReply (setIndex r.variant) w r (some e))) : ∃ t, exec (.ldr tag body) s = .next t
    ∧ t.table[setIndex r.variant][w] = some ⟨r, e.pinned, 0, 0, 0, 0⟩
    ∧ (∀ v : Fin 4, v ≠ w → t.table[setIndex r.variant][v] = (s.table[setIndex r.variant][v]).map
        (fun d => { d with rank := if d.rank < e.rank then d.rank + 1 else d.rank }))
    ∧ (∀ i : Fin 8, i ≠ setIndex r.variant → t.table[i] = s.table[i]) ∧ t.seq = s.seq ∧ s.Retires t e 0xA0 tag
        (0x00 :: byteOf (setIndex r.variant) :: byteOf w :: (le16 (crc16 body)
          ++ 0x01 :: (nat16 e.recipe.variant ++ [byteOf e.recipe.revision]))) := by
  have hreply : (0x00 : Byte) :: ldrReply (setIndex r.variant) w r (some e) = 0x00 :: byteOf (setIndex r.variant) :: byteOf w ::
      (le16 (crc16 body) ++ 0x01 :: (nat16 e.recipe.variant ++ [byteOf e.recipe.revision])) := by
    rw [← hcarried.fingerprint]
    rfl
  rw [hreply] at hplaces
  refine ⟨_, exec_ldr_served hslot hfits ((serveLdr_carried hcarried).trans hplaces), ?_, fun v hv => ?_, fun i hi => ?_, by simp,
    State.retires_received ..⟩
  · rw [State.replies_table, State.getElem_setSet_same, RecipeSet.getElem_installOver, if_pos rfl]
    rfl
  · rw [State.replies_table, State.getElem_setSet_same, RecipeSet.getElem_installOver, if_neg (Ne.symm hv)]
  · rw [State.replies_table, State.getElem_setSet_other _ _ hi, State.retire_table, State.received_table]

end

end Sys2Proof.Machine
end

section
/-! PROOFS. LDR, DRP and PIN, settled (R28 to R46). -/

namespace Sys2Proof.Machine

open Sys2Proof

set_option Elab.async false

/-- Every body is a recipe's or is refused (R33). -/
theorem carried_or_refused (body : List Byte) : (∃ r, RecipeCarried body r) ∨ ∃ el pos, RecipeRefused body el pos := by
  cases hvalid : validate body with
  | ok r => exact .inl ⟨r, (validate_ok_iff body r).mp hvalid⟩
  | error e => exact .inr ⟨e.element, e.position, (validate_error_iff body e).mp hvalid⟩

section

variable {s : State} {tag : Byte} {v : Word16} {i : Fin 8} {w : Fin 4} {e : Entry}

theorem yesNoOf_yesNo (p : Bool) : yesNoOf (yesNo p) = some p := by cases p <;> rfl

/-- PIN with a byte that is no yes or no is refused. -/
theorem servePin_unnamed {p : Byte} (h₀ : p ≠ 0) (h₁ : p ≠ 1) : servePin v p s = (s, [0x03]) := by
  have hnone : yesNoOf p = none := by
    cases hp : yesNoOf p with
    | none => rfl
    | some b =>
      have hb := yesNoOf_eq_some_iff.mp hp
      cases b with
      | false => exact absurd hb h₀
      | true => exact absurd hb h₁
  unfold servePin
  rw [hnone]
  rfl

theorem servePin_yesNo (p : Bool) : servePin v (yesNo p) s =
    withEntry v s fun i w _ => answer (s.modEntry i w (fun e => { e with pinned := p })) [byteOf i, byteOf w, yesNo p] := by
  unfold servePin
  rw [yesNoOf_yesNo]

/-- DRP of a locked entry is refused, and of an unlocked one drops it (R45). -/
theorem serveDrp_locked (hv : v ≠ 0) (hhit : s.lookup v.toNat = some (i, w, e)) (hlock : e.lock ≠ 0) :
    serveDrp v s = (s, [0x0C]) := (withEntry_hit _ hv hhit).trans (if_pos hlock)

theorem serveDrp_drops (hv : v ≠ 0) (hhit : s.lookup v.toNat = some (i, w, e)) (hlock : e.lock = 0) :
    serveDrp v s = ((s.retire e).setSet i (RecipeSet.drop s.table[i] w e.rank), [0x00, byteOf i, byteOf w]) := by
  refine (withEntry_hit _ hv hhit).trans ((if_neg (not_not.mpr hlock)).trans ?_)
  simp only [State.retire_table]
  rfl

end

/-- Settles O48. -/
theorem recipesInstallDropAndPin : Obligations.RecipesInstallDropAndPin := by
  refine ⟨fun body => ⟨carried_or_refused body, validate_ok_iff body, validate_error_iff body⟩,
    fun tag s hslot => ⟨fun body => ⟨fun hlength => ?_, fun el pos hfits hrefused => ?_, fun r hfits hcarried =>
      ⟨fun w hmiss hfree => ?_, fun i w e hhit hlock => ?_, fun w e he hplace => ?_, fun hmiss hkept => ?_⟩⟩,
      fun v => ⟨fun hv => ?_, fun p h₀ h₁ => ?_, fun hv hmiss => ?_⟩, fun v i w e hv hhit => ⟨fun hlock => ?_, fun hlock => ?_, fun p => ?_⟩⟩⟩
  · exact State.exec_served (c := .ldr tag body) rfl hslot (if_neg fun h => hlength ((bodyFits_iff body).mp h))
  · exact exec_ldr_served hslot hfits (serveLdr_refused hrefused)
  · have hserve := (serveLdr_carried (s := s.received) hcarried).trans
      (placeRecipe_free ((s.received_lookup _).trans hmiss) hfree)
    refine ⟨_, exec_ldr_served hslot hfits hserve, ?_, fun v hv => ?_, fun i hi => ?_, ?_, by simp, by simp⟩
    · rw [State.replies_table, State.getElem_setSet_same, RecipeSet.getElem_installFree, if_pos rfl]
      rfl
    · rw [State.replies_table, State.getElem_setSet_same, RecipeSet.getElem_installFree, if_neg (Ne.symm hv)]
      rfl
    · rw [State.replies_table, State.getElem_setSet_other _ _ hi, State.received_table]
    · rw [← hcarried.fingerprint]
      rfl
  · exact exec_ldr_served hslot hfits ((serveLdr_carried hcarried).trans (placeRecipe_locked ((s.received_lookup _).trans hhit) hlock))
  · refine ldr_installs hslot hfits hcarried ?_
    rcases hplace with ⟨hhit, hlock⟩ | ⟨hmiss, hfull, hlock, hpinned, hhighest⟩
    · exact placeRecipe_replaces ((s.received_lookup _).trans hhit) hlock
    · rw [hpinned]
      exact placeRecipe_over ((s.received_lookup _).trans hmiss) hfull (RecipeSet.victim_of_highest he hlock hpinned hhighest)
  · obtain ⟨hfull, hvictim⟩ := RecipeSet.full_of hkept
    exact exec_ldr_served hslot hfits ((serveLdr_carried hcarried).trans
      (placeRecipe_full ((s.received_lookup _).trans hmiss) hfull hvictim))
  · subst hv
    refine ⟨State.exec_served (c := .drp tag 0) rfl hslot rfl, fun p => State.exec_served (c := .pin tag 0 p) rfl hslot ?_⟩
    by_cases h : p = 0 ∨ p = 1
    · rcases h with rfl | rfl <;> rfl
    · rw [not_or] at h
      exact servePin_unnamed h.1 h.2
  · exact State.exec_served (c := .pin tag v p) rfl hslot (servePin_unnamed h₀ h₁)
  · have hmiss' := (s.received_lookup _).trans hmiss
    exact ⟨State.exec_served (c := .drp tag v) rfl hslot (withEntry_miss _ hv hmiss'),
      fun p => State.exec_served (c := .pin tag v (yesNo p)) rfl hslot ((servePin_yesNo p).trans (withEntry_miss _ hv hmiss'))⟩
  · exact State.exec_served (c := .drp tag v) rfl hslot (serveDrp_locked hv ((s.received_lookup _).trans hhit) hlock)
  · refine ⟨_, State.exec_served (c := .drp tag v) rfl hslot (serveDrp_drops hv ((s.received_lookup _).trans hhit) hlock), ?_,
      fun u hu => ?_, fun j hj => ?_, by simp, State.retires_received ..⟩
    · rw [State.replies_table, State.getElem_setSet_same, RecipeSet.getElem_drop, if_pos rfl]
    · rw [State.replies_table, State.getElem_setSet_same, RecipeSet.getElem_drop, if_neg (Ne.symm hu)]
      rfl
    · rw [State.replies_table, State.getElem_setSet_other _ _ hj, State.retire_table, State.received_table]
  · exact State.exec_served (c := .pin tag v (yesNo p)) rfl hslot
      ((servePin_yesNo p).trans (withEntry_hit _ hv ((s.received_lookup _).trans hhit)))

end Sys2Proof.Machine
end

section
/-! PROOFS. STT's checks in their order (R17, R18). -/

namespace Sys2Proof.Machine

open Sys2Proof

set_option Elab.async false

/-! ### The identity (R18) -/

section

variable {f : SttFields}

/-- The bytes after the text are those that the source admits (R204, R206). -/
theorem sttTailFits_iff : sttTailFits f.source f.body = true ↔ (if f.source = 1 then LengthAgrees f.body else f.body = []) := by
  unfold sttTailFits
  by_cases h : f.source = 1
  · simp only [if_pos h]
    exact bodyFits_iff f.body
  · simp only [if_neg h, List.isEmpty_iff]

theorem identityFormed_iff : identityFormed f = true ↔ 1 ≤ f.text.length ∧ f.text.length ≤ 20
    ∧ (∀ b ∈ f.text, 0x20 ≤ b.toNat ∧ b.toNat ≤ 0x7E) ∧ f.variant ≠ 0 := by
  simp [identityFormed, and_assoc]

theorem identityFormed_eq_false (h : f.text.length = 0 ∨ 20 < f.text.length
    ∨ (∃ b ∈ f.text, b.toNat < 0x20 ∨ 0x7E < b.toNat) ∨ f.variant = 0) : identityFormed f = false := by
  by_contra hne
  obtain ⟨hlow, hhigh, hbytes, hvariant⟩ := identityFormed_iff.mp (Bool.eq_true_of_not_eq_false hne)
  obtain h | h | ⟨b, hb, h⟩ | h := h
  · omega
  · omega
  · have := hbytes b hb
    omega
  · exact hvariant h

/-- A byte sum is the sum of its bytes modulo 256. -/
theorem toNat_foldl_add (bs : List Byte) (start : Byte) :
    (bs.foldl (· + ·) start).toNat = (start.toNat + (bs.map BitVec.toNat).sum) % 256 := by
  induction bs generalizing start with
  | nil => simp [Nat.mod_eq_of_lt start.isLt]
  | cons b rest ih =>
    rw [List.foldl_cons, ih, BitVec.toNat_add, List.map_cons, List.sum_cons]
    omega

theorem checkByteRight_iff : checkByteRight f = true ↔ ((f.text.map BitVec.toNat).sum + f.variant.toNat % 256
    + f.variant.toNat / 256 + f.checkByte.toNat) % 256 = 0 := by
  have hvariant := f.variant.isLt
  have hsum : (f.text.foldl (· + ·) (f.checkByte + f.variant.extractLsb' 0 8 + f.variant.extractLsb' 8 8)).toNat =
      ((f.text.map BitVec.toNat).sum + f.variant.toNat % 256 + f.variant.toNat / 256 + f.checkByte.toNat) % 256 := by
    rw [toNat_foldl_add, BitVec.toNat_add, BitVec.toNat_add, BitVec.extractLsb'_toNat, BitVec.extractLsb'_toNat,
      Nat.shiftRight_eq_div_pow, Nat.shiftRight_eq_div_pow]
    omega
  rw [checkByteRight, beq_iff_eq, ← BitVec.toNat_inj, hsum]
  rfl

end

/-! ### The recipe (check 6) -/

section

variable {f : SttFields} {s : State} {i : Fin 8} {w : Fin 4} {e : Entry} {r : Recipe}

theorem sttRecipe_miss (hsource : f.source = 0) (hmiss : s.lookup f.variant.toNat = none) : sttRecipe f s = .error [0x09] := by
  simp only [sttRecipe, if_pos hsource, hmiss]
  rfl

theorem sttRecipe_hit (hsource : f.source = 0) (hhit : s.lookup f.variant.toNat = some (i, w, e)) :
    sttRecipe f s = .ok (e.recipe, .table i w) := by
  simp only [sttRecipe, if_pos hsource, hhit]

theorem sttRecipe_refused {el : Element} {pos : Nat} (hsource : f.source = 1) (h : RecipeRefused f.body el pos) :
    sttRecipe f s = .error [0x0A, el.code, byteOf pos] := by
  simp only [sttRecipe, hsource, (validate_error_iff f.body ⟨el, pos⟩).mpr h]
  rfl

theorem sttRecipe_mismatch (hsource : f.source = 1) (h : RecipeCarried f.body r) (hne : r.variant ≠ f.variant.toNat) :
    sttRecipe f s = .error [0x0B] := by
  simp only [sttRecipe, hsource, (validate_ok_iff f.body r).mpr h, if_pos hne]
  rfl

theorem sttRecipe_carried (hsource : f.source = 1) (h : RecipeCarried f.body r) (heq : r.variant = f.variant.toNat) :
    sttRecipe f s = .ok (r, .transient) := by
  simp only [sttRecipe, hsource, (validate_ok_iff f.body r).mpr h, if_neg (not_not.mpr heq)]
  rfl

theorem sttRecipe_unnamed (h₀ : f.source ≠ 0) (h₁ : f.source ≠ 1) : sttRecipe f s = .error [0x03] :=
  (if_neg h₀).trans (if_neg h₁)

end

/-! ### The chain of the checks -/

/-- Checks 1 to 3 of R17 are passed: the station is known, enabled and IDLE, and the emergency stop is inactive. -/
structure SttAdmitted (f : SttFields) (st : Station) (s : State) : Prop where
  station : f.station = stationCode st
  enabled : (s.ctx st).enabled = true
  estop : s.pins.estop = false
  idle : s.stateOf st = .idle

/-- And checks 4 and 5: the identity is formed and its check byte is right. -/
structure SttIdentified (f : SttFields) (st : Station) (s : State) : Prop extends SttAdmitted f st s where
  formed : identityFormed f = true
  checked : checkByteRight f = true

section

variable {f : SttFields} {st : Station} {s t : State} {tag : Byte} {payload : List Byte}

/-- An STT whose length its source admits, by its rule. -/
theorem exec_stt_served (hslot : s.link.slot = none) (hfits : if f.source = 1 then LengthAgrees f.body else f.body = [])
    (hserve : serveStt f s.received = (t, payload)) : exec (.stt tag f) s = .next (t.replies 0x90 tag payload) :=
  State.exec_served (c := .stt tag f) rfl hslot ((if_pos (sttTailFits_iff.mpr hfits)).trans hserve)

theorem serveStt_disabled (hst : f.station = stationCode st) (h : (s.ctx st).enabled = false) : serveStt f s = (s, [0x06]) := by
  rw [serveStt, hst, withStation_stationCode, h]
  rfl

theorem serveStt_estopActive (hst : f.station = stationCode st) (h : (s.ctx st).enabled = true) (hestop : s.pins.estop = true) :
    serveStt f s = (s, [0x07]) := by
  rw [serveStt, hst, withStation_stationCode, h, if_neg (by decide), if_pos hestop]
  rfl

theorem serveStt_notIdle (hst : f.station = stationCode st) (h : (s.ctx st).enabled = true) (hestop : s.pins.estop = false)
    (hidle : s.stateOf st ≠ .idle) : serveStt f s = (s, [0x05]) := by
  rw [serveStt, hst, withStation_stationCode, h, if_neg (by decide), if_neg (by simp [hestop]), if_pos hidle]
  rfl

theorem serveStt_unformed (h : SttAdmitted f st s) (hformed : identityFormed f = false) : serveStt f s = (s, [0x03]) := by
  rw [serveStt, h.station, withStation_stationCode, h.enabled, if_neg (by decide), if_neg (by simp [h.estop]),
    if_neg (not_not.mpr h.idle), hformed]
  rfl

theorem serveStt_wrongCheck (h : SttAdmitted f st s) (hformed : identityFormed f = true) (hchecked : checkByteRight f = false) :
    serveStt f s = (s, [0x08]) := by
  rw [serveStt, h.station, withStation_stationCode, h.enabled, if_neg (by decide), if_neg (by simp [h.estop]),
    if_neg (not_not.mpr h.idle), hformed, if_neg (by decide), hchecked]
  rfl

/-- What STT's rule does with the outcome of check 6: checks 7 to 9, then the start of the test (R17, R19). -/
def serveSttRecipe (f : SttFields) (st : Station) (s : State) : Except (List Byte) (Recipe × RecipeRef) → State × List Byte
  | .error reply => (s, reply)
  | .ok (r, ref) =>
    if r.cls = .master ∧ s.config.mode = .production then refuse s .mode
    else if s.substituted st ∧ s.config.mode = .production then refuse s .substituted
    else
      match firstConflict (effective s.mon.globals r.overrides) with
      | some q => (s, [Status.limitsConflict.code, q.code])
      | none => answer (s.startTest st f r ref (effective s.mon.globals r.overrides)) (le32 s.now ++ le16 r.fingerprint)

/-- Checks 1 to 5 passed, the rest of the rule is left. -/
theorem serveStt_identified (h : SttIdentified f st s) : serveStt f s = serveSttRecipe f st s (sttRecipe f s) := by
  rw [serveStt, h.station, withStation_stationCode, h.enabled, if_neg (by decide), if_neg (by simp [h.estop]),
    if_neg (not_not.mpr h.idle), h.formed, if_neg (by decide), h.checked, if_neg (by decide)] <;> rfl

theorem serveStt_noRecipe (h : SttIdentified f st s) (hrecipe : sttRecipe f s = .error payload) : serveStt f s = (s, payload) := by
  rw [serveStt_identified h, hrecipe] <;> rfl

variable {r : Recipe} {ref : RecipeRef}

/-- Check 7: a MASTER recipe runs in VERIFY only. -/
theorem serveStt_mode (h : SttIdentified f st s) (hrecipe : sttRecipe f s = .ok (r, ref)) (hcls : r.cls = .master)
    (hmode : s.config.mode = .production) : serveStt f s = (s, [0x0E]) := by
  rw [serveStt_identified h, hrecipe]
  exact if_pos ⟨hcls, hmode⟩

/-- Check 8: a substituted channel tests in VERIFY only. -/
theorem serveStt_substituted (h : SttIdentified f st s) (hrecipe : sttRecipe f s = .ok (r, ref)) (hcls : r.cls = .production)
    (hsub : s.substituted st = true) (hmode : s.config.mode = .production) : serveStt f s = (s, [0x0F]) := by
  rw [serveStt_identified h, hrecipe]
  exact (if_neg (by simp [hcls])).trans (if_pos ⟨hsub, hmode⟩)

theorem serveStt_conflict {q : StQuantity} (h : SttIdentified f st s) (hrecipe : sttRecipe f s = .ok (r, ref))
    (hcls : ¬(r.cls = .master ∧ s.config.mode = .production)) (hsub : ¬(s.substituted st ∧ s.config.mode = .production))
    (hfirst : firstConflict (effective s.mon.globals r.overrides) = some q) : serveStt f s = (s, [0x10, q.code]) := by
  rw [serveStt_identified h, hrecipe]
  refine (if_neg hcls).trans ((if_neg hsub).trans ?_)
  simp only [hfirst]
  rfl

theorem serveStt_starts (h : SttIdentified f st s) (hrecipe : sttRecipe f s = .ok (r, ref))
    (hcls : ¬(r.cls = .master ∧ s.config.mode = .production)) (hsub : ¬(s.substituted st ∧ s.config.mode = .production))
    (hfirst : firstConflict (effective s.mon.globals r.overrides) = none) : serveStt f s =
      (s.startTest st f r ref (effective s.mon.globals r.overrides), 0x00 :: (le32 s.now ++ le16 r.fingerprint)) := by
  rw [serveStt_identified h, hrecipe]
  refine (if_neg hcls).trans ((if_neg hsub).trans ?_)
  simp only [hfirst]
  rfl

end

/-! ### The first conflict (check 9) -/

section

variable {s : State} {r : Recipe}

theorem firstConflict_eq_some {before after : List StQuantity} {q : StQuantity} (hall : allStQuantities = before ++ q :: after)
    (hbefore : ∀ p ∈ before, (s.resolvedThresholds r p).ordered = true) (hq : (s.resolvedThresholds r q).ordered = false) :
    firstConflict (effective s.mon.globals r.overrides) = some q := by
  rw [firstConflict, hall, List.find?_append, List.find?_eq_none.mpr, Option.none_or, List.find?_cons_of_pos]
  · simp [State.effective_resolved, hq]
  · intro p hp
    simp [State.effective_resolved, hbefore p hp]

theorem firstConflict_eq_none (h : ∀ q : StQuantity, (s.resolvedThresholds r q).ordered = true) :
    firstConflict (effective s.mon.globals r.overrides) = none := by
  refine List.find?_eq_none.mpr fun q _ => ?_
  simp [State.effective_resolved, h q]

end

/-- Settles O13. -/
theorem sttChecksInOrder : Obligations.SttChecksInOrder := by
  refine fun tag f s hslot => ⟨fun hlength => ?_, fun hfits => ⟨fun hbad => ?_, fun st hst => ⟨fun hoff => ?_,
    fun hon hestop => ?_, fun hon hestop hbusy => ?_, fun hon hestop hidle => ⟨fun hunformed => ?_,
      fun hlow hhigh hbytes hvariant => ?_⟩⟩⟩⟩
  · exact State.exec_served (c := .stt tag f) rfl hslot (if_neg fun h => hlength (sttTailFits_iff.mp h))
  · exact exec_stt_served hslot hfits (withStation_badStation _ _ _ hbad)
  · exact exec_stt_served hslot hfits (serveStt_disabled hst hoff)
  · exact exec_stt_served hslot hfits (serveStt_estopActive hst hon hestop)
  · exact exec_stt_served hslot hfits (serveStt_notIdle hst hon hestop hbusy)
  · exact exec_stt_served hslot hfits (serveStt_unformed ⟨hst, hon, hestop, hidle⟩ (identityFormed_eq_false hunformed))
  have hadmitted : SttAdmitted f st s.received := ⟨hst, hon, hestop, hidle⟩
  have hformed : identityFormed f = true := identityFormed_iff.mpr ⟨hlow, hhigh, hbytes, hvariant⟩
  have hid : ((f.text.map BitVec.toNat).sum + f.variant.toNat % 256 + f.variant.toNat / 256 + f.checkByte.toNat) % 256 = 0 →
      SttIdentified f st s.received := fun hsum => ⟨hadmitted, hformed, checkByteRight_iff.mpr hsum⟩
  refine ⟨fun hsum => ?_, fun hsum h₀ h₁ => ?_, fun hsum h₀ hmiss => ?_, fun el pos hsum h₁ hrefused => ?_,
    fun r hsum h₁ hcarried hne => ?_, fun r hsum hsource => ?_⟩
  · exact exec_stt_served hslot hfits (serveStt_wrongCheck hadmitted hformed
      (Bool.eq_false_iff.mpr fun h => hsum (checkByteRight_iff.mp h)))
  · exact exec_stt_served hslot hfits (serveStt_noRecipe (hid hsum) (sttRecipe_unnamed h₀ h₁))
  · exact exec_stt_served hslot hfits (serveStt_noRecipe (hid hsum) (sttRecipe_miss h₀ ((s.received_lookup _).trans hmiss)))
  · exact exec_stt_served hslot hfits (serveStt_noRecipe (hid hsum) (sttRecipe_refused h₁ hrefused))
  · exact exec_stt_served hslot hfits (serveStt_noRecipe (hid hsum) (sttRecipe_mismatch h₁ hcarried hne))
  have hrecipe : ∃ ref, sttRecipe f s.received = .ok (r, ref) := by
    obtain ⟨h₀, i, w, e, hhit, rfl⟩ | ⟨h₁, hcarried, heq⟩ := hsource
    · exact ⟨_, sttRecipe_hit h₀ ((s.received_lookup _).trans hhit)⟩
    · exact ⟨_, sttRecipe_carried h₁ hcarried heq⟩
  obtain ⟨ref, hrecipe⟩ := hrecipe
  refine ⟨fun hcls hmode => ?_, fun hcls hsub hmode => ?_, fun hmode before after q hall hbefore hq => ?_⟩
  · exact exec_stt_served hslot hfits (serveStt_mode (hid hsum) hrecipe hcls hmode)
  · exact exec_stt_served hslot hfits (serveStt_substituted (hid hsum) hrecipe hcls hsub hmode)
  · refine exec_stt_served hslot hfits (serveStt_conflict (hid hsum) hrecipe ?_ ?_ (firstConflict_eq_some hall hbefore hq))
    · rintro ⟨hmaster, hproduction⟩
      rcases hmode with hverify | ⟨hcls, -⟩
      · exact absurd (hverify.symm.trans hproduction) nofun
      · exact absurd (hcls.symm.trans hmaster) nofun
    · rintro ⟨hsub, hproduction⟩
      rcases hmode with hverify | ⟨-, hlive⟩
      · exact absurd (hverify.symm.trans hproduction) nofun
      · exact absurd (hlive.symm.trans hsub) nofun

end Sys2Proof.Machine
end

section
/-! PROOFS. A taken STT: the test as it stands before step 1, and what step 1 and a reported drive fault leave of it (R19). -/

namespace Sys2Proof.Machine

open Sys2Proof

set_option Elab.async false

namespace State

variable {s t : State} {st : Station} {f : SttFields} {r : Recipe} {ref : RecipeRef} {thr : Vector Thresholds 6}

/-! ### The recipe taken (R19, R38) -/

section

variable {i : Fin 8} {w : Fin 4} {e : Entry}

/-- The entry that a test takes is locked once more and at rank 0; the more recent entries of its set go one rank down. -/
theorem takeRecipe_table_entry (st : Station) (r : Recipe) (he : s.table[i][w] = some e) :
    (s.takeRecipe st r (.table i w)).table[i][w] = some { e with lock := e.lock + 1, rank := 0 }
      ∧ ∀ v : Fin 4, v ≠ w → (s.takeRecipe st r (.table i w)).table[i][v] = (s.table[i][v]).map
          (fun d => { d with rank := if d.rank < e.rank then d.rank + 1 else d.rank }) := by
  have htaken : s.takeRecipe st r (.table i w) = (s.setSet i (RecipeSet.installOver s.table[i] w e.rank e)).modEntry i w
      (fun e => { e with lock := e.lock + 1 }) := by
    rw [← RecipeSet.promote_eq _ he]
    simp only [takeRecipe, he]
  rw [htaken]
  refine ⟨?_, fun v hv => ?_⟩
  · rw [modEntry_entry, if_pos ⟨rfl, rfl⟩, getElem_setSet_same, RecipeSet.getElem_installOver, if_pos rfl]
    rfl
  · rw [modEntry_entry, if_neg fun h => hv h.2.symm, getElem_setSet_same, RecipeSet.getElem_installOver, if_neg (Ne.symm hv)]

/-- The other sets are as they were. -/
theorem takeRecipe_table_other (st : Station) (r : Recipe) {j : Fin 8} (hj : j ≠ i) :
    (s.takeRecipe st r (.table i w)).table[j] = s.table[j] := by
  unfold takeRecipe
  dsimp only
  split
  · rfl
  · exact (getElem_setSet_other _ _ hj).trans (getElem_setSet_other _ _ hj)

end

/-! ### The test opened -/

/-- The context of the test that a taken STT opens (R19). -/
def openedTest (s : State) (st : Station) (f : SttFields) (r : Recipe) (ref : RecipeRef) (thr : Vector Thresholds 6) : TestCtx :=
  { testTag := f.testTag, text := f.text, variant := f.variant.toNat, ref := ref, recipe := r
    verification := s.config.mode == .verify || s.substituted st
    thresholds := thr, start := s.now, cause := none, number := none }

/-- The record that it opens (R158). -/
def openedRecord (s : State) (st : Station) (f : SttFields) (r : Recipe) (ref : RecipeRef) : Record :=
  { number := none, station := st, testTag := f.testTag, text := f.text, variant := f.variant.toNat
    recipeVariant := r.variant, revision := r.revision, fingerprint := r.fingerprint
    transient := ref == .transient, verification := s.config.mode == .verify || s.substituted st, start := s.now
    endTime := none, verdict := none, cause := none
    steps := [], groups := [], leaks := [], checks := [], remarks := [], remarksFull := false }

/-- The recipe taken and the context and the record opened. -/
def openedCtx (s : State) (st : Station) (f : SttFields) (r : Recipe) (ref : RecipeRef) (thr : Vector Thresholds 6) : State :=
  ((s.clearLatches st).takeRecipe st r ref).modCtx st
    (fun c => { c with test := some (s.openedTest st f r ref thr), record := some (s.openedRecord st f r ref) })

/-- The test RUNNING and counted, its drive enabled, its groups PENDING, before step 1. -/
def opened (s : State) (st : Station) (f : SttFields) (r : Recipe) (ref : RecipeRef) (thr : Vector Thresholds 6) : State :=
  ((((s.openedCtx st f r ref thr).countStation st (fun c => { c with testsStarted := satAdd c.testsStarted 1 })).setState st
    .running).modDrive st (fun _ => { Drive.off with enable := true })).modGroups st (fun _ => r.groupTable)

/-- Step 1 begun, where the chain has one. -/
def firstStep (s : State) (st : Station) (r : Recipe) : State :=
  match r.steps.head? with
  | some spec => s.beginStep st 1 spec
  | none => s

theorem firstStep_some {spec : StepSpec} (h : r.steps.head? = some spec) : s.firstStep st r = s.beginStep st 1 spec := by
  rw [firstStep, h]

/-- A taken STT is the test opened, step 1 begun and a drive fault reported. -/
theorem startTest_eq : s.startTest st f r ref thr =
    (if ((s.opened st f r ref thr).firstStep st r).pins.driveFault[st] then
      ((s.opened st f r ref thr).firstStep st r).driveFaultReport st
    else (s.opened st f r ref thr).firstStep st r) := by
  have hnow : ((s.clearLatches st).takeRecipe st r ref).now = s.now := congrArg Clock.now (by simp)
  unfold startTest
  simp only [hnow]
  rfl

/-! ### What a taken STT leaves, whatever step 1 and a drive fault do -/

/-- The test `c` opened at station `st` with a record of this heading: all of the state but the station's step, drive, leak
circuit, groups and record lists, and the engines. -/
structure OpensTest (s t : State) (st : Station) (r : Recipe) (ref : RecipeRef) (c : TestCtx) (k : Record) : Prop where
  others : s.OthersKept t st
  line : s.SameLine t
  store : t.store = s.store
  enabled : (t.ctx st).enabled = (s.ctx st).enabled
  test : (t.ctx st).test = some c
  heading : (t.ctx st).record.map Record.heading = some k
  checks : (t.ctx st).record.map Record.checks = some []
  latched : ∀ q : StQuantity, (t.quantity st q).latched = .none ∧ (t.quantity st q).held = (s.quantity st q).held
  started : t.counters.live.stations[st].testsStarted = min (s.counters.live.stations[st].testsStarted + 1) 65535
  changed : t.counters.changed[st] = true
  privateSlot : (t.ctx st).privateSlot = (((s.clearLatches st).takeRecipe st r ref).ctx st).privateSlot
  table : t.table = ((s.clearLatches st).takeRecipe st r ref).table

theorem takeRecipe_ctx_enabled (s : State) (st : Station) (r : Recipe) (ref : RecipeRef) :
    ((s.takeRecipe st r ref).ctx st).enabled = (s.ctx st).enabled := by
  unfold takeRecipe
  cases ref with
  | table i w =>
    dsimp only
    split <;> rfl
  | transient => simp [ctx]

theorem opened_opensTest : s.OpensTest (s.opened st f r ref thr) st r ref (s.openedTest st f r ref thr)
    (s.openedRecord st f r ref).heading where
  others j hj := by
    unfold opened openedCtx
    exact ⟨by simp [hj.symm], by simp [hj.symm]⟩
  line := by
    unfold opened openedCtx
    constructor <;> simp
  store := by simp [opened, openedCtx]
  enabled := by
    have h := takeRecipe_ctx_enabled (s.clearLatches st) st r ref
    simp only [ctx, Fin.getElem_fin] at h
    simpa [opened, openedCtx] using h
  test := by simp [opened, openedCtx]
  heading := by simp [opened, openedCtx]
  checks := by simp [opened, openedCtx, openedRecord]
  latched q := by
    have hmon : (s.opened st f r ref thr).mon = (s.clearLatches st).mon := by simp [opened, openedCtx]
    simp [quantity, hmon, clearLatches]
  started := by simp [opened, openedCtx, satAdd]
  changed := by simp [opened, openedCtx]
  privateSlot := by simp [opened, openedCtx]
  table := by simp [opened, openedCtx]

/-- The start of a window counts no test. -/
theorem windowStart_testsStarted (s : State) (st : Station) (g : Nat) :
    (s.windowStart st g).counters.live.stations[st.val].testsStarted = s.counters.live.stations[st.val].testsStarted := by
  have hclaim : ∀ u : State, (u.claimEngine st g).counters.live.stations[st.val].testsStarted
      = u.counters.live.stations[st.val].testsStarted := by
    intro u
    unfold claimEngine
    (repeat' split) <;> simp
  unfold windowStart
  dsimp only
  (repeat' split) <;> simp [hclaim]

/-- Nor does the start of any step; and it keeps the station's context but for its step and the record's lists. -/
theorem beginStep_kept (s : State) (st : Station) (i : Nat) (spec : StepSpec) :
    (s.beginStep st i spec).counters.live.stations[st.val].testsStarted = s.counters.live.stations[st.val].testsStarted
      ∧ (s.beginStep st i spec).seq[st.val].enabled = s.seq[st.val].enabled
      ∧ (s.beginStep st i spec).seq[st.val].privateSlot = s.seq[st.val].privateSlot
      ∧ (s.beginStep st i spec).seq[st.val].record.map Record.heading = s.seq[st.val].record.map Record.heading := by
  unfold beginStep
  dsimp only
  split <;> simp [windowStart_testsStarted, beginLeak]

section

variable {c : TestCtx} {k : Record}

theorem OpensTest.beginStep (h : s.OpensTest t st r ref c k) (i : Nat) (spec : StepSpec) :
    s.OpensTest (t.beginStep st i spec) st r ref c k := by
  obtain ⟨hstarted, henabled, hslot, hheading⟩ := beginStep_kept t st i spec
  have hmon : (t.beginStep st i spec).mon = t.mon := by simp
  refine ⟨fun j hj => ?_, h.line.trans (by constructor <;> simp), (by simp [h.store]), henabled.trans h.enabled,
    (t.beginStep_ctx_test st st i spec).trans h.test, hheading.trans h.heading,
    (t.beginStep_record_checks st st i spec).trans h.checks, fun q => ?_, hstarted.trans h.started, ?_,
    hslot.trans h.privateSlot, (by simp [h.table])⟩
  · obtain ⟨hseq, hdrive⟩ := h.others j hj
    exact ⟨Eq.trans (by simp [hj.symm]) hseq, Eq.trans (by simp [hj.symm]) hdrive⟩
  · rw [quantity, hmon]
    exact h.latched q
  · exact Eq.trans (by simp) h.changed

theorem OpensTest.firstStep (h : s.OpensTest t st r ref c k) : s.OpensTest (t.firstStep st r) st r ref c k := by
  unfold State.firstStep
  split
  · exact h.beginStep 1 _
  · exact h

/-- The entry to STOPPING counts nothing, and keeps the context but for its cause. -/
theorem enterStopping_kept (s : State) (st : Station) (cause : Option AbortCause) (drop : Bool) :
    (s.enterStopping st cause drop).counters.live.stations = s.counters.live.stations
      ∧ (s.enterStopping st cause drop).seq[st.val].enabled = s.seq[st.val].enabled
      ∧ (s.enterStopping st cause drop).seq[st.val].privateSlot = s.seq[st.val].privateSlot
      ∧ (s.enterStopping st cause drop).seq[st.val].record.map Record.heading
          = (s.seq[st.val].record.map Record.heading).map (fun k => { k with cause := cause }) := by
  have hexit : ∀ u : State, (u.leakExit st).counters.live.stations = u.counters.live.stations := by
    intro u
    unfold leakExit
    split <;> simp [decideLeak, LeakResult.stopped]
  have hheading : ((s.leaveRunning st).leakExit st).seq[st.val].record.map Record.heading
      = s.seq[st.val].record.map Record.heading := by simp
  rw [← hheading, Option.map_map]
  unfold enterStopping
  dsimp only
  (repeat' split) <;> simp [hexit, Function.comp_def, Record.heading]

theorem OpensTest.enterStopping (h : s.OpensTest t st r ref c k) (cause : Option AbortCause) (drop : Bool) :
    s.OpensTest (t.enterStopping st cause drop) st r ref { c with cause := cause } { k with cause := cause } := by
  obtain ⟨hstations, henabled, hslot, hheading⟩ := enterStopping_kept t st cause drop
  have henters := t.enterStopping_entersStopping st cause drop
  refine ⟨fun j hj => ?_, h.line.trans henters.line, henters.store.trans h.store, henabled.trans h.enabled,
    henters.test.trans (congrArg _ h.test), hheading.trans (congrArg _ h.heading),
    (enterStopping_record_checks t st cause drop).trans h.checks, fun q => ?_, ?_, henters.changed,
    hslot.trans h.privateSlot, henters.table.trans h.table⟩
  · obtain ⟨hseq, hdrive⟩ := h.others j hj
    obtain ⟨hseq', hdrive'⟩ := henters.others j hj
    exact ⟨hseq'.trans hseq, hdrive'.trans hdrive⟩
  · rw [quantity, henters.monitor]
    exact h.latched q
  · rw [hstations]
    exact h.started

end

end State

end Sys2Proof.Machine
end

section
/-! PROOFS. Step 1 of a test that a taken STT opens: its window, its groups and a drive fault already active (R52, R60, R73,
R98). -/

namespace Sys2Proof.Machine

open Sys2Proof

set_option Elab.async false

/-! ### The lines that a group's window leaves (R98) -/

/-- A group table whose lines, but those of group `g`, are as they were. -/
def KeepsOtherLines (g : Nat) (ls ls' : List GroupLine) : Prop :=
  ls'.length = ls.length ∧ ∀ (n : Nat) (l : GroupLine), ls[n]? = some l → l.spec.group ≠ g → ls'[n]? = some l

section

variable {g : Nat} {ls ls' ls'' : List GroupLine}

theorem KeepsOtherLines.refl (g : Nat) (ls : List GroupLine) : KeepsOtherLines g ls ls := ⟨rfl, fun _ _ h _ => h⟩

theorem KeepsOtherLines.trans (h : KeepsOtherLines g ls ls') (k : KeepsOtherLines g ls' ls'') : KeepsOtherLines g ls ls'' :=
  ⟨k.1.trans h.1, fun n l hl hg => k.2 n l (h.2 n l hl hg) hg⟩

theorem keepsOtherLines_modLine (g : Nat) (f : GroupLine → GroupLine) (ls : List GroupLine) :
    KeepsOtherLines g ls (modLine g f ls) := by
  refine ⟨List.length_map .., fun n l hl hg => ?_⟩
  rw [modLine, List.getElem?_map, hl, Option.map_some, if_neg hg]

end

namespace State

variable {s t u : State} {st : Station} {g : Nat}

/-- A change of one group's line keeps the others. -/
theorem modGroups_keepsOtherLines (s : State) (st : Station) (g : Nat) (f : GroupLine → GroupLine) :
    KeepsOtherLines g s.noise.groups[st.val] (s.modGroups st (modLine g f)).noise.groups[st.val] := by
  simpa using keepsOtherLines_modLine g f s.noise.groups[st.val]

theorem grantEngine_keepsOtherLines (s : State) (e : EngineId) (st : Station) (g : Nat) :
    KeepsOtherLines g s.noise.groups[st.val] (s.grantEngine e st g).noise.groups[st.val] := by
  unfold grantEngine
  split
  · exact .refl ..
  · exact .refl ..
  · rename_i l _ _
    have h := modGroups_keepsOtherLines (s.modEngine e (fun _ => Engine.grantTo st l.spec)) st g
      (fun l => { l with engine := some e })
    rwa [show (s.modEngine e (fun _ => Engine.grantTo st l.spec)).noise.groups = s.noise.groups by simp] at h

theorem unmeasured_keepsOtherLines (s : State) (st : Station) (g : Nat) :
    KeepsOtherLines g s.noise.groups[st.val] (s.unmeasured st g).noise.groups[st.val] := by
  unfold unmeasured
  dsimp only
  split
  · split
    · refine (modGroups_keepsOtherLines ((s.remark st .engineWait).modStep st (fun x => { x with unmeasured := true })) st g
        (fun l => l.close .notMeasured none none false)).trans ?_
      exact modGroups_keepsOtherLines _ st g (fun l => { l with entered := true })
    · exact .refl ..
  · exact .refl ..

theorem claimEngine_keepsOtherLines (s : State) (st : Station) (g : Nat) :
    KeepsOtherLines g s.noise.groups[st.val] (s.claimEngine st g).noise.groups[st.val] := by
  unfold claimEngine
  split
  · exact s.grantEngine_keepsOtherLines .a st g
  split
  · exact s.grantEngine_keepsOtherLines .b st g
  split
  · exact unmeasured_keepsOtherLines _ st g
  · exact .refl ..

/-- The start of a window touches the line of its own group alone (R60, R99). -/
theorem windowStart_keepsOtherLines (s : State) (st : Station) (g : Nat) :
    KeepsOtherLines g s.noise.groups[st.val] (s.windowStart st g).noise.groups[st.val] := by
  unfold windowStart
  split
  · exact .refl ..
  split
  · exact .refl ..
  refine (modGroups_keepsOtherLines s st g (fun l => { l with status := .opened })).trans ?_
  dsimp only
  split
  · split
    · simpa using KeepsOtherLines.refl g _
    split
    · exact .refl ..
    · exact claimEngine_keepsOtherLines _ st g
  · split
    · split
      · simpa using KeepsOtherLines.refl g _
      · exact claimEngine_keepsOtherLines _ st g
    · exact claimEngine_keepsOtherLines _ st g

/-! ### A window's start seen from before its test is opened -/

variable {f : SttFields} {r : Recipe} {ref : RecipeRef} {thr : Vector Thresholds 6}

theorem opened_noise : (s.opened st f r ref thr).noise = { s.noise with groups := s.noise.groups.upd st (fun _ => r.groupTable) } := by
  simp [opened, openedCtx, modGroups]

theorem opened_record : ((s.opened st f r ref thr).ctx st).record = some (s.openedRecord st f r ref) := by simp [opened, openedCtx]

theorem opened_state : (s.opened st f r ref thr).stateOf st = .running := by simp [opened, openedCtx, stateOf]

theorem opened_drive : (s.opened st f r ref thr).drive[st] = ⟨0, 0, 0, 0, true, 0⟩ := by
  simp [opened, openedCtx, Drive.off]

theorem opened_now : (s.opened st f r ref thr).now = s.now := congrArg Clock.now (by simp [opened, openedCtx])

theorem opened_pins : (s.opened st f r ref thr).pins = s.pins := by simp [opened, openedCtx]

/-- A group of the recipe is PENDING in the table (R98). -/
theorem opened_line {spec : GroupSpec} {w : GroupWindows} (hfind : (r.groups.zip r.windows).find? (fun y => y.1.group == g) = some (spec, w)) :
    (s.opened st f r ref thr).line st g = some ⟨spec, w, .pending, none, none, none, false⟩ := by
  have hgroups : (s.opened st f r ref thr).noise.groups[st] = r.groupTable := by simp [opened_noise]
  rw [line, hgroups, Recipe.groupTable, List.find?_map]
  exact congrArg _ hfind

/-- Whether a remark joins a list is decided by the list alone. -/
theorem addRemark_remarks_congr {r r' : Record} (h : r.remarks = r'.remarks) (m : Remark) :
    (r.addRemark m).remarks = (r'.addRemark m).remarks := by
  unfold Record.addRemark
  rw [h]
  (repeat' split) <;> simp [h]

/-- A window's start seen from before a change of the station's group table and counters, with any record in progress whose
remarks and results are the same. -/
theorem StartsWindow.before {index : Nat} {l : GroupLine} {k k' : Record} (h : t.StartsWindow u st index g l k)
    (hopen : l.status ≠ .closed) (hnoise : t.noise = { s.noise with groups := t.noise.groups })
    (hothers : ∀ j : Station, j ≠ st → t.noise.groups[j] = s.noise.groups[j]) (hconfig : t.config = s.config)
    (hnow : t.now = s.now)
    (hexpired : t.counters.live.stations[st].engineWaitsExpired = s.counters.live.stations[st].engineWaitsExpired)
    (hremarks : k.remarks = k'.remarks) (hgroups : k.groups = k'.groups) : s.StartsWindow u st index g l k' := by
  have hengine : ∀ e, t.engine e = s.engine e := fun e => by
    cases e with
    | a => exact (congrArg Noise.engineA hnoise).trans rfl
    | b => exact (congrArg Noise.engineB hnoise).trans rfl
  have hheld : t.heldEngine st = s.heldEngine st := by
    rw [heldEngine, heldEngine, show t.noise.engineA = s.noise.engineA from hengine .a,
      show t.noise.engineB = s.noise.engineB from hengine .b]
  have hqueue : t.noise.queue = s.noise.queue := (congrArg Noise.queue hnoise).trans rfl
  have hdeferred : t.noise.deferred = s.noise.deferred := (congrArg Noise.deferred hnoise).trans rfl
  constructor
  case closed => exact fun hc => absurd hc hopen
  case resumes =>
    intro e _ he hp
    simpa only [hengine, hqueue, hdeferred] using h.resumes e hopen he (by rwa [hengine])
  case computes =>
    intro e _ he hc
    obtain ⟨hn, hline⟩ := h.computes e hopen he (by rwa [hengine])
    exact ⟨hn.trans ((congrArg (fun n : Noise => { n with groups := u.noise.groups }) hnoise).trans rfl), hline⟩
  case defers =>
    intro e _ he hh hc
    obtain ⟨hn, hline⟩ := h.defers e hopen he (by rwa [hheld]) (by rwa [hengine])
    refine ⟨hn.trans ?_, hline⟩
    rw [hdeferred]
    exact (congrArg (fun n : Noise => { n with
      groups := u.noise.groups, deferred := s.noise.deferred.upd st (fun _ => some g) }) hnoise).trans rfl
  case claims =>
    intro _ he hh e hfree hb
    have hclaims := h.claims hopen he (by rwa [hheld]) e (by rwa [hengine])
      (fun hbe => by rw [show t.noise.engineA = s.noise.engineA from hengine .a]; exact hb hbe)
    simpa only [hengine, hqueue, hdeferred] using hclaims
  case waits =>
    intro _ he hh hheldAll
    have hwaits := h.waits hopen he (by rwa [hheld]) (fun e => by rw [hengine]; exact hheldAll e)
    simp only [hengine, hqueue, hdeferred, hconfig, hnow, hexpired] at hwaits
    obtain ⟨hengines, hdeferreds, hqueues, hexpires⟩ := hwaits
    refine ⟨hengines, hdeferreds, hqueues, fun hzero => ?_⟩
    obtain ⟨hsame, hmark, hcount, hremark, hgoesOn, hcloses⟩ := hexpires hzero
    refine ⟨hsame, hmark, hcount, ⟨hremark.trans (congrArg some (addRemark_remarks_congr hremarks _)), fun hi => ?_, fun hi => ?_⟩⟩
    · rw [← hgroups]
      exact hgoesOn hi
    · rw [← hgroups]
      exact hcloses hi
  case kept =>
    intro hcase
    rw [← hremarks, ← hgroups]
    refine h.kept ?_
    simpa only [hengine, hheld, hconfig] using hcase
  case others => exact fun j hj => (h.others j hj).trans (hothers j hj)

/-- The window that step 1 is starts as R60 and R99 to R102 have it, seen from before the STT. -/
theorem opened_startsWindow {d : Nat} {b : Bool} {n : Nat} {spec : GroupSpec} {w : GroupWindows} {k : Record}
    (hfind : (r.groups.zip r.windows).find? (fun y => y.1.group == g) = some (spec, w)) (hremarks : k.remarks = [])
    (hgroups : k.groups = []) :
    s.StartsWindow ((s.opened st f r ref thr).beginStep st 1 (.dwell d (some g) b n)) st 1 g
      ⟨spec, w, .pending, none, none, none, false⟩ k := by
  have hbegins := beginStep_beginsStep (s.opened st f r ref thr) st 1 (.dwell d (some g) b n) _ opened_record
  refine (hbegins.window d g b n _ rfl (opened_line hfind)).before nofun ?_ ?_ ?_ opened_now ?_ hremarks.symm hgroups.symm
  · rw [opened_noise]
  · intro j hj
    simp [opened_noise, hj.symm]
  · simp [opened, openedCtx]
  · simp [opened, openedCtx]

end State

end Sys2Proof.Machine
end

section
/-! PROOFS. A taken STT, settled (R19). -/

namespace Sys2Proof.Machine

open Sys2Proof

set_option Elab.async false

namespace State

variable {s : State} {st : Station} {f : SttFields} {r : Recipe} {ref : RecipeRef} {thr : Vector Thresholds 6} {spec : StepSpec}

/-! ### Step 1 (R52) -/

theorem firstStep_state (t : State) : (t.firstStep st r).stateOf st = t.stateOf st := by
  unfold firstStep
  split
  · simp [stateOf]
  · rfl

theorem firstStep_pins (t : State) : (t.firstStep st r).pins = t.pins := by
  unfold firstStep
  split <;> simp

theorem firstStep_now (t : State) : (t.firstStep st r).now = t.now := by
  unfold firstStep
  split
  · exact congrArg Clock.now (by simp)
  · rfl

/-- The start of a step leaves the enable and the setpoint (R56, R59). -/
theorem drive_begun_kept (d : Drive) (spec : StepSpec) : (d.begun spec).enable = d.enable ∧ (d.begun spec).setpoint = d.setpoint := by
  cases spec <;> exact ⟨rfl, rfl⟩

theorem firstStep_drive (t : State) : ((t.firstStep st r).drive[st]).enable = (t.drive[st]).enable
    ∧ ((t.firstStep st r).drive[st]).setpoint = (t.drive[st]).setpoint := by
  unfold firstStep
  split
  · simp only [Fin.getElem_fin, beginStep_drive]
    exact drive_begun_kept _ _
  · exact ⟨rfl, rfl⟩

/-- Nothing is given and nothing is entered by step 1's start. -/
theorem firstStep_sameNotices (t : State) : t.SameNotices (t.firstStep st r) := by
  unfold firstStep
  split
  · exact ⟨by simp, by simp⟩
  · exact ⟨rfl, rfl⟩

theorem firstStep_record_lists (t : State) :
    ((t.firstStep st r).ctx st).record.map Record.steps = (t.ctx st).record.map Record.steps
      ∧ ((t.firstStep st r).ctx st).record.map Record.leaks = (t.ctx st).record.map Record.leaks := by
  unfold firstStep
  split
  · exact ⟨beginStep_record_steps .., beginStep_record_leaks ..⟩
  · exact ⟨rfl, rfl⟩

/-- A step that is no window leaves the record (R52). -/
theorem beginStep_record_plain (hplain : ∀ d g b k, spec ≠ .dwell d (some g) b k) (t : State) (i : Nat) :
    ((t.beginStep st i spec).ctx st).record = (t.ctx st).record := by
  cases spec with
  | dwell d w b k =>
    cases w with
    | none => simp [beginStep]
    | some g => exact absurd rfl (hplain d g b k)
  | _ => simp [beginStep, beginLeak]

/-- A window begins by its rule (R60). -/
theorem beginStep_keepsOtherLines (t : State) (i d g : Nat) (b : Bool) (k : Nat) :
    KeepsOtherLines g t.noise.groups[st.val] (t.beginStep st i (.dwell d (some g) b k)).noise.groups[st.val] := by
  unfold beginStep
  dsimp only
  have h := windowStart_keepsOtherLines
    (t.modCtx st (fun c => { c with step := some ⟨i, .dwell d (some g) b k, firstPhase (.dwell d (some g) b k), t.now, false⟩ })) st g
  rwa [modCtx_noise] at h

/-! ### The drive-fault input already active (R73) -/

theorem startTest_quiet (h : s.pins.driveFault[st] = false) :
    s.startTest st f r ref thr = (s.opened st f r ref thr).firstStep st r := by
  rw [startTest_eq, firstStep_pins, opened_pins, h]
  rfl

/-- The enable's going on reports the fault, which stops the test at once. -/
theorem startTest_faulted (h : s.pins.driveFault[st] = true) : s.startTest st f r ref thr =
    ((s.opened st f r ref thr).firstStep st r).enterStopping st (some .driveFault) true := by
  have henable : (((s.opened st f r ref thr).firstStep st r).drive[st]).enable = true := by
    rw [(firstStep_drive _).1, opened_drive]
  have hrunning : ((s.opened st f r ref thr).firstStep st r).stateOf st = .running := (firstStep_state _).trans opened_state
  rw [startTest_eq, firstStep_pins, opened_pins, h, if_pos rfl, driveFaultReport, if_pos henable]
  simp only [hrunning]

/-- The abort cause of a test that has just been taken. -/
def startCause (s : State) (st : Station) : Option AbortCause := if s.pins.driveFault[st] then some .driveFault else none

theorem startTest_opensTest : s.OpensTest (s.startTest st f r ref thr) st r ref
    { s.openedTest st f r ref thr with cause := s.startCause st }
    { (s.openedRecord st f r ref).heading with cause := s.startCause st } := by
  have hopens := (opened_opensTest (s := s) (st := st) (f := f) (r := r) (ref := ref) (thr := thr)).firstStep
  cases h : s.pins.driveFault[st] with
  | false =>
    rw [startTest_quiet h, startCause, h]
    exact hopens
  | true =>
    rw [startTest_faulted h, startCause, h]
    exact hopens.enterStopping (some .driveFault) true

/-- Step 1 is CUT_SHORT by the fault (R54). -/
theorem startTest_faulted_steps (h : s.pins.driveFault[st] = true) (hspec : r.steps.head? = some spec) :
    ((s.startTest st f r ref thr).ctx st).record.map Record.steps = some [⟨1, spec.kind, .failed, some .cutShort⟩] := by
  have hbegun := firstStep_some (s := s.opened st f r ref thr) (st := st) hspec
  obtain ⟨x, hx, hindex, hxspec, -, -⟩ := beginStep_step (s.opened st f r ref thr) st 1 spec
  have hsteps := beginStep_record_steps (s.opened st f r ref thr) st st 1 spec
  have hopened := opened_record (s := s) (st := st) (f := f) (r := r) (ref := ref) (thr := thr)
  simp only [ctx, Fin.getElem_fin] at hopened
  rw [hopened] at hsteps
  obtain ⟨k, hk, hnil⟩ := Option.map_eq_some_iff.mp hsteps
  have hentry : ((s.opened st f r ref thr).beginStep st 1 spec).exitEntry st x = ⟨1, spec.kind, .failed, some .cutShort⟩ := by
    rw [exitEntry, if_neg, hindex, hxspec]
    rintro ⟨hleak, hvent⟩
    rw [hxspec] at hleak
    subst hleak
    rw [beginStep_leak] at hvent
    exact absurd hvent nofun
  rw [startTest_faulted h, hbegun, enterStopping_record (leaveRunning_record hx hk)]
  refine congrArg some ((settledRecord_steps ..).trans ?_)
  dsimp only
  rw [hnil, hentry]
  rfl

theorem startTest_faulted_notices (h : s.pins.driveFault[st] = true) :
    ([NoticeBody.nst st .stopping (some .driveFault) none].foldl State.giveNotice s).SameNotices (s.startTest st f r ref thr) := by
  have hopened : s.SameNotices (s.opened st f r ref thr) := ⟨by simp [opened, openedCtx], by simp [opened, openedCtx]⟩
  rw [startTest_faulted h]
  exact ((hopened.trans (firstStep_sameNotices _)).give _).trans (enterStopping_notices _ st (some .driveFault) true)

/-! ### The parts of the statement -/

/-- The lists of the record of a test that stays RUNNING are empty, its drive on at setpoint 0. -/
theorem startTest_running (h : s.pins.driveFault[st] = false) : (s.startTest st f r ref thr).stateOf st = .running
    ∧ ((s.startTest st f r ref thr).drive[st]).enable = true ∧ ((s.startTest st f r ref thr).drive[st]).setpoint = 0
    ∧ ((s.startTest st f r ref thr).ctx st).record.map Record.steps = some []
    ∧ ((s.startTest st f r ref thr).ctx st).record.map Record.leaks = some [] := by
  obtain ⟨henable, hsetpoint⟩ := firstStep_drive (st := st) (r := r) (s.opened st f r ref thr)
  obtain ⟨hsteps, hleaks⟩ := firstStep_record_lists (st := st) (r := r) (s.opened st f r ref thr)
  rw [opened_drive] at henable hsetpoint
  rw [opened_record] at hsteps hleaks
  rw [startTest_quiet h]
  exact ⟨(firstStep_state _).trans opened_state, henable, hsetpoint, hsteps, hleaks⟩

theorem startTest_running_begun (h : s.pins.driveFault[st] = false) (hspec : r.steps.head? = some spec) :
    ∃ x, ((s.startTest st f r ref thr).ctx st).step = some x ∧ x.index = 1 ∧ x.spec = spec ∧ x.phase = firstPhase spec
      ∧ x.start = s.now := by
  rw [startTest_quiet h, firstStep_some hspec]
  obtain ⟨x, hx, hindex, hxspec, hstart, hphase⟩ := beginStep_step (s.opened st f r ref thr) st 1 spec
  exact ⟨x, hx, hindex, hxspec, hphase, hstart.trans opened_now⟩

/-- A test that the reported fault stops is STOPPING, its drive dropped. -/
theorem startTest_faulted_entersStopping (h : s.pins.driveFault[st] = true) :
    (s.startTest st f r ref thr).stateOf st = .stopping ∧ ((s.startTest st f r ref thr).ctx st).step = none
      ∧ ((s.startTest st f r ref thr).ctx st).stopStart = some s.now ∧ (s.startTest st f r ref thr).drive[st] = Drive.off := by
  have henters := enterStopping_entersStopping ((s.opened st f r ref thr).firstStep st r) st (some .driveFault) true
  rw [startTest_faulted h]
  exact ⟨henters.state, henters.step, henters.start.trans (congrArg some ((firstStep_now _).trans opened_now)), henters.drive⟩

/-- Step 1 of a test that stays RUNNING (R52, R56, R59, R60, R67, R98). -/
theorem startTest_running_step (h : s.pins.driveFault[st] = false) (hspec : r.steps.head? = some spec) :
    (s.startTest st f r ref thr).drive[st] = Drive.begun ⟨0, 0, 0, 0, true, 0⟩ spec
      ∧ (spec = .leak → (s.startTest st f r ref thr).circuit st = LeakCircuit.begun 1 s.now)
      ∧ ((∀ d g b k, spec ≠ .dwell d (some g) b k) →
        (s.startTest st f r ref thr).noise = { s.noise with groups := s.noise.groups.upd st (fun _ => r.groupTable) }
        ∧ ((s.startTest st f r ref thr).ctx st).record = some (s.openedRecord st f r ref)) := by
  rw [startTest_quiet h, firstStep_some hspec]
  refine ⟨?_, fun hleak => ?_, fun hplain => ⟨?_, ?_⟩⟩
  · exact (beginStep_drive _ st 1 spec).trans (congrArg (Drive.begun · spec) opened_drive)
  · subst hleak
    rw [beginStep_leak, opened_now]
  · exact ((beginStep_beginsStep _ st 1 spec _ opened_record).plain hplain).1.trans opened_noise
  · exact (beginStep_record_plain hplain _ 1).trans opened_record

/-- And its window, where it is one. -/
theorem startTest_running_window {d g : Nat} {b : Bool} {k : Nat} (h : s.pins.driveFault[st] = false)
    (hspec : r.steps.head? = some (.dwell d (some g) b k)) :
    KeepsOtherLines g r.groupTable (s.startTest st f r ref thr).noise.groups[st.val]
      ∧ ∀ (spec : GroupSpec) (w : GroupWindows) (fresh : Record),
        (r.groups.zip r.windows).find? (fun y => y.1.group == g) = some (spec, w) → fresh.remarks = [] → fresh.groups = [] →
        s.StartsWindow (s.startTest st f r ref thr) st 1 g ⟨spec, w, .pending, none, none, none, false⟩ fresh := by
  rw [startTest_quiet h, firstStep_some hspec]
  refine ⟨?_, fun spec w fresh hfind hremarks hgroups => opened_startsWindow hfind hremarks hgroups⟩
  have hopened : (s.opened st f r ref thr).noise.groups[st.val] = r.groupTable := by simp [opened_noise]
  have hkept := beginStep_keepsOtherLines (st := st) (s.opened st f r ref thr) 1 d g b k
  rwa [hopened] at hkept

end State

/-- A window's start seen after the reply. -/
theorem State.StartsWindow.replies {s t : State} {st : Station} {index g : Nat} {l : GroupLine} {k : Record}
    (h : s.StartsWindow t st index g l k) (kind tag : Byte) (payload : List Byte) :
    s.StartsWindow (t.replies kind tag payload) st index g l k :=
  ⟨h.closed, h.resumes, h.computes, h.defers, h.claims, fun ho he hh hf =>
    have ⟨hengines, hdeferred, hqueued, hexpired⟩ := h.waits ho he hh hf
    ⟨hengines, hdeferred, hqueued, fun hzero =>
      have ⟨hqueue, hmark, hcount, hends⟩ := hexpired hzero
      ⟨hqueue, hmark, hcount, hends.remark, hends.goesOn, hends.closes⟩⟩, h.kept, h.others⟩

/-- And from before the receiver's return to HUNTING. -/
theorem State.StartsWindow.received {s t : State} {st : Station} {index g : Nat} {l : GroupLine} {k : Record}
    (h : s.received.StartsWindow t st index g l k) : s.StartsWindow t st index g l k :=
  ⟨h.closed, h.resumes, h.computes, h.defers, h.claims, h.waits, h.kept, h.others⟩

/-- Records of one heading agree on all but their lists. -/
theorem Record.fields_of_heading {k k' : Record} (h : k.heading = k') : k.number = k'.number ∧ k.station = k'.station
    ∧ k.testTag = k'.testTag ∧ k.text = k'.text ∧ k.variant = k'.variant ∧ k.recipeVariant = k'.recipeVariant
    ∧ k.revision = k'.revision ∧ k.fingerprint = k'.fingerprint ∧ k.transient = k'.transient
    ∧ k.verification = k'.verification ∧ k.start = k'.start ∧ k.endTime = k'.endTime ∧ k.verdict = k'.verdict
    ∧ k.cause = k'.cause := by
  subst h
  exact ⟨rfl, rfl, rfl, rfl, rfl, rfl, rfl, rfl, rfl, rfl, rfl, rfl, rfl, rfl⟩

theorem LineMode.ne_production {m : LineMode} (h : m = .verify) : m ≠ .production := by
  rw [h]
  nofun

/-- Settles O12. -/
theorem sttStartsTest : Obligations.SttStartsTest := by
  intro tag f st r ref s hslot hstation henabled hestop hidle hlow hhigh hbytes hvariant hsum hfits hsource hmaster hsub hordered
  have hid : SttIdentified f st s.received := ⟨⟨hstation, henabled, hestop, hidle⟩,
    identityFormed_iff.mpr ⟨hlow, hhigh, hbytes, hvariant⟩, checkByteRight_iff.mpr hsum⟩
  have hrecipe : sttRecipe f s.received = .ok (r, ref) := by
    obtain ⟨h₀, i, w, e, hhit, rfl, rfl⟩ | ⟨h₁, hcarried, heq, rfl⟩ := hsource
    · exact sttRecipe_hit h₀ ((s.received_lookup _).trans hhit)
    · exact sttRecipe_carried h₁ hcarried heq
  have hexec : exec (.stt tag f) s = .next ((s.received.startTest st f r ref (effective s.mon.globals r.overrides)).replies
      0x90 tag (0x00 :: (le32 s.now ++ le16 r.fingerprint))) :=
    exec_stt_served hslot hfits (serveStt_starts hid hrecipe (fun h => LineMode.ne_production (hmaster h.1) h.2)
      (fun h => LineMode.ne_production (hsub h.1) h.2) (firstConflict_eq_none hordered))
  have hthr := State.effective_resolved s r
  generalize effective s.mon.globals r.overrides = thr at hexec hthr
  have hopens := State.startTest_opensTest (s := s.received) (st := st) (f := f) (r := r) (ref := ref) (thr := thr)
  intro cause pend
  refine ⟨_, thr, hexec, hthr, hopens.enabled.trans henabled, hopens.test, ?_, fun hquiet => ?_,
    fun hfault => ?_, hopens.latched, hopens.started, hopens.changed, fun htransient => ?_, fun i w e htable he => ?_,
    State.replies_slot .., hopens.others, ⟨hopens.line.clock, hopens.line.pins, hopens.line.config, hopens.line.enc, hopens.line.cond⟩,
    hopens.store⟩
  · obtain ⟨k, hk, hheading⟩ := Option.map_eq_some_iff.mp hopens.heading
    have hchecks := hopens.checks
    rw [hk] at hchecks
    obtain ⟨hnumber, hst, htag, htext, hvar, hrvar, hrev, hfinger, htrans, hverif, hstart, hend, hverdict, hcause⟩ :=
      Record.fields_of_heading hheading
    refine ⟨k, hk, hnumber, hst, htag, htext, hvar, hrvar, hrev, hfinger, htrans, hverif, hstart, hend, hverdict, hcause,
      Option.some.inj hchecks, fun hquiet => ?_, fun spec hfault hspec => ?_⟩
    · obtain ⟨-, -, -, hsteps, hleaks⟩ := State.startTest_running (s := s.received) (st := st) (f := f) (r := r) (ref := ref)
        (thr := thr) hquiet
      rw [hk] at hsteps hleaks
      exact ⟨Option.some.inj hsteps, Option.some.inj hleaks⟩
    · have hsteps := State.startTest_faulted_steps (s := s.received) (f := f) (ref := ref) (thr := thr) hfault hspec
      rw [hk] at hsteps
      exact Option.some.inj hsteps
  · obtain ⟨hrunning, henable, hsetpoint, -, -⟩ := State.startTest_running (s := s.received) (st := st) (f := f) (r := r)
      (ref := ref) (thr := thr) hquiet
    refine ⟨hrunning, fun spec hspec => State.startTest_running_begun (s := s.received) hquiet hspec, henable, hsetpoint,
      fun spec hspec => ?_⟩
    obtain ⟨hdrive, hleak, hplain⟩ := State.startTest_running_step (s := s.received) (f := f) (ref := ref) (thr := thr)
      hquiet hspec
    refine ⟨hdrive, hleak, fun d g b k spec' w fresh hdwell hfind hremarks _ hgroups => ?_, fun hother => ?_,
      fun d g b k hdwell => ?_⟩
    · subst hdwell
      have hstarts := (State.startTest_running_window (s := s.received) (f := f) (ref := ref) (thr := thr) hquiet hspec).2
      exact (hstarts spec' w fresh hfind hremarks hgroups).received.replies ..
    · obtain ⟨hnoise, hrecord⟩ := hplain hother
      exact ⟨hnoise, congrArg (Option.map fun k => (k.groups, k.remarks, k.remarksFull)) hrecord⟩
    · subst hdwell
      exact (State.startTest_running_window (s := s.received) (f := f) (ref := ref) (thr := thr) hquiet hspec).1
  · obtain ⟨hstate, hstep, hstart, hdrive⟩ := State.startTest_faulted_entersStopping (s := s.received) (st := st) (f := f)
      (r := r) (ref := ref) (thr := thr) hfault
    exact ⟨hstate, hstep, hstart, hdrive, (State.startTest_faulted_notices (s := s.received) hfault).answers ..⟩
  · subst htransient
    exact ⟨hopens.privateSlot.trans (by simp [State.takeRecipe]), hopens.table⟩
  · subst htable
    obtain ⟨hentry, hothers⟩ := State.takeRecipe_table_entry (s := s.received.clearLatches st) st r he
    rw [State.replies_table, hopens.table]
    exact ⟨hentry, hothers, fun j hj => State.takeRecipe_table_other (s := s.received.clearLatches st) st r hj⟩

end Sys2Proof.Machine
end
